-- ==== Sys2Proof/Word.lean ====
section
/-! DEFINITION. The word types of the CX-4 (spec/00, Notation and units; spec/14 R484; spec/04 R140). -/
namespace Sys2Proof

/-- A byte of hearth, near or far memory. -/
abbrev Byte := BitVec 8
/-- A 32-bit vector-register lane or a 32-bit register. -/
abbrev Word32 := BitVec 32
/-- A 64-bit scalar register, instruction word or guarded data word. -/
abbrev Word64 := BitVec 64
/-- An 80-bit guarded word (GW80). -/
abbrev Word80 := BitVec 80
/-- A 512-bit line: 64 bytes, byte i in bits 8i+7 to 8i. -/
abbrev Line512 := BitVec 512

end Sys2Proof
end

