-- ==== Sys2Proof/Syntax.lean ====
section
/-! DEFINITION. The commands of the CX-4: one constructor per row of spec/opcode_table.json, with the
operands the row needs, and the records those operands are made of. -/
namespace Sys2Proof

/-- A stored bit of tile memory that a fault inverts (spec/08 R296): in an L1 line or, with `glob` false, in a scratchpad line; the
line's byte address; and the bit, 0 to 511 of its data and 512 to 543 of its CRC-32C. -/
structure LineUpset where
  glob : Bool
  line : Nat
  bit : Fin 544
  deriving DecidableEq, Repr

/-- A Yalzu instruction at its issue (spec/04 R137, R138): the tile and context, a lane of the issuing
subgroup, the 64-bit instruction word, the local cycle,
the residue mismatches of the issue (spec/14 R493), whether a source register failed its parity
(R496), and what has upset the tile memory by then. -/
structure Issue where
  tile : Fin 160
  ctx : Fin 32
  lane : Fin 32
  word : BitVec 64
  cyc : BitVec 32
  residue : Nat
  parity : Bool
  ups : List LineUpset
  deriving DecidableEq, Repr

/-- Bytes that far devices return for the reads of an operation: address, byte, poisoned. A far byte
that is not listed has not been returned: it reads poisoned (spec/11 R416, R417). -/
abbrev FarBytes := List (BitVec 64 × BitVec 8 × Bool)

/-- What physical faults do in one attempt of the matrix array (spec/05 R172, R175, R200 to R206): accumulators that are not what
the cell should hold when they are read (physical row, physical column, inverted bits); physical rows in whose sweep the
duplicated drain adders or conversions differ (R202); and bits of feeder entries that change between the write of an entry and
the skew-stage output: the feeder (0 to 65 the physical rows, 66 to 130 the columns), the entry of the pass, and the bit by the
numbers of R175. `lines` are faults of the tile memory that the feeders read. -/
structure MxUpsets where
  cells : List (Fin 66 × Fin 65 × BitVec 152)
  drains : List (Fin 66)
  feeds : List (Fin 131 × Nat × Fin 586)
  lines : List LineUpset
  deriving DecidableEq, Repr

/-- What the reads of an epilogue meet: the far bytes returned, faults of tile memory, and faults of the lines of the queue entries it
streams, by the line's number in the tile (spec/07 R266; spec/14 R492). -/
structure EpiReads where
  far : FarBytes
  lines : List LineUpset
  queue : List (Nat × Fin 544)
  deriving DecidableEq, Repr

/-- What the reads of a copy meet. -/
structure CpyReads where
  far : FarBytes
  lines : List LineUpset
  deriving DecidableEq, Repr

/-- Bits of a stored guarded word that faults have inverted: its address, and the bits of the 80 by the numbers of
spec/14 R485. -/
abbrev CellFault := BitVec 64 × BitVec 80

/-- A physical flue that inverts the bit it carries in a transfer: page (0 to 159 a tile flue port, 256 + k the lower page of hob
group k), bundle and flue; at half width the second beat. On a lower page `word` (of the row) and `bit` say what the flue carries
then, which the spec leaves open; on a tile flue port they do not count (spec/10 R366 to R370). -/
structure FlueUpset where
  page : Nat
  bundle : Nat
  flue : Nat
  second : Bool
  word : Fin 64
  bit : Fin 80
  deriving DecidableEq, Repr

/-- A flit of a Kenka block as the partner sent it, and the errors of the block's symbols on the way, by their number in the block
(spec/16 R531, R532). -/
structure KnkBlock where
  sent : BitVec 2048
  errors : List (Fin 852 × BitVec 10)
  deriving DecidableEq, Repr

/-- A request at a hearth partition (spec/09 R310, R327): the requesting tile, if one; class, late mark (spec/12 R437) of a request
that no tile makes; address, length, write or read, and for a write the bytes of the row that it covers; hint; the free slots that
the partition's controller has for waiting requests once it has come (spec/12 R429); stored words that faults have changed,
flues that err, and whether the controller, the reduction unit or the router of the partition is found failed (R358). -/
structure HearthReq where
  tile : Option (Fin 160)
  tc : Fin 5
  late : Bool
  addr : BitVec 64
  len : Nat
  write : Bool
  mask : BitVec 512
  hint : Fin 3
  slots : Nat
  cells : List CellFault
  flues : List FlueUpset
  failed : Bool
  deriving DecidableEq, Repr

/-- What a guarantee monitor counted for one class in one window (spec/12 R439, R444): free slots while
the class waited, slots granted, and the owed slots taken by causes 0x01 to 0x05. -/
structure GuarObs where
  cls : Nat
  free : Nat
  granted : Nat
  taken : List Nat
  deriving DecidableEq, Repr

/-- A configuration request from the host (spec/17 R572 to R575; spec/02 R77 to R80): a read of the identity,
a write of MSI-X enable and function mask, a commit of the HDM decoder, or any other request. -/
inductive ConfigReq where
  | identity
  | msixControl (enable mask : Bool)
  | commitHdm (base : BitVec 64)
  | other
  deriving DecidableEq, Repr

/-- A request on DOE mailbox 1 (spec/21 R696), with the fields of its operand that the model reads. -/
inductive DoeReq where
  | certs
  | report (nonce : List (BitVec 8))
  | log (offset : Nat)
  | write (kind offset : Nat) (data : List (BitVec 8))
  | commit (kind : Nat)
  | nonce (random : BitVec 256)
  | token (bytes : List (BitVec 8))
  deriving DecidableEq, Repr

/-- What Tender finds in steps 3 to 7 of a bring-up (spec/18 R605 to R608; spec/09 R359; spec/10 R375): a step of
3 to 7 that does not end within its limit (0 = none), flues that fail their test, banks (24 × partition + bank) that fail
their self-test, partitions whose controller, reduction unit or router fails it, readings of the three diodes and of monitors (256 × die + index, raw) at calibration, and broken diodes. -/
structure Findings where
  hang : Nat
  flues : List (Nat × Nat × Nat)
  banks : List Nat
  units : List Nat
  diodes : List (Nat × BitVec 16)
  monitors : List (Nat × BitVec 16)
  broken : List Nat
  deriving DecidableEq, Repr

/-- What a far device reports in enumeration (spec/11 R413 to R415): slot, present, a Type-3 device, directly attached, its
CXL version code, persistent, media ready, decoder committed, and capacity. -/
structure FarDev where
  slot : Fin 8
  isPresent : Bool
  type3 : Bool
  direct : Bool
  ver : Fin 4
  pmem : Bool
  mediaReady : Bool
  committed : Bool
  cap : BitVec 64
  deriving DecidableEq, Repr

/-- A page of power-module telemetry (spec/19 R642): page, VOUT in mV, IOUT in 0.1 A, STATUS_WORD. -/
structure PmPage where
  page : Nat
  vout : BitVec 16
  iout : BitVec 16
  status : BitVec 16
  deriving DecidableEq, Repr

/-- An access to a register space (spec/02 R55, R58, R70): from Tender or from the host; to the queue blocks of BAR2
(spec/17 R580) or to BAR0; the byte offset. -/
structure Access where
  tender : Bool
  bar2 : Bool
  off : BitVec 32
  deriving DecidableEq, Repr

/-- The commands of spec/opcode_table.json: those with operands, then those without. -/
inductive Instr where
  /-- STOKE_EVENT (R18): The stoke count reaches the period and a new stoke starts; every receiver restarts its local cycle count at its fixed offset. -/
  | stokeEvent (lastUs : BitVec 32)
  /-- STOKE_SYNC_IN_EDGE (R22): A rising edge on STOKE_SYNC_IN is latched; a late edge places the next stoke event 12 cy after it, and an extra edge in the same stoke increments EXTRA. -/
  | stokeSyncInEdge (cycle : BitVec 32)
  /-- REMAP_WINDOW (R382): At B+1,136 each flue port applies faults declared since its last window, runs requested sweeps and holds unplanned traffic for 16 cy. -/
  | remapWindow (found : List (Nat × Nat × Nat))
  /-- CRACK_MEASURE (R660): In the guard cycles each hob measures its supply-path resistance against its baseline and raises a crack warning or crack trip. -/
  | crackMeasure (readings : List (Fin 16 × BitVec 16))
  /-- STK_QUENCH (R41): A write of QUENCH to STK_CMD abandons the current stoke: within 16 cy tiles stop launching and terminate groups and planned DMA stops. -/
  | stkQuench (cyc : BitVec 32)
  /-- STK_PERIOD_WRITE (R17): A write to STK_PERIOD lands in the shadow, and a value below 16,384 is replaced by 16,384 with PERIOD_CLAMP set. -/
  | stkPeriodWrite (value : BitVec 32)
  /-- LAUNCH_ISSUE (R95): The control core issues a LAUNCH entry once its conditions hold, placing all its groups on sequencers with initialised registers. -/
  | launchIssue (tile : Fin 160) (cyc : BitVec 32)
  /-- WAIT_ISSUE (R94): The control core issues a WAIT entry once its start cycle, event flags and WAIT_PREV condition hold. -/
  | waitIssue (tile : Fin 160) (cyc : BitVec 32)
  /-- MARK_ISSUE (R94): The control core issues a MARK entry, placing its MARK_ID in the tile's trace record. -/
  | markIssue (tile : Fin 160) (cyc : BitVec 32)
  /-- WORK_LIST_END (R90): The control core reaches END or the last entry and the tile's list ends. -/
  | workListEnd (tile : Fin 160) (cyc : BitVec 32)
  /-- ENTRY_DEADLINE (R98): An entry's effective deadline arrives with the entry not complete, and the tile enters overrun. -/
  | entryDeadline (tile : Fin 160) (cyc : BitVec 32)
  /-- ADD (R149): SCL or VEC ADD: D := A + B. -/
  | add (i : Issue)
  /-- SUB (R149): SCL or VEC SUB: D := A - B. -/
  | sub (i : Issue)
  /-- MUL (R149): SCL or VEC MUL: D := A × B. -/
  | mul (i : Issue)
  /-- MULHI (R149): SCL or VEC MULHI: D := high half of the integer product. -/
  | mulhi (i : Issue)
  /-- FMA (R744): SCL or VEC FMA: D := A × B + C rounded once. -/
  | fma (i : Issue)
  /-- MIN (R225): SCL or VEC MIN of A and B. -/
  | min (i : Issue)
  /-- MAX (R225): SCL or VEC MAX of A and B. -/
  | max (i : Issue)
  /-- AND (R149): SCL or VEC bitwise AND. -/
  | and (i : Issue)
  /-- OR (R149): SCL or VEC bitwise OR. -/
  | or (i : Issue)
  /-- XOR (R149): SCL or VEC bitwise XOR. -/
  | xor (i : Issue)
  /-- SHL (R149): SCL or VEC shift left by B mod the width. -/
  | shl (i : Issue)
  /-- SHR (R149): SCL or VEC shift right, arithmetic for signed types. -/
  | shr (i : Issue)
  /-- CMP (R749): SCL or VEC CMP writes predicate bits from a comparison of A and B. -/
  | cmp (i : Issue)
  /-- VEC_SEL (R149): VEC.SEL: D := A where the predicate holds, otherwise B. -/
  | vecSel (i : Issue)
  /-- CVT (R748): SCL or VEC CVT converts A from TYPE to the type in MOD. -/
  | cvt (i : Issue)
  /-- VEC_DIV (R228): VEC.DIV: D := A / B, correctly rounded. -/
  | vecDiv (i : Issue)
  /-- VEC_SQRT (R228): VEC.SQRT: D := square root of A, correctly rounded. -/
  | vecSqrt (i : Issue)
  /-- VEC_PACK (R149): VEC.PACK converts A and B into one byte pair of D. -/
  | vecPack (i : Issue)
  /-- VEC_UNPK (R149): VEC.UNPK widens one byte of A to F32 or I32. -/
  | vecUnpk (i : Issue)
  /-- MOV (R149): SCL or VEC MOV: D := A or the immediate. -/
  | mov (i : Issue)
  /-- ABS (R223): SCL or VEC ABS clears the sign. -/
  | abs (i : Issue)
  /-- NEG (R223): SCL or VEC NEG inverts the sign. -/
  | neg (i : Issue)
  /-- VEC_FN (R228): VEC.FN: D := EXP2, LOG2, RCP, RSQRT, SINPI or COSPI of A. -/
  | vecFn (i : Issue)
  /-- POPC (R149): SCL or VEC POPC counts ones. -/
  | popc (i : Issue)
  /-- CLZ (R149): SCL or VEC CLZ counts leading zeros. -/
  | clz (i : Issue)
  /-- SCL_FLAGS (R229): SCL.FLAGS reads the context's sticky flag word and optionally clears it. -/
  | sclFlags (i : Issue)
  /-- SCL_CYC (R149): SCL.CYC reads the tile's local cycle. -/
  | sclCyc (i : Issue)
  /-- VEC_VOTE (R166): VEC.VOTE ANY, ALL or BALLOT writes a predicate or scalar from a predicate over enabled lanes. -/
  | vecVote (i : Issue)
  /-- VEC_BCAST (R254): VEC.BCAST copies one lane's value to every enabled lane, or the fill value when out of range. -/
  | vecBcast (i : Issue)
  /-- VEC_SHFL (R255): VEC.SHFL UP, DOWN or XOR reads another lane, or the fill value outside 0–31. -/
  | vecShfl (i : Issue)
  /-- VEC_PERM (R253): VEC.PERM reads the lane named by Vb, or the fill value and PERM_OOB when out of range. -/
  | vecPerm (i : Issue)
  /-- VEC_RED (R248): VEC.RED reduces enabled lanes along the fixed tree into a scalar. -/
  | vecRed (i : Issue)
  /-- VEC_SCAN (R252): VEC.SCAN writes inclusive prefix reductions to enabled lanes. -/
  | vecScan (i : Issue)
  /-- MOV_K (R138): MOV.K places a 32-bit constant in a register under HI. -/
  | movK (i : Issue)
  /-- LD (R152): LD.S or LD.G loads memory at the computed address into DATA. -/
  | ld (i : Issue)
  /-- ST (R152): ST.S or ST.G stores DATA at the computed address. -/
  | st (i : Issue)
  /-- ATOM_ADD (R155): ATOM.ADD read-modify-write returning the old value. -/
  | atomAdd (i : Issue)
  /-- ATOM_MIN (R155): ATOM.MIN read-modify-write returning the old value. -/
  | atomMin (i : Issue)
  /-- ATOM_MAX (R155): ATOM.MAX read-modify-write returning the old value. -/
  | atomMax (i : Issue)
  /-- ATOM_AND (R155): ATOM.AND read-modify-write returning the old value. -/
  | atomAnd (i : Issue)
  /-- ATOM_OR (R155): ATOM.OR read-modify-write returning the old value. -/
  | atomOr (i : Issue)
  /-- ATOM_XOR (R155): ATOM.XOR read-modify-write returning the old value. -/
  | atomXor (i : Issue)
  /-- ATOM_XCHG (R155): ATOM.XCHG exchanges the word with DATA. -/
  | atomXchg (i : Issue)
  /-- ATOM_CAS (R156): ATOM.CAS stores the new value when memory equals DATA and returns the old value. -/
  | atomCas (i : Issue)
  /-- HRED_ADD (R330): HRED.ADD sends an add into the word's partition reduction unit. -/
  | hredAdd (i : Issue)
  /-- HRED_MIN (R330): HRED.MIN sends a minimum into the word's partition reduction unit. -/
  | hredMin (i : Issue)
  /-- HRED_MAX (R330): HRED.MAX sends a maximum into the word's partition reduction unit. -/
  | hredMax (i : Issue)
  /-- HRED_AND (R330): HRED.AND sends a bitwise AND into the reduction unit. -/
  | hredAnd (i : Issue)
  /-- HRED_OR (R330): HRED.OR sends a bitwise OR into the reduction unit. -/
  | hredOr (i : Issue)
  /-- HRED_XOR (R330): HRED.XOR sends a bitwise XOR into the reduction unit. -/
  | hredXor (i : Issue)
  /-- HRED_ADD_ORD (R336): HRED.ADD.ORD sends a ranked floating contribution applied in rank order. -/
  | hredAddOrd (i : Issue)
  /-- LOCK_ACQ (R121): LOCK.ACQ acquires the lock word for each active lane or parks the lane. -/
  | lockAcq (i : Issue)
  /-- LOCK_REL (R124): LOCK.REL fences and releases the lock word, waking parked lanes. -/
  | lockRel (i : Issue)
  /-- LOCK_POLL (R123): A lane waiting on a hearth-homed lock retries every 8 × LOCK_POLL cy. -/
  | lockPoll (tile : Fin 160) (ctx : Fin 32) (lane : Fin 32) (cyc : BitVec 32)
  /-- BRA (R168): BRA sends enabled lanes to the target and pushes a split-stack entry on divergence. -/
  | bra (i : Issue)
  /-- BRX (R168): BRX sends enabled lanes to a scalar target and pushes a split-stack entry on divergence. -/
  | brx (i : Issue)
  /-- MXF_LD (R750): MXF.LD loads a 16 × 16 fragment into registers. -/
  | mxfLd (i : Issue)
  /-- MXF_ST (R750): MXF.ST stores a fragment from registers. -/
  | mxfSt (i : Issue)
  /-- MXF_MMA (R192): MXF.MMA starts the fragment product FD := FA × FB + FC on the array. -/
  | mxfMma (i : Issue)
  /-- MXF_REL (R113): MXF.REL ends the group's fragment holding. -/
  | mxfRel (i : Issue)
  /-- MXD_MMA (R179): MXD.MMA copies and checks a descriptor and queues a descriptor-path product on a token. -/
  | mxdMma (i : Issue)
  /-- CPY (R349): CPY copies and checks a descriptor and starts a copy-engine transfer on a token. -/
  | cpy (i : Issue)
  /-- VEC_EPI (R257): VEC.EPI copies and checks a descriptor and queues an epilogue on the head finished tile. -/
  | vecEpi (i : Issue)
  /-- NOP (R149): NOP does nothing. -/
  | nop (i : Issue)
  /-- EXIT (R169): EXIT makes enabled lanes exit, leaving barrier counts and exiting the group when all lanes are gone. -/
  | exit (i : Issue)
  /-- BAR_G (R114): BAR.G makes the lane wait for every live lane of its group. -/
  | barG (i : Issue)
  /-- BAR_L (R114): BAR.L makes the lane wait for every live lane of its launch in the tile. -/
  | barL (i : Issue)
  /-- FENCE_T (R128): FENCE.T completes once the group's earlier stores are performed in tile memory. -/
  | fenceT (i : Issue)
  /-- FENCE_H (R129): FENCE.H writes back dirty L1 lines, invalidates clean ones and waits for reduction acknowledgements. -/
  | fenceH (i : Issue)
  /-- FENCE_X (R130): FENCE.X performs FENCE.H and waits for far-tier write acknowledgements. -/
  | fenceX (i : Issue)
  /-- EVT_SET (R92): EVT.SET sets an event flag of the tile, releasing waiters. -/
  | evtSet (i : Issue)
  /-- EVT_WAIT (R752): EVT.WAIT holds the subgroup until the event flag is set. -/
  | evtWait (i : Issue)
  /-- EVT_TEST (R149): EVT.TEST writes the flag state into a predicate. -/
  | evtTest (i : Issue)
  /-- TOK_WAIT (R163): TOK.WAIT holds the subgroup until the token's operations complete. -/
  | tokWait (i : Issue)
  /-- TOK_TEST (R149): TOK.TEST writes token completion into a predicate. -/
  | tokTest (i : Issue)
  /-- EMB_GEN (R524): EMB.GEN writes the 32-bit ember value for each lane. -/
  | embGen (i : Issue)
  /-- EMB_GEN64 (R524): EMB.GEN64 writes the 64-bit ember value for each lane. -/
  | embGen64 (i : Issue)
  /-- L1_FILL_RETURN (R282): A fill from the hearth arrives, is installed with its CRC, and completes the waiting load. -/
  | l1FillReturn (tile : Fin 160) (addr : BitVec 64) (words : List (Fin 8 × BitVec 80))
  /-- DIRTY_LINE_CLEANER (R294): While the dirty count is at least CLEAN_AT the cleaner writes back dirty lines on free bank cycles. -/
  | dirtyLineCleaner (tile : Fin 160)
  /-- HEARTH_REQUEST (R310): A request reaches a partition through the flue port or the hearth mesh and is read, written or forwarded to the home partition. -/
  | hearthRequest (r : HearthReq)
  /-- HEARTH_FILL_RETURN (R324): Sectors filled from near memory arrive at the home partition and the waiting request completes. -/
  | hearthFillReturn (addr : BitVec 64) (sectors : BitVec 8) (cells : List CellFault)
  /-- REDUCTION_ACCEPT (R331): The reduction unit accepts one reduction or atomic request per cycle and sets reduce-pending on its line. -/
  | reductionAccept (id : Nat)
  /-- REDUCTION_APPLY (R331): 4 cy after acceptance the operation is applied to the word and acknowledged. -/
  | reductionApply (part : Fin 160)
  /-- ORD_RESEND (R339): A refused ordered contribution is sent again by its tile 64 cy later. -/
  | ordResend (id : Nat)
  /-- VICTIM_WRITEBACK (R346): A victim-buffer line held 16 cy without reduce-pending is written back to near memory. -/
  | victimWriteback (part : Fin 160)
  /-- WRITEBACK_ACK (R346): The channel acknowledges a write-back and waiting requests proceed as misses. -/
  | writebackAck (part : Fin 160)
  /-- CORRECTION_WRITEBACK (R500): A corrected word is written back in the next free bank cycle or row slot unless a newer write cancels it. -/
  | correctionWriteback (addr : BitVec 64)
  /-- LINK_CRC_RETRY (R405): A GDDR7 transfer with a failed link CRC is retried in the next free row slot, and poisoned after the fourth failure. -/
  | linkCrcRetry (chan : Fin 144) (retries : Nat) (addr : BitVec 64) (len : Nat)
  /-- REPAIR_COPY_DONE (R407): The last copy write of a repair finishes and the repair table maps the block to its pool block. -/
  | repairCopyDone (chan : Fin 144)
  /-- CE_BUCKET_LIMIT (R503): A channel's bucket LEVEL reaches LIMIT × 64 while armed, setting BUCKET and disarming it. -/
  | ceBucketLimit (chan : Fin 144)
  /-- BANK_UE_RETIRE (R358): A bank's uncorrectable count reaches BANK_UE_MAX, so Tender drains it and retires it at the next latch point. -/
  | bankUeRetire (part : Fin 160) (bank : Fin 24)
  /-- CHANNEL_UE_FENCE (R410): Uncorrectable accesses in one stoke reach UE_FENCE, so Tender fences the channel at the next latch point. -/
  | channelUeFence (chan : Fin 144)
  /-- PIN_DRAIN_DONE (R315): Banks that a validated plan pins hold no dirty sector any more. -/
  | pinDrainDone (part : Fin 160)
  /-- PLANNED_DMA_ISSUE (R461): A planned DMA descriptor issues at its START or after the previous descriptor of its list. -/
  | plannedDmaIssue (part : Fin 160) (cyc : BitVec 32)
  /-- PLANNED_DMA_DONE (R461): A planned DMA transfer completes and sets its named event flag. -/
  | plannedDmaDone (part : Fin 160) (index : Nat) (far : FarBytes)
  /-- CHECKPOINT_COPY_END (R469): A checkpoint copy completes or becomes void and its generation record is written. -/
  | checkpointCopyEnd (copied : Nat)
  /-- FAR_COMPLETION (R416): A CXL.mem completion arrives from a far device, poisoned words when the device marks them. -/
  | farCompletion (id : Nat) (data : List (BitVec 8)) (poison : Bool)
  /-- FAR_TIMEOUT (R417): A far request gets no completion within TIMEOUT µs and is abandoned. -/
  | farTimeout (id : Nat)
  /-- FAR_LINK_DOWN (R418): A far device's link goes down or it reports a fatal error, and its slot enters the removed state. -/
  | farLinkDown (slot : Fin 8)
  /-- MXA_PASS_RELEASE (R189): A descriptor pass finishes its drain and checks and is released, retried or leads to substitution or retirement. -/
  | mxaPassRelease (tile : Fin 160) (ups : MxUpsets) (far : FarBytes)
  /-- MXA_RETRY_START (R207): 40 cy after a failed attempt the pass or fragment instruction runs again. -/
  | mxaRetryStart (tile : Fin 160)
  /-- SUBSTITUTION_DONE (R210): 107 cy after a row is declared faulty the spare row is in place and the pass runs again. -/
  | substitutionDone (tile : Fin 160)
  /-- MXF_MMA_RELEASE (R194): A fragment product's checks complete and its result is written to FD. -/
  | mxfMmaRelease (tile : Fin 160) (ups : MxUpsets)
  /-- EPI_START (R264): An epilogue starts streaming once it is oldest, the previous has finished and the head tile is valid. -/
  | epiStart (tile : Fin 160)
  /-- EPI_DONE (R267): The last output and reduction writes of an epilogue are performed and its token completes. -/
  | epiDone (tile : Fin 160) (reads : EpiReads)
  /-- CPY_DONE (R354): A copy's last destination write is performed and its token completes. -/
  | cpyDone (tile : Fin 160) (op : Nat) (reads : CpyReads)
  /-- LANE_COUNT_MAX (R379): A flue's lane count reaches LANE_ERR_MAX and the flue is declared faulty. -/
  | laneCountMax (page bundle flue : Nat)
  /-- FLU_SWEEP (R381): A write of SWEEP to FLU_CMD requests a sweep of the page's ports in the next remap window. -/
  | fluSweep (page : Nat)
  /-- GUARANTEE_WINDOW_END (R439): A monitor window ends and each class's owed and granted slots are compared, recording guarantee misses. -/
  | guaranteeWindowEnd (site : Fin 8) (inst : BitVec 12) (cyc : BitVec 32) (obs : List GuarObs)
  /-- TC0_WAIT_MISS (R440): A TC0 request waits more than 64 cy for a free slot, making its window a TC0 miss. -/
  | tc0WaitMiss (site : Fin 8) (inst : BitVec 12) (cyc : BitVec 32) (taken : List Nat) (owed granted : BitVec 16)
  /-- BELLOWS_LEVEL_CHANGE (R434): A master's buffer fill crosses a threshold and the effective bellows level and TC1 weight change. -/
  | bellowsLevelChange (master : Fin 2) (fill : Nat) (cycles : BitVec 32)
  /-- PLAN_STAGED (R474): Every check of R471 has passed and the drains have ended, so the plan is staged and PLAN_LOAD completes. -/
  | planStaged (image : List (BitVec 8)) (readErr : Bool)
  /-- SCRUB_END (R508): A scrub ends or is stopped and its 64-byte summary is written and its completion posted. -/
  | scrubEnd (bankCells devCells : List CellFault)
  /-- SQ_TAIL_DOORBELL (R580): A write of SQ_TAIL lets the queue read submission entries up to the new tail, or sets ERR when beyond the ring. -/
  | sqTailDoorbell (q : Fin 5) (tail : BitVec 12) (entries : List (List (BitVec 64))) (late : Bool)
  /-- CQ_HEAD_DOORBELL (R596): A write of CQ_HEAD frees completion entries and re-arms the queue's vector. -/
  | cqHeadDoorbell (q : Fin 5) (head : BitVec 12)
  /-- QUEUE_ENABLE (R581): A write of STATE.EN starts or stops a queue, checking its sizes and bases and clearing ERR. -/
  | queueEnable (q : Fin 5) (en : Bool)
  /-- INGEST_PERFORM (R588): A fixed ingest descriptor is performed from START, writing through home partitions and setting its event flag. -/
  | ingestPerform (q : Fin 2) (slot : Nat) (cyc : BitVec 32)
  /-- EGRESS_PERFORM (R592): A fixed egress descriptor is performed, hashed, and sent to the host unless the module is BANKED. -/
  | egressPerform (slot : Nat) (cyc : BitVec 32) (far : FarBytes)
  /-- HOST_MEM_READ (R575): A host CXL.mem or BAR4 read reaches near memory through the home partition. -/
  | hostMemRead (push : Bool) (off : BitVec 64) (len : Nat)
  /-- HOST_MEM_WRITE (R494): A host CXL.mem or BAR4 write reaches near memory and is merged by byte mask at the home partition. -/
  | hostMemWrite (push : Bool) (off : BitVec 64) (data : BitVec 512) (mask : BitVec 64) (poison : BitVec 8)
  /-- BI_RESPONSE (R576): The host answers a BISnpInv, returned modified data is written, and the filter entry is removed. -/
  | biResponse (addr : BitVec 64) (modified : Option (BitVec 512))
  /-- HOST_SNOOP (R584): A host snoop to the ingest engine is answered at once, as the engine holds no host line. -/
  | hostSnoop (addr : BitVec 64)
  /-- CONFIG_REQUEST (R631): A configuration request is answered with CRS before ready and normally after. -/
  | configRequest (r : ConfigReq)
  /-- CXP_LINK_UP (R569): CXP0 or CXP1 finishes training in a mode, width and rate, setting LINK_UP and NARROW as they apply. -/
  | cxpLinkUp (port : Fin 2) (mode : Fin 7) (width rate : Nat) (verified : Bool) (devs : List FarDev)
  /-- CXP_LINK_DOWN (R597): A CXP0 link goes down without a reset; the CX-4 keeps running and retrains. -/
  | cxpLinkDown (port : Fin 2)
  /-- CXP_RETRAIN (R598): A write of RETRAIN to CXP_CTRL retrains the link. -/
  | cxpRetrain (port : Fin 2)
  /-- INT_ACK (R78): A write to INT_ACK re-arms a vector and sends a new message at once if a routed source is still asserted. -/
  | intAck (vector : BitVec 6)
  /-- INT_ROUTE_WRITE (R75): A write to INT_ROUTE routes sources to vectors, treating 48–63 as 0 with ROUTE_BAD. -/
  | intRouteWrite (index : Fin 20) (value : BitVec 32)
  /-- INT_CTRL_WRITE (R80): A write to INT_CTRL.EN makes delivery possible or not, messaging asserted sources when it becomes possible. -/
  | intCtrlWrite (en : Bool)
  /-- MSIX_UNMASK (R79): Unmasking an MSI-X vector sends a message whose pending bit was set. -/
  | msixUnmask (vector : Fin 64)
  /-- REGISTER_WRITE (R12): A write to a register field without a row of its own acts by its access code, capturing common errors. -/
  | registerWrite (a : Access) (wide : Bool) (value : BitVec 64)
  /-- ROC_READ (R12): A read of a ROC field returns its value and clears it. -/
  | rocRead (a : Access) (wide : Bool)
  /-- PAIR_LO_READ (R58): A read of a pair's _LO latches the _HI half for that requester. -/
  | pairLoRead (a : Access)
  /-- PAIR_LO_WRITE (R59): A 32-bit write to _LO of a writable pair is held until the _HI write. -/
  | pairLoWrite (a : Access) (value : BitVec 32)
  /-- PAIR_HI_WRITE (R59): A write to _HI commits both halves with a held _LO, or with the _LO in effect. -/
  | pairHiWrite (a : Access) (value : BitVec 32)
  /-- BAD_WIDTH_ACCESS (R56): An access of a bad width or alignment completes without effect and sets BAD_WIDTH. -/
  | badWidthAccess (a : Access) (bytes : Nat) (write : Bool)
  /-- UNMAPPED_ACCESS (R57): An access to an unassigned BAR0 offset completes without effect and sets UNMAPPED. -/
  | unmappedAccess (a : Access) (wide write : Bool)
  /-- FENCED_PAGE_ACCESS (R746): An access to a fenced page other than PAGE_ID or PAGE_STAT is captured on the DEV page with code 0x05. -/
  | fencedPageAccess (a : Access) (wide write : Bool)
  /-- DARK_PAGE_ACCESS (R66): An access to a dark page is answered by the Ashpit stand-in and sets DARK_ACCESS. -/
  | darkPageAccess (a : Access) (wide write : Bool)
  /-- LEGACY_PAGE_WRITE (R83): A write to the CX-3 legacy page is ignored and sets LEGACY_WRITE. -/
  | legacyPageWrite (off : BitVec 12) (value : BitVec 32)
  /-- MXA_FLIP (R217): A write of ARM to MXA_FLIP arms a one-bit accumulator flip and taints the page and record. -/
  | mxaFlip (tile : Fin 160) (value : BitVec 32)
  /-- TLM_FLIP (R301): A write of ARM to TLM_FLIP arms a one-bit line flip and taints the page and record. -/
  | tlmFlip (tile : Fin 160) (value : BitVec 32)
  /-- HRT_FLIP (R362): A write of ARM to HRT_FLIP arms a one-bit flip of a bank word and taints the page and record. -/
  | hrtFlip (part : Fin 160) (value : BitVec 32)
  /-- FLU_FLIP (R390): A write of ARM to FLU_FLIP arms a one-bit flip on a flue and taints the page and record. -/
  | fluFlip (page : BitVec 12) (value : BitVec 32)
  /-- GDC_FLIP (R423): A write of ARM to GDC_FLIP arms a one-bit flip of a device word and taints the page and record. -/
  | gdcFlip (chan : Fin 144) (value : BitVec 32)
  /-- KNK_FLIP (R568): A write of ARM to KNK_FLIP arms a payload-bit flip of a Kenka flit and taints the page and record. -/
  | knkFlip (value : BitVec 32)
  /-- CXP_FLIP (R600): A write of ARM to CXP_FLIP arms a payload-bit flip of a received flit and taints the page and record. -/
  | cxpFlip (port : Fin 2) (value : BitVec 32)
  /-- FAR_RESCAN (R418): A write of RESCAN to FAR_CMD enumerates one slot again, or is ignored with code 0x03. -/
  | farRescan (d : FarDev)
  /-- FAR_SANITIZE (R420): A write of SANITIZE to FAR_CMD issues Sanitize to a directly attached device in IDLE, or is ignored. -/
  | farSanitize (slot : Fin 8)
  /-- FAR_SANITIZE_DONE (R420): A Sanitize completes or fails and its result is recorded in FAR_SAN. -/
  | farSanitizeDone (slot : Fin 8) (result : Fin 3) (seconds : BitVec 32) (f : Findings)
  /-- FAST_NEXT_WRITE (R629): A write of TND_CTRL.FAST_NEXT is stored in flash for later bring-ups. -/
  | fastNextWrite (v : Bool)
  /-- SMK_COUNTER_CLR (R722): A write of CLR to SMK_CCTRL sets every counter of the page to 0. -/
  | smkCounterClr (page : BitVec 12)
  /-- KENKA_LINK_UP (R530): Kenka training completes at a lane set, and records and journals are compared for pairing. -/
  | kenkaLinkUp (good : BitVec 16) (verified : Bool) (peer : BitVec 64)
  /-- KENKA_FLIT_RECEIVE (R534): A Kenka FEC block and flit are received, checked by CRC-64, and acknowledged or NAKed. -/
  | kenkaFlitReceive (block : KnkBlock) (place : Fin 4) (far : FarBytes)
  /-- KNK_RESYNC_TX (R561): A write of RESYNC_TX to KNK_CMD starts a resynchronisation as sender, or is ignored with 0x03. -/
  | knkResyncTx (partnerOk : Bool)
  /-- DIGEST (R546): A DIGEST message from the partner is received and held for comparison. -/
  | digest (words : List (BitVec 64))
  /-- REPLAY (R39): A partner replay notice is received and mirrored, absorbed, or marked late. -/
  | replay (work : BitVec 64)
  /-- HEARTBEAT (R539): A HEARTBEAT message is received with the partner's pair state, role and work stoke. -/
  | heartbeat (words : List (BitVec 64))
  /-- RECORD_MSG (R519): A RECORD message carrying the partner's determinism record is received and compared. -/
  | recordMsg (words : List (BitVec 64)) (far : FarBytes)
  /-- HANDOFF (R557): A HANDOFF message is received, promoting the module or detecting crossed hand-offs. -/
  | handoff (work : BitVec 64)
  /-- SPLIT (R553): A SPLIT message is received, and with both held the module decides demotion, promotion or reload. -/
  | splitMsg (words : List (BitVec 64))
  /-- CKPT (R554): A CKPT message is received and the newest common checkpoint generation is selected. -/
  | ckpt (words : List (BitVec 64))
  /-- READY_MSG (R555): A READY message is received naming the work stoke to resume and the boundaries to wait. -/
  | readyMsg (words : List (BitVec 64))
  /-- INGEST (R540): An INGEST message is received and its block is written for the named work stoke. -/
  | ingest (words : List (BitVec 64)) (bad : List Nat)
  /-- RS_ROWS (R562): An RS_ROWS message is received and its rows are written through their home partitions. -/
  | rsRows (words : List (BitVec 64)) (bad : List Nat)
  /-- RS_ZERO (R562): An RS_ZERO message is received and its run of zero rows is written. -/
  | rsZero (words : List (BitVec 64))
  /-- RS_ACK (R562): An RS_ACK message is received marking rows written by the receiver. -/
  | rsAck (addr : BitVec 64)
  /-- RS_END (R564): An RS_END message is received and the resync hashes are compared to finish or fail the resynchronisation. -/
  | rsEnd (words : List (BitVec 64)) (far : FarBytes)
  /-- HB_PULSE_RECEIVE (R539): A pulse on PAIR_HB_RX is judged against the role codes. -/
  | hbPulseReceive (width : Nat)
  /-- HB_PATH_LOSS (R539): A heartbeat path carries no valid pulse or message for LOSS periods and is lost. -/
  | hbPathLoss (pin : Bool)
  /-- POWER_GOOD_RISE (R604): PWR_GOOD rises, the power mode strap is sampled and bring-up starts at step 3. -/
  | powerGoodRise (strap : Bool) (f : Findings)
  /-- RESET_N_RELEASE (R604): RESET_N rises, setting time 0 when latest and returning the TAP to BYPASS. -/
  | resetNRelease (f : Findings)
  /-- PERST0_N_RELEASE (R604): PERST0_N rises, setting time 0 of the bring-up when it is the latest release. -/
  | perst0NRelease (f : Findings)
  /-- CXP0_HOT_RESET (R597): A hot reset or link disable on CXP0 resets the whole module with ash-out. -/
  | cxp0HotReset (f : Findings)
  /-- WATCHDOG_EXPIRY (R601): Tender's watchdog expires and the module resets. -/
  | watchdogExpiry (f : Findings)
  /-- KINDLING_STAGE (R609): A header-switch stage of a kindling wave closes on its schedule. -/
  | kindlingStage (wave : Fin 4) (stage : Fin 8)
  /-- HOB_UP_CHECK (R610): 20 µs after its last stage a hob is judged up, or its switches open and it goes dark. -/
  | hobUpCheck (hob : Fin 16) (mv base : BitVec 16) (slices : BitVec 24) (rows : List (Nat × Nat)) (lines : List (Nat × Bool × Nat × Nat))
  /-- MICROCODE_PACKET (R616): A receiver accepts a microcode packet, writes and reads it back, or switches to a spare row. -/
  | microcodePacket (packet : List (BitVec 8)) (recv : List (Fin 1750)) (lost misread : List Nat)
  /-- CHANNEL_TRAINED (R621): A GDDR7 channel passes a training attempt, trains narrow, or is fenced. -/
  | channelTrained (chan : Fin 144) (peer : BitVec 64) (speed density : Fin 4) (verified : Bool) (passes : List Bool) (settings : List (BitVec 8))
  /-- READY (R630): Bring-up reaches ready: READY is set, the record formed, pages locked, and the stoke unit starts in IDLE. -/
  | ready (totalMs trainMs : BitVec 16)
  /-- TELEMETRY_POLL (R642): Every millisecond Tender reads power-module telemetry, and counts PMBus or AVSBus failures. -/
  | telemetryPoll (ok : Bool) (pages : List PmPage) (pin : BitVec 16)
  /-- PWR_WARN_RELEASE (R663): PWR_WARN_N high for 1 µs ends the assertion and returns the warn floor to damper 0. -/
  | pwrWarnRelease (us : BitVec 32)
  /-- DROOP_WARN (R657): A hob falls more than DROOP_WARN mV below target and the core clock is stretched. -/
  | droopWarn (hob : Fin 16) (mv : BitVec 16) (cyc : BitVec 32)
  /-- DROOP_RECOVER (R657): The hob voltage recovers and clock stretching ends. -/
  | droopRecover (hob : Fin 16) (cycles : BitVec 32)
  /-- DROOP_TRIP (R658): A hob falls more than DROOP_TRIP mV below target; the fault summary bit is set and Tender quenches. -/
  | droopTrip (hob : Fin 16) (mv : BitVec 16) (cyc : BitVec 32)
  /-- SLICE_FAIL (R649): A regulator slice fails and is switched out, derating or darkening the hob by the failed count. -/
  | sliceFail (hob : Fin 16) (slice : Fin 24)
  /-- HOB_WAKE_KINDLE (R654): A requested wake kindles the hob at the first kindling slot, or forced in 16 half stages on the 9th stoke. -/
  | hobWakeKindle (hob : Fin 16)
  /-- HOB_WAKE_UP (R655): A hob kindled in service is judged up and its tiles take work, or it goes dark. -/
  | hobWakeUp (hob : Fin 16) (mv base : BitVec 16) (slices : BitVec 24)
  /-- MONITOR_SAMPLE (R669): Every 100 µs the thermal monitors are sampled, judged broken or not, and checked against thresholds and the bracket. -/
  | monitorSample (l : List (Fin 3 × Fin 160 × BitVec 16 × Bool))
  /-- DIODE_SAMPLE (R669): Every millisecond each die's diode is sampled and judged broken or not. -/
  | diodeSample (l : List (Fin 3 × BitVec 16 × Bool))
  /-- DIODE_TRIP (R675): A diode comparator finds its die at TRIP and asserts THERMTRIP_N within 10 µs. -/
  | diodeTrip (die : Fin 3) (reading : BitVec 16)
  /-- PLAUS_EVAL (R680): Every 10 ms the leakage and correction plausibility checks are evaluated. -/
  | plausEval (tleak : BitVec 16)
  /-- GET_CERTS (R696): The GET_CERTS request returns the DIK and AK certificates. -/
  | getCerts (tag : BitVec 16)
  /-- GET_REPORT (R695): The GET_REPORT request returns a signed 568-byte attestation report for a nonce. -/
  | getReport (tag : BitVec 16) (nonce : List (BitVec 8))
  /-- GET_LOG (R696): The GET_LOG request returns attestation log bytes from an offset. -/
  | getLog (tag : BitVec 16) (off : BitVec 32)
  /-- FW_WRITE (R698): The FW_WRITE request writes data into the non-booted slot of its kind. -/
  | fwWrite (tag : BitVec 16) (kind : BitVec 8) (off : BitVec 32) (data : List (BitVec 8))
  /-- FW_COMMIT (R698): The FW_COMMIT request verifies the written slot and keeps or erases it. -/
  | fwCommit (tag : BitVec 16) (kind : BitVec 8)
  /-- LC_NONCE (R700): The LC_NONCE request returns a 32-byte TRNG nonce and makes it outstanding. -/
  | lcNonce (tag : BitVec 16) (random : BitVec 256)
  /-- LC_TOKEN (R701): The LC_TOKEN request checks a life-cycle token, sanitizes slot 0, blows PEND and resets. -/
  | lcToken (tag : BitVec 16) (bytes : List (BitVec 8)) (f : Findings)
  /-- I3C_ADDRESS_ASSIGN (R737): SETDASA or ENTDAA gives the CX-4 its I3C dynamic address. -/
  | i3cAddressAssign (static : Option (BitVec 7)) (addr : BitVec 7)
  /-- EVENT_READ (R739): The I3C EVENT_READ frame returns and removes the oldest event record. -/
  | eventRead (payload : List (BitVec 8)) (crc : BitVec 32)
  /-- LEGACY_READ (R739): The I3C LEGACY_READ frame returns a legacy-page value. -/
  | legacyRead (payload : List (BitVec 8)) (crc : BitVec 32)
  /-- REC_BEGIN (R741): The REC_BEGIN frame chooses and zeroes a recovery buffer after a march test. -/
  | recBegin (payload : List (BitVec 8)) (crc : BitVec 32) (passing : List (Fin 8))
  /-- REC_DATA (R741): The REC_DATA frame appends image data at a contiguous offset. -/
  | recData (payload : List (BitVec 8)) (crc : BitVec 32)
  /-- REC_COMMIT (R741): The REC_COMMIT frame verifies the recovery image and writes it to FWA. -/
  | recCommit (payload : List (BitVec 8)) (crc : BitVec 32)
  /-- TAP_SAMPLE_PRELOAD (R719): The TAP SAMPLE/PRELOAD instruction samples or preloads the boundary register while RESET_N is low. -/
  | tapSamplePreload (pins preload : List Bool)
  /-- CXP_FLIT_RECEIVE (R492): A flit arrives on CXP0 or CXP1; GW80 checks are formed, its CRC is verified after FEC, and a bad flit is held poisoned and replayed, or delivered poisoned when no replay succeeds. -/
  | cxpFlitReceive (port : Fin 2) (good last : Bool) (words : Nat)
  /-- REFX2_CHANGE (R401): A GDDR7 device changes between the normal and the doubled refresh rate, so GDC_STATE.REFX2 and INT_RAW.REFX2 change and the spare refresh cells are used or freed. -/
  | refx2Change (chan : Fin 144) (doubled : Bool)
  /-- INGEST_DESCRIPTOR_DONE (R588): The host data read for an ingest descriptor has all arrived and been written through the home partitions, and its completion sets the named event flag. -/
  | ingestDescriptorDone (q : Fin 2) (slot : Nat) (data : List (BitVec 64)) (bad : List Nat)
  /-- SYNC_WIN_EXPIRY (R23): No edge has come SYNC_WIN cy after the count reached the period, so the follower starts the stoke on its own count and increments STK_SYNC_MISS. -/
  | syncWinExpiry
  /-- SYNC_LOSS (R25): LOSS_N consecutive stokes pass without a counted edge, so STK_STATE.SYNC_LOST and INT_RAW.SYNC_LOST are set. -/
  | syncLoss
  /-- WORK_DEADLINE (R26): At cycle B every tile checks its work list, tiles with unissued launches or resident groups enter overrun, and planned DMA stops issuing. -/
  | workDeadline
  /-- BOUNDARY_WRITEBACK (R26): From B+64 every L1 writes back its dirty lines and invalidates all lines, and every scratchpad is cleared to zero. -/
  | boundaryWriteback
  /-- COMMIT_POINT (R26): At B+1,088 every write of the stoke is committed and the channel and partition write hashes are frozen. -/
  | commitPoint
  /-- DIGEST_FOLD (R544): In B+1,089 to B+1,119 the 304 hashes are folded into the 256-bit stoke digest. -/
  | digestFold
  /-- DIGEST_COMPARE (R546): At B+1,100 each module compares every DIGEST received with its own non-void record of the same work stoke and updates KNK_CONF. -/
  | digestCompare
  /-- REPLAY_DECISION (R36): At B+1,120 the stoke unit takes its next state from the stoke's failure sources, partner notices and pending commands. -/
  | replayDecision
  /-- LATCH_POINT (R45): At B+1,152 shadow fields, shape changes and a qualifying staged plan take effect together, and each page writes LATCH_STK. -/
  | latchPoint
  /-- DIGEST_SEND (R545): From B+1,153 the digest record goes to the partner on Kenka and, with the 304 hashes, into the mirror journal. -/
  | digestSend
  /-- TABLE_SWITCH (R26): From B+1,216 routers, partitions and channel controllers switch to the next stoke's tables, and a checkpoint stoke freezes its dirty maps. -/
  | tableSwitch
  /-- MIRROR_REPLAY_CUTOFF (R26): At B+1,536 the next work stoke number is fixed, the ingest and egress sets are fixed, and a STOP or withdrawal takes the stoke unit to IDLE. -/
  | mirrorReplayCutoff
  /-- WORK_LIST_PREFETCH (R26): From B+1,537 tile control cores fetch the first work-list entries of the next stoke. -/
  | workListPrefetch
  /-- STK_START (R51): A write of START to STK_CMD starts the staged plan at the next boundary, or is refused with code 0x3A when no plan is staged. -/
  | stkStart
  /-- STK_STOP (R758): A write of STOP to STK_CMD takes the stoke unit to IDLE at the next boundary, ahead of every other row of the state table. -/
  | stkStop
  /-- STK_RESUME (R36): A write of RESUME to STK_CMD leaves HELD at the next boundary, latching a staged plan first and taking STK_RESUME as the work stoke. -/
  | stkResume
  /-- NEAR_WIPE_DONE (R411): The near-memory wipe after a channel fence completes and waiting near-memory accesses proceed. -/
  | nearWipeDone
  /-- LANE_COUNT_DECAY (R378): Every DECAY stokes each lane count above 0 decreases by one. -/
  | laneCountDecay
  /-- PLAN_LOAD (R470): The PLAN_LOAD command starts reading and checking a plan image, or is refused before any byte is read. -/
  | planLoad
  /-- PLAN_WITHDRAW (R476): The PLAN_WITHDRAW command discards the loading or staged plan with code 0x39. -/
  | planWithdraw
  /-- PLAN_QUERY (R583): The PLAN_QUERY command returns the status word of the staged or active plan. -/
  | planQuery
  /-- STOKE (R583): The STOKE command acts as a write to STK_CMD, optionally writing STK_RESUME first. -/
  | stoke
  /-- RECORD (R583): The RECORD command writes the 160-byte determinism record to host memory. -/
  | record
  /-- SCRUB (R504): The SCRUB command queues a scrub of a range or of bank classes, or refuses it. -/
  | scrub
  /-- TREC_DISCARD (R629): A write of TREC_DISCARD to TND_CMD invalidates both training-record copies for the next bring-up. -/
  | trecDiscard
  /-- SMK_FLUSH (R714): A write of FLUSH to SMK_CMD copies the hearth trace region to the host ring, or is ignored. -/
  | smkFlush
  /-- SMK_GROUP_DELIVER (R711): A formed trace group is written to the host ring or the hearth trace region in TC4, or dropped. -/
  | smkGroupDeliver
  /-- THM_TRIP_CLEAR (R677): A write of 1 to THM_TRIP.VALID clears the trip registers and erases the trip record in flash. -/
  | thmTripClear
  /-- KENKA_RETRAIN_DONE (R535): A Kenka retrain completes within 50 µs and go-back-N resumes from the last ACK. -/
  | kenkaRetrainDone
  /-- KENKA_LINK_LOSS (R535): The link has been down for LINK_LOSS µs and is lost, discarding its go-back-N state. -/
  | kenkaLinkLoss
  /-- KNK_RETRAIN (R566): A write of RETRAIN to KNK_CMD retrains the Kenka link. -/
  | knkRetrain
  /-- KNK_HANDOFF (R557): A write of HANDOFF to KNK_CMD sends HANDOFF, makes the module BANKED and enters SPENT. -/
  | knkHandoff
  /-- KNK_KEEP (R556): A write of KEEP to KNK_CMD after a repeat makes the module LIT and SOLO, its partner SPENT. -/
  | knkKeep
  /-- INVALID_MESSAGE (R537): A message with an MTYPE that is not valid is discarded and PROTO is set. -/
  | invalidMessage
  /-- HB_TRANSMIT (R538): Every heartbeat period the module drives a coded pulse on PAIR_HB_TX and sends a HEARTBEAT message. -/
  | hbTransmit
  /-- DUAL_LIT_DETECT (R557): The partner has coded LIT while the own coded role is LIT for 2 periods, and position B gives way. -/
  | dualLitDetect
  /-- RESYNC_HOLD_EXPIRY (R557): RESYNC_HOLD ms expire with the link down, ending a paused resync or waiting SPLIT. -/
  | resyncHoldExpiry
  /-- POWER_GOOD_FALL (R601): PWR_GOOD falls and the module resets. -/
  | powerGoodFall
  /-- RESET_N_ASSERT (R601): RESET_N low for 100 ns resets the whole module. -/
  | resetNAssert
  /-- PERST0_N_ASSERT (R601): PERST0_N low for 100 ns resets the whole module. -/
  | perst0NAssert
  /-- STEP_LIMIT_EXPIRY (R606): A bring-up step passes its limit, failing the bring-up or fencing what is unfinished. -/
  | stepLimitExpiry
  /-- MICROCODE_ROUND (R617): A broadcast or repeat round of microcode packets is sent and followed by a poll. -/
  | microcodeRound
  /-- TRAINING_RECORD_SAVE (R629): After a bring-up with cold training Tender writes a new training record to the older copy. -/
  | trainingRecordSave
  /-- POWER_CAP_EVAL (R662): Every WIN ms the average input power moves the cap floor by at most one step. -/
  | powerCapEval
  /-- DAMPER_CHANGE (R647): The damper step in effect changes, with voltages and clock changed in the defined order. -/
  | damperChange
  /-- PWR_WARN_ASSERT (R663): PWR_WARN_N low for 1 µs raises the warn floor and sets WARN. -/
  | pwrWarnAssert
  /-- RIDE_EXPIRY (R664): An assertion lasts RIDE × 100 µs, so Tender quenches to HELD, hands off and records minimum voltages. -/
  | rideExpiry
  /-- THERMAL_STEP_TIMER (R673): STEP_MS ms pass and the thermal step rises or falls by one. -/
  | thermalStepTimer
  /-- THERMTRIP_ASSERT (R675): 20 µs after a monitor or leakage trip quench, THERMTRIP_N is asserted and a trip record written. -/
  | thermtripAssert
  /-- TRNG_HEALTH_FAIL (R694): The TRNG fails a health test and stays off until reset. -/
  | trngHealthFail
  /-- CDAT_READ (R574): A Table Access request on DOE mailbox 0 returns the CDAT. -/
  | cdatRead
  /-- TAP_BYPASS (R718): The TAP BYPASS instruction selects the bypass register. -/
  | tapBypass
  /-- TAP_IDCODE (R720): The TAP IDCODE instruction shifts out the IDCODE value. -/
  | tapIdcode
  /-- TAP_EXTEST (R719): The TAP EXTEST instruction drives the boundary pins while RESET_N is low. -/
  | tapExtest
  /-- TAP_CLAMP (R719): The TAP CLAMP instruction holds boundary outputs while RESET_N is low. -/
  | tapClamp
  /-- TAP_HIGHZ (R719): The TAP HIGHZ instruction floats boundary outputs while RESET_N is low. -/
  | tapHighz
  /-- HOB_TARGET_REACHED (R647): On a step to a faster damper, the hob regulators reach their new targets, and the core clock then changes at a single cycle. -/
  | hobTargetReached
  deriving DecidableEq, Repr

end Sys2Proof
end

