-- ==== Sys2Proof/Decode.lean ====
section
/-! DEFINITION. Decoding of words. The opcode table of this hardware gives no row any bits: its rows are commands and
events, not words of memory. Yalzu instruction words (spec/04 R137 to R140) reach the model inside the commands of their
rows, whose meanings read the fields from the word. -/
namespace Sys2Proof

/-- The command that a word spells by the table's bits: none, since no row has bits. -/
def decodeTableWord (_nbits _w : Nat) : Option Instr := none

end Sys2Proof
end

