-- ==== Sys2Proof/Machine/Bits.lean ====
section
/-! DEFINITION. Bit fields, byte order and small arithmetic helpers (spec/00, Notation and units:
bit 0 is the least significant bit, a field is written [msb:lsb]; words are little-endian). -/
namespace Sys2Proof

/-- Bits [lo+n-1:lo] of a number. -/
def bitsAt (x lo n : Nat) : Nat := x / 2 ^ lo % 2 ^ n

/-- Bit b of a number. -/
def bitAt (x b : Nat) : Bool := x / 2 ^ b % 2 = 1

/-- A number with bit b made 1. -/
def withBit (x b : Nat) : Nat := if bitAt x b then x else x + 2 ^ b

/-- A number with bit b made 0. -/
def withoutBit (x b : Nat) : Nat := if bitAt x b then x - 2 ^ b else x

/-- A number with bits [lo+n-1:lo] replaced by v. -/
def withBits (x lo n v : Nat) : Nat :=
  x - bitsAt x lo n * 2 ^ lo + v % 2 ^ n * 2 ^ lo

/-- 1 for true, 0 for false. -/
def b2n (b : Bool) : Nat := if b then 1 else 0

/-- The two's complement value of the low w bits of x. -/
def toSigned (w x : Nat) : Int :=
  let y := x % 2 ^ w
  if 2 * y < 2 ^ w then (y : Int) else (y : Int) - (2 ^ w : Nat)

/-- The low w bits of an integer. -/
def ofInt (w : Nat) (i : Int) : Nat := (i % ((2 ^ w : Nat) : Int)).toNat

/-- A saturating sum with a largest value. -/
def satAdd (mx x n : Nat) : Nat := min mx (x + n)

/-- Little-endian value of a list of bytes. -/
def leNat : List Byte → Nat
  | [] => 0
  | b :: bs => b.toNat + 256 * leNat bs

/-- The n bytes of a number, little-endian. -/
def leBytes : Nat → Nat → List Byte
  | 0, _ => []
  | n + 1, x => BitVec.ofNat 8 x :: leBytes n (x / 256)

/-- The numbers b < n whose bit is 1. -/
def bitList (n x : Nat) : List Nat := (List.range n).filter (fun b => bitAt x b)

/-- The count of 1 bits among the low n bits. -/
def popCount (n x : Nat) : Nat := (bitList n x).length

/-- A number whose 1 bits are the listed ones. -/
def maskOf (l : List Nat) : Nat := l.foldl withBit 0

/-- The position of the highest 1 bit plus 1; 0 for 0. -/
def bitLength (x : Nat) : Nat := if x = 0 then 0 else x.log2 + 1

/-- The rounded-up quotient. -/
def ceilDiv (a b : Nat) : Nat := (a + b - 1) / b

/-- A number that is a power of two. -/
def isPow2 (x : Nat) : Bool := x ≠ 0 && x = 2 ^ x.log2

end Sys2Proof
end

