-- ==== Sys2Proof/Machine/Fp.lean ====
section
/-! DEFINITION. Number formats, rounding and the exact arithmetic behind every rounded result
(spec/06 R218 to R228, R744, R745; spec/02 of the flag word R229). A finite value is a sign, a Nat
magnitude and a power of two; every operation is computed exactly and narrowed once. -/
namespace Sys2Proof

/-- How a format uses its all-ones exponent (spec/06 R218). -/
inductive Specials where
  | ieee      -- infinities and NaNs as IEEE 754
  | e4m3      -- one NaN encoding per sign, no infinity
  | finite    -- every code is finite
  deriving DecidableEq, Repr

/-- A binary floating-point format: exponent bits, fraction bits, bias and special codes. -/
structure FpFmt where
  ebits : Nat
  fbits : Nat
  bias : Nat
  spec : Specials
  deriving DecidableEq, Repr

namespace Fp

def f64 : FpFmt := ⟨11, 52, 1023, .ieee⟩
def f32 : FpFmt := ⟨8, 23, 127, .ieee⟩
def f16 : FpFmt := ⟨5, 10, 15, .ieee⟩
def bf16 : FpFmt := ⟨8, 7, 127, .ieee⟩
def e4m3 : FpFmt := ⟨4, 3, 7, .e4m3⟩
def e5m2 : FpFmt := ⟨5, 2, 15, .ieee⟩
def e3m2 : FpFmt := ⟨3, 2, 3, .finite⟩
def e2m3 : FpFmt := ⟨2, 3, 1, .finite⟩
def e2m1 : FpFmt := ⟨2, 1, 1, .finite⟩

/-- The width of a format in bits. -/
def width (f : FpFmt) : Nat := 1 + f.ebits + f.fbits

/-! Bits of the sticky flag word (spec/06 R229). -/
def flInexact : Nat := 1
def flUnderflow : Nat := 2
def flOverflow : Nat := 4
def flDivzero : Nat := 8
def flInvalid : Nat := 16
def flSat : Nat := 32
def flAlign : Nat := 64
def flEmpty : Nat := 256
def flPermOob : Nat := 512

/-- A decoded operand: a NaN (signalling or not), an infinity, or (−1)^neg × mag × 2^exp. -/
inductive FVal where
  | nan (signalling : Bool)
  | inf (neg : Bool)
  | num (neg : Bool) (mag : Nat) (exp : Int)
  deriving DecidableEq, Repr

/-- The value a code stands for (spec/06 R218, R224). -/
def decode (f : FpFmt) (x : Nat) : FVal :=
  let frac := bitsAt x 0 f.fbits
  let ex := bitsAt x f.fbits f.ebits
  let neg := bitAt x (f.ebits + f.fbits)
  let emin : Int := 1 - (f.bias : Int) - f.fbits
  let finiteVal : FVal :=
    if ex = 0 then .num neg frac emin
    else .num neg (frac + 2 ^ f.fbits) (emin + ex - 1)
  match f.spec with
  | .finite => finiteVal
  | .e4m3 => if ex = 2 ^ f.ebits - 1 ∧ frac = 2 ^ f.fbits - 1 then .nan false else finiteVal
  | .ieee =>
    if ex = 2 ^ f.ebits - 1 then
      if frac = 0 then .inf neg
      else .nan (decide (10 < width f) && !bitAt frac (f.fbits - 1))
    else finiteVal

/-- The canonical NaN of a format (spec/06 R222). -/
def canonNan (f : FpFmt) : Nat :=
  match f.spec with
  | .e4m3 => 2 ^ (f.ebits + f.fbits) - 1
  | _ => (2 ^ f.ebits - 1) * 2 ^ f.fbits + 2 ^ (f.fbits - 1)

/-- The code of ±∞ in a format that has it. -/
def infCode (f : FpFmt) (neg : Bool) : Nat :=
  b2n neg * 2 ^ (f.ebits + f.fbits) + (2 ^ f.ebits - 1) * 2 ^ f.fbits

/-- The code of the largest finite value with a sign. -/
def maxCode (f : FpFmt) (neg : Bool) : Nat :=
  b2n neg * 2 ^ (f.ebits + f.fbits) +
    match f.spec with
    | .ieee => (2 ^ f.ebits - 1) * 2 ^ f.fbits - 1
    | .e4m3 => 2 ^ (f.ebits + f.fbits) - 2
    | .finite => 2 ^ (f.ebits + f.fbits) - 1

/-- Rounding up of a magnitude with remainder `rem` of `2 ^ sh`, quotient `q`, by RND (spec/04 R138). -/
def roundsUp (rnd : Nat) (neg : Bool) (q rem sh : Nat) : Bool :=
  if rem = 0 then false
  else match rnd with
    | 0 => if 2 * rem = 2 ^ sh then q % 2 = 1 else decide (2 ^ sh < 2 * rem)
    | 1 => false
    | 2 => !neg
    | _ => neg

/-- A magnitude m × 2^e rounded to a multiple of 2^q: the multiple, and whether it is inexact. -/
def roundTo (rnd : Nat) (neg : Bool) (m : Nat) (e q : Int) : Nat × Bool :=
  if q ≤ e then (m * 2 ^ (e - q).toNat, false)
  else
    let sh := (q - e).toNat
    let quo := m / 2 ^ sh
    let rem := m % 2 ^ sh
    (quo + b2n (roundsUp rnd neg quo rem sh), decide (rem ≠ 0))

/-- The result of an overflow (spec/06 R227). -/
def overflowResult (f : FpFmt) (rnd : Nat) (sat neg : Bool) : Nat × Nat :=
  if sat then (maxCode f neg, flSat + flInexact)
  else match f.spec with
    | .e4m3 => (canonNan f, flOverflow + flInexact)
    | _ =>
      let toMax := match rnd with
        | 0 => false
        | 1 => true
        | 2 => neg
        | _ => !neg
      (if toMax then maxCode f neg else infCode f neg, flOverflow + flInexact)

/-- Narrow the exact value (−1)^neg × m × 2^e to a format: its code and flags (spec/06 R221, R227). -/
def narrow (f : FpFmt) (rnd : Nat) (sat neg : Bool) (m : Nat) (e : Int) : Nat × Nat :=
  let signBit := b2n neg * 2 ^ (f.ebits + f.fbits)
  if m = 0 then (signBit, 0)
  else
    let top : Int := (bitLength m : Int) - 1 + e
    let emin : Int := 1 - (f.bias : Int)
    let q : Int := max (top - f.fbits) (emin - f.fbits)
    let r := roundTo rnd neg m e q
    let big := decide (2 ^ (f.fbits + 1) ≤ r.1)
    let mant := if big then r.1 / 2 else r.1
    let q' : Int := if big then q + 1 else q
    let exField : Nat := if mant < 2 ^ f.fbits then 0 else (q' + f.fbits + f.bias).toNat
    let isOver : Bool := match f.spec with
      | .ieee => decide (2 ^ f.ebits - 1 ≤ exField)
      | .e4m3 => decide (2 ^ f.ebits ≤ exField) ||
          (decide (exField = 2 ^ f.ebits - 1) && decide (mant = 2 ^ (f.fbits + 1) - 1))
      | .finite => decide (2 ^ f.ebits ≤ exField)
    if isOver then overflowResult f rnd sat neg
    else
      let code := signBit +
        (if exField = 0 then mant else exField * 2 ^ f.fbits + (mant - 2 ^ f.fbits))
      let unb := roundTo rnd neg m e (top - f.fbits)
      let tiny := decide (top < emin) &&
        !(decide (top = emin - 1) && decide (unb.1 = 2 ^ (f.fbits + 1)))
      (code, b2n r.2 * flInexact + b2n (tiny && r.2) * flUnderflow)

/-- A signed exact value as an integer at a power of two. -/
def signed (neg : Bool) (m : Nat) : Int := if neg then -(m : Int) else m

/-- Narrow an exact integer multiple of 2^e; `zneg` is the sign of an exact zero. -/
def narrowInt (f : FpFmt) (rnd : Nat) (sat zneg : Bool) (v e : Int) : Nat × Nat :=
  if v = 0 then narrow f rnd sat zneg 0 e
  else narrow f rnd sat (decide (v < 0)) v.natAbs e

/-- The NaN result of an operation with flags. -/
def nanResult (f : FpFmt) (fl : Nat) : Nat × Nat := (canonNan f, fl)

/-- Does an operand signal? -/
def isSig : FVal → Bool
  | .nan s => s
  | _ => false

def isNan : FVal → Bool
  | .nan _ => true
  | _ => false

/-- INVALID when an operand signals (spec/06 R224). -/
def sigFlag (l : List FVal) : Nat := if l.any isSig then flInvalid else 0

/-- An infinite result under R227. -/
def infResult (f : FpFmt) (sat neg : Bool) : Nat × Nat :=
  match f.spec with
  | .ieee => if sat then (maxCode f neg, flSat) else (infCode f neg, 0)
  | _ => if sat then (maxCode f neg, flSat) else (canonNan f, flInvalid)

/-- The exact sum of two finite values: integer, exponent and sign of a zero (IEEE 754). -/
def addExact (rnd : Nat) (n1 : Bool) (m1 : Nat) (e1 : Int) (n2 : Bool) (m2 : Nat) (e2 : Int) :
    Int × Int × Bool :=
  let e := min e1 e2
  let v := signed n1 (m1 * 2 ^ (e1 - e).toNat) + signed n2 (m2 * 2 ^ (e2 - e).toNat)
  (v, e, if n1 = n2 then n1 else rnd = 3)

/-- The sum of decoded values, narrowed to a format. -/
def addVal (f : FpFmt) (rnd : Nat) (sat : Bool) (a b : FVal) : Nat × Nat :=
  match a, b with
  | .nan _, _ => nanResult f (sigFlag [a, b])
  | _, .nan _ => nanResult f (sigFlag [a, b])
  | .inf n1, .inf n2 => if n1 = n2 then infResult f sat n1 else nanResult f flInvalid
  | .inf n1, _ => infResult f sat n1
  | _, .inf n2 => infResult f sat n2
  | .num n1 m1 e1, .num n2 m2 e2 =>
    let r := addExact rnd n1 m1 e1 n2 m2 e2
    narrowInt f rnd sat r.2.2 r.1 r.2.1

/-- The negation of a decoded value. -/
def negVal : FVal → FVal
  | .nan s => .nan s
  | .inf n => .inf (!n)
  | .num n m e => .num (!n) m e

/-- The product of decoded values, narrowed to a format. -/
def mulVal (f : FpFmt) (rnd : Nat) (sat : Bool) (a b : FVal) : Nat × Nat :=
  match a, b with
  | .nan _, _ => nanResult f (sigFlag [a, b])
  | _, .nan _ => nanResult f (sigFlag [a, b])
  | .inf n1, .inf n2 => infResult f sat (n1 != n2)
  | .inf n1, .num n2 m2 _ => if m2 = 0 then nanResult f flInvalid else infResult f sat (n1 != n2)
  | .num n1 m1 _, .inf n2 => if m1 = 0 then nanResult f flInvalid else infResult f sat (n1 != n2)
  | .num n1 m1 e1, .num n2 m2 e2 => narrow f rnd sat (n1 != n2) (m1 * m2) (e1 + e2)

/-- The exact product of decoded values: a NaN mark (INVALID for 0 × ∞), an infinity or a number. -/
def prodVal (a b : FVal) : FVal :=
  match a, b with
  | .nan s, .nan t => .nan (s || t)
  | .nan s, _ => .nan s
  | _, .nan t => .nan t
  | .inf n1, .inf n2 => .inf (n1 != n2)
  | .inf n1, .num n2 m2 _ => if m2 = 0 then .nan true else .inf (n1 != n2)
  | .num n1 m1 _, .inf n2 => if m1 = 0 then .nan true else .inf (n1 != n2)
  | .num n1 m1 e1, .num n2 m2 e2 => .num (n1 != n2) (m1 * m2) (e1 + e2)

/-- A × B + C rounded once; 0 × ∞ sets INVALID whatever C is (spec/06 R744). -/
def fmaVal (f : FpFmt) (rnd : Nat) (sat : Bool) (a b c : FVal) : Nat × Nat :=
  addVal f rnd sat (prodVal a b) c

/-- A / B, correctly rounded (spec/06 R228, R229). -/
def divVal (f : FpFmt) (rnd : Nat) (a b : FVal) : Nat × Nat :=
  match a, b with
  | .nan _, _ => nanResult f (sigFlag [a, b])
  | _, .nan _ => nanResult f (sigFlag [a, b])
  | .inf _, .inf _ => nanResult f flInvalid
  | .inf n1, .num n2 _ _ => (infCode f (n1 != n2), 0)
  | .num n1 _ _, .inf n2 => narrow f rnd false (n1 != n2) 0 0
  | .num n1 m1 e1, .num n2 m2 e2 =>
    if m2 = 0 then
      if m1 = 0 then nanResult f flInvalid else (infCode f (n1 != n2), flDivzero)
    else
      let k := bitLength m2 + f.fbits + 4
      let q := m1 * 2 ^ k / m2
      let r := m1 * 2 ^ k % m2
      narrow f rnd false (n1 != n2) (2 * q + b2n (decide (r ≠ 0))) (e1 - e2 - k - 1)

/-- The integer square root of n, by bits from the top. -/
def isqrtAux : Nat → Nat → Nat → Nat
  | 0, _, r => r
  | k + 1, n, r =>
    let c := r + 2 ^ k
    isqrtAux k n (if c * c ≤ n then c else r)

def isqrt (n : Nat) : Nat := isqrtAux (bitLength n / 2 + 1) n 0

/-- √A, correctly rounded (spec/06 R228). -/
def sqrtVal (f : FpFmt) (rnd : Nat) (a : FVal) : Nat × Nat :=
  match a with
  | .nan _ => nanResult f (sigFlag [a])
  | .inf n => if n then nanResult f flInvalid else (infCode f false, 0)
  | .num n m e =>
    if m = 0 then narrow f rnd false n 0 0
    else if n then nanResult f flInvalid
    else
      let k := 2 * (f.fbits + 4) + (e % 2).toNat
      let x := m * 2 ^ k
      let r := isqrt x
      narrow f rnd false false (2 * r + b2n (decide (r * r ≠ x))) ((e - k) / 2 - 1)

/-- The order of two decoded values that are not NaNs. -/
def cmpVal (a b : FVal) : Ordering :=
  match a, b with
  | .inf n1, .inf n2 => if n1 = n2 then .eq else if n1 then .lt else .gt
  | .inf n1, _ => if n1 then .lt else .gt
  | _, .inf n2 => if n2 then .gt else .lt
  | .num n1 m1 e1, .num n2 m2 e2 =>
    let e := min e1 e2
    compare (signed n1 (m1 * 2 ^ (e1 - e).toNat)) (signed n2 (m2 * 2 ^ (e2 - e).toNat))
  | _, _ => .eq

/-- The sign of a code. -/
def signOf (f : FpFmt) (x : Nat) : Bool := bitAt x (f.ebits + f.fbits)

/-- IEEE minimum (`mx` false) or maximum of two codes, −0 below +0 (spec/06 R225). -/
def minMax (f : FpFmt) (mx : Bool) (x y : Nat) : Nat × Nat :=
  let a := decode f x
  let b := decode f y
  if isNan a || isNan b then nanResult f (sigFlag [a, b])
  else
    let less : Bool := match cmpVal a b with
      | .lt => true
      | .gt => false
      | .eq => signOf f x && !signOf f y
    (if less != mx then x else y, 0)

/-- CMP by MOD (spec/04 R150, spec/06 R226): the predicate and the flags. -/
def cmpCode (f : FpFmt) (cc x y : Nat) : Bool × Nat :=
  let a := decode f x
  let b := decode f y
  if isNan a || isNan b then
    let fl := if cc = 2 ∨ cc = 3 ∨ cc = 4 ∨ cc = 5 then flInvalid else sigFlag [a, b]
    (decide (cc = 1 ∨ cc = 7), fl)
  else
    let o := cmpVal a b
    let r : Bool := match cc with
      | 0 => o == .eq
      | 1 => o != .eq
      | 2 => o == .lt
      | 3 => o != .gt
      | 4 => o == .gt
      | 5 => o != .lt
      | 6 => true
      | _ => false
    (r, 0)

/-- Convert a decoded value to a format (spec/06 R227). -/
def cvtVal (f : FpFmt) (rnd : Nat) (sat : Bool) (a : FVal) : Nat × Nat :=
  match a with
  | .nan _ => nanResult f (sigFlag [a])
  | .inf n => infResult f sat n
  | .num n m e => narrow f rnd sat n m e

/-- Smallest and largest value of an integer type. -/
def intMin (w : Nat) (sg : Bool) : Int := if sg then -((2 ^ (w - 1) : Nat) : Int) else 0
def intMax (w : Nat) (sg : Bool) : Int :=
  if sg then ((2 ^ (w - 1) : Nat) : Int) - 1 else ((2 ^ w : Nat) : Int) - 1

/-- Convert a decoded value to an integer type (spec/06 R227, R745). -/
def toIntVal (w : Nat) (sg : Bool) (rnd : Nat) (sat : Bool) (a : FVal) : Nat × Nat :=
  match a with
  | .nan _ => (0, if sat then flInvalid + flSat else flInvalid)
  | .inf n =>
    if sat then (ofInt w (if n then intMin w sg else intMax w sg), flInvalid + flSat)
    else (0, flInvalid)
  | .num n m e =>
    let r := roundTo rnd n m e 0
    let v := signed n r.1
    if intMin w sg ≤ v ∧ v ≤ intMax w sg then (ofInt w v, b2n r.2 * flInexact)
    else if sat then (ofInt w (if v < 0 then intMin w sg else intMax w sg), flInvalid + flSat)
    else (ofInt w v, flInvalid)

/-- Convert an integer to a format (spec/06 R745). -/
def ofIntVal (f : FpFmt) (rnd : Nat) (sat : Bool) (v : Int) : Nat × Nat :=
  narrowInt f rnd sat false v 0

/-- Wrap or saturate an exact integer to a type (spec/04 R146). -/
def wrapInt (w : Nat) (sg sat : Bool) (v : Int) : Nat × Nat :=
  if sat then
    if v < intMin w sg then (ofInt w (intMin w sg), flSat)
    else if intMax w sg < v then (ofInt w (intMax w sg), flSat)
    else (ofInt w v, 0)
  else (ofInt w v, 0)

end Fp

end Sys2Proof
end

