-- ==== Sys2Proof/Config.lean ====
section
/-! DEFINITION. What the spec leaves open: free values, each an opaque constant that nothing in Lean can
evaluate, and contents, secrets and functions that the spec names without giving them. -/
namespace Sys2Proof.Config

/-- The n-th value drawn where the spec gives an effect but no value (notes/assumptions/2.md). -/
opaque freeValue : Nat → Nat

/-- Contents that a failed stoke leaves undefined, by serial number and address (spec/01 R40, R758; notes/assumptions/61.md). -/
opaque lostByte : Nat → Nat → BitVec 8

/-- VEC.FN on an operand without a special result: function code and operand to result bits
(spec/06 R228: within 1 ulp, by one fixed algorithm the spec does not give). -/
opaque vecFn : Nat → BitVec 32 → BitVec 32

/-- Flags of VEC.FN on such an operand; only INEXACT, UNDERFLOW and OVERFLOW of it are used. -/
opaque vecFnFlags : Nat → BitVec 32 → Nat

/-- The bytes of a flash slot of a shipped module (0 FWA, 1 FWB, 2 UCA, 3 UCB), and its DIK certificate. -/
opaque shippedImage : Nat → List (BitVec 8)
opaque dikCert : List (BitVec 8)

/-- The key-slot hashes in OTP of a shipped module, by slot, and its device secret (spec/21 R686, R692). -/
opaque keySlot : Nat → List (BitVec 8)
opaque deviceSecret : BitVec 256

/-- The part of an AK certificate that is signed, over the alias public key, M0, M1 and a life-cycle state: the spec names what it
carries and gives neither its other fields nor the OID (spec/21 R693; notes/assumptions/71.md). -/
opaque aliasTbs : List (BitVec 8) → List (BitVec 8) → List (BitVec 8) → Nat → List (BitVec 8)

/-- TALGO, the version of Tender's training procedures, of a firmware build (spec/18 R625). -/
opaque talgo : Nat → Nat

/-- The bytes of a CDAT with one DSMAS entry for a window of a size, and DSLBIS entries of a read latency in ns and a
bandwidth in GB/s in each direction (spec/17 R574). -/
opaque cdat : Nat → Nat → Nat → List (BitVec 8)

/-- Onaten's JEDEC manufacturer code (spec/22 R720). -/
opaque jedec : BitVec 11

end Sys2Proof.Config
end

