-- ==== Sys2Proof/Machine/Fields.lean ====
section
/-! DEFINITION. The register fields of every page of the BAR0 map (and of the BAR2 queue
blocks), one definition per field, taken from the register tables of the spec: place, width, access
code and reset value (spec/01 R50, R51; spec/02 R52, R53, R84, R86; and the register rules of the
other chapters, named beside each group). A field whose reset value the spec leaves to a fuse, a strap,
the flash or the bring-up has the value 0 here, or the one notes/assumptions/6.md names, until a bring-up step writes it. -/
namespace Sys2Proof

/-- Access codes of a register field (spec/00 R12). -/
inductive Acc where
  | ro | rw | rwl | rws | w1c | wo | roc
  deriving DecidableEq, Repr

/-- One register field: the number of its lowest bit within its 4 KiB page (8 × byte offset + bit),
its width, access code and reset value. A 64-bit pair (R58, R59) is one field of width 64. -/
structure Fld where
  bit : Nat
  width : Nat
  acc : Acc
  rst : Nat
  deriving DecidableEq, Repr

/-- The kinds of pages of spec/02 R70 to R72, and the BAR2 queue blocks of spec/17 R580. -/
inductive Kind where
  | dev | stk | int | sec | lcy | tnd | trf | thm | pwr | smk | til | seq | mxa | vec | tlm | hrt | hrtx | gdc | flu | cxp | far | knk | hob | smkc | fq
  deriving DecidableEq, Repr

/-- One page: its kind and instance, numbered as PAGE_ID.INSTANCE (R72); a queue block by its number. -/
structure Page where
  kind : Kind
  inst : Nat
  deriving DecidableEq, Repr

namespace Reg

/-- A field at a byte offset and bit of its register. -/
def fld (off lo width : Nat) (acc : Acc) (rst : Nat) : Fld := ⟨8 * off + lo, width, acc, rst⟩

/-- The register offset a field lies at. -/
def regOff (f : Fld) : Nat := f.bit / 32 * 4

/-- The reset value of INT_ROUTE for a source line (spec/02 R74). -/
def defaultVector (i : Nat) : Nat :=
  if i < 16 then [0, 1, 0, 2, 2, 3, 4, 5, 6, 7, 8, 9, 10, 11, 12, 0].getD i 0
  else if i < 32 then i
  else if i < 48 then 32 + (i - 32) / 2
  else if i < 64 then 40 + (i - 48) / 2
  else 13

/-! Common header (spec/02 R52, R53). -/
def ctrlLock : Fld := fld 0x008 1 1 .rwl 0
def ctrlEnable : Fld := fld 0x008 0 1 .rws 1
def statTaint : Fld := fld 0x00C 5 1 .ro 0
def statDark : Fld := fld 0x00C 4 1 .ro 0
def statFenced : Fld := fld 0x00C 3 1 .ro 0
def statShadowPend : Fld := fld 0x00C 2 1 .ro 0
def intRaw : Fld := fld 0x010 0 32 .w1c 0
def intEn : Fld := fld 0x014 0 32 .rw 0
def errValid : Fld := fld 0x018 31 1 .w1c 0
def errOverflow : Fld := fld 0x018 30 1 .ro 0
def errCode : Fld := fld 0x018 16 8 .ro 0
def errDetail : Fld := fld 0x018 0 16 .ro 0
def errStk : Fld := fld 0x01C 0 32 .ro 0
def errCount : Fld := fld 0x020 0 32 .roc 0
def latchStk : Fld := fld 0x024 0 32 .ro 0

/-! DEV page fields (R84). -/
def devIdPart : Fld := fld 0x040 16 16 .ro 0xc44
def devIdGrade : Fld := fld 0x040 8 8 .ro 0x90
def devIdStepMaj : Fld := fld 0x040 4 4 .ro 2
def devIdStepMin : Fld := fld 0x040 0 4 .ro 1
def devStateShapeOk : Fld := fld 0x044 2 1 .ro 1
def devStatePmode : Fld := fld 0x044 1 1 .ro 0
def devStateReady : Fld := fld 0x044 0 1 .ro 0
def devTilesFencedSvc : Fld := fld 0x048 16 8 .ro 0
def devTilesLive : Fld := fld 0x048 8 8 .ro 0x90
def devTilesGradeTiles : Fld := fld 0x048 0 8 .ro 0x90
def devSerial : Fld := fld 0x04C 0 64 .ro 0
def devBadAddrOffset : Fld := fld 0x054 0 26 .ro 0
def devScratch : Fld := fld 0x058 0 32 .rw 0
/-- DEV_L2P: physical tile of logical tile i (fuse). -/
def devL2pPhys (i : Nat) : Fld := ⟨8 * (0x100 + i), 8, .ro, 0xFF⟩

/-! STK page fields (R50, R51). -/
def stkCtrlReplayMax : Fld := fld 0x040 8 2 .rw 2
def stkCtrlPairReplay : Fld := fld 0x040 5 1 .rw 0
def stkCtrlSyncOutEn : Fld := fld 0x040 4 1 .rw 0
def stkCtrlSyncMode : Fld := fld 0x040 2 2 .rws 0
def stkCtrlQuenchAct : Fld := fld 0x040 1 1 .rw 0
def stkCtrlReplayEn : Fld := fld 0x040 0 1 .rw 1
def stkCmdResume : Fld := fld 0x044 3 1 .wo 0
def stkCmdQuench : Fld := fld 0x044 2 1 .wo 0
def stkCmdStop : Fld := fld 0x044 1 1 .wo 0
def stkCmdStart : Fld := fld 0x044 0 1 .wo 0
def stkPeriod : Fld := fld 0x048 0 32 .rws 0xe57e0
def stkSyncCfgLossN : Fld := fld 0x04C 16 4 .rw 4
def stkSyncCfgSyncWin : Fld := fld 0x04C 0 16 .rw 0x400
def stkStateInBoundary : Fld := fld 0x050 11 1 .ro 0
def stkStatePlanStaged : Fld := fld 0x050 10 1 .ro 0
def stkStateReplayCnt : Fld := fld 0x050 8 2 .ro 0
def stkStateSyncLost : Fld := fld 0x050 7 1 .ro 0
def stkStateDampChg : Fld := fld 0x050 6 1 .ro 0
def stkStateDamper : Fld := fld 0x050 4 2 .ro 0
def stkState : Fld := fld 0x050 0 3 .ro 0
def stkNum : Fld := fld 0x054 0 64 .ro 0
def stkWork : Fld := fld 0x05C 0 64 .ro 0
def stkResume : Fld := fld 0x064 0 64 .rw 0
def stkCycle : Fld := fld 0x06C 0 32 .ro 0
def stkLastUs : Fld := fld 0x070 0 32 .ro 0
def stkSyncPhase : Fld := fld 0x074 0 32 .ro 0
def stkSyncMissExtra : Fld := fld 0x078 16 16 .roc 0
def stkSyncMiss : Fld := fld 0x078 0 16 .roc 0
def stkFailNtiles : Fld := fld 0x07C 16 8 .ro 0
def stkFailTile : Fld := fld 0x07C 8 8 .ro 0
def stkFailCause : Fld := fld 0x07C 0 4 .ro 0
def stkFailWork : Fld := fld 0x080 0 64 .ro 0
def stkMargin : Fld := fld 0x088 0 32 .ro 0

/-! INT page fields (R86). -/
def intCtrlEn : Fld := fld 0x040 0 1 .rw 1
def intAckVector : Fld := fld 0x044 0 6 .wo 0
def intArmed : Fld := fld 0x048 0 64 .ro 0xffffffffffffffff
def intFirstValid : Fld := fld 0x050 31 1 .w1c 0
def intFirstSource : Fld := fld 0x050 0 7 .ro 0
def intFirstStk : Fld := fld 0x054 0 32 .ro 0
def intSumFar : Fld := fld 0x0F0 0 8 .ro 0
def intSumHob : Fld := fld 0x0F4 0 16 .ro 0
/-- INT_SRCi. -/
def intSrcSrc (i : Nat) : Fld := ⟨8 * (0x060 + 4 * i), 32, .ro, 0⟩
/-- INT_SUM_TILEi. -/
def intSumTile (i : Nat) : Fld := ⟨8 * (0x070 + 4 * i), 32, .ro, 0⟩
/-- INT_SUM_HPi. -/
def intSumHp (i : Nat) : Fld := ⟨8 * (0x090 + 4 * i), 32, .ro, 0⟩
/-- INT_SUM_GCi. -/
def intSumGc (i : Nat) : Fld := ⟨8 * (0x0B0 + 4 * i), 32, .ro, 0⟩
/-- INT_SUM_FLUi. -/
def intSumFlu (i : Nat) : Fld := ⟨8 * (0x0D0 + 4 * i), 32, .ro, 0⟩
/-- INT_ROUTE: vector of source i; reset per R74. -/
def intRouteVector (i : Nat) : Fld := ⟨8 * (0x100 + i), 6, .rw, defaultVector i⟩

/-! SEC page fields (R703). -/
def secStateFwSlot : Fld := fld 0x040 31 1 .ro 0
def secStateUcSlot : Fld := fld 0x040 30 1 .ro 0
def secStateFwKey : Fld := fld 0x040 28 2 .ro 0
def secStateUcKey : Fld := fld 0x040 26 2 .ro 0
def secStateRevoked : Fld := fld 0x040 22 4 .ro 0
def secStateTrngOk : Fld := fld 0x040 21 1 .ro 1
def secStateIdent : Fld := fld 0x040 20 1 .ro 0
def secLogLost : Fld := fld 0x048 17 15 .ro 0
def secLogLen : Fld := fld 0x048 0 17 .ro 0
def secMselM : Fld := fld 0x04C 0 2 .rw 0
def secUpdState : Fld := fld 0x080 29 3 .ro 0
def secUpdKind : Fld := fld 0x080 28 1 .ro 0
def secUpdStatus : Fld := fld 0x080 20 8 .ro 0
def secSvnFwImg : Fld := fld 0x044 24 8 .ro 0
def secSvnUcImg : Fld := fld 0x044 16 8 .ro 0
def secSvnFwFuse : Fld := fld 0x044 8 8 .ro 0
def secSvnUcFuse : Fld := fld 0x044 0 8 .ro 0
/-- SEC_MDATAi. -/
def secMdataData (i : Nat) : Fld := ⟨8 * (0x050 + 4 * i), 32, .ro, 0⟩

/-! LCY page fields (R704). -/
def lcyState : Fld := fld 0x040 30 2 .ro 0
def lcyStatePending : Fld := fld 0x040 29 1 .ro 0
def lcyStatePendTo : Fld := fld 0x040 27 2 .ro 0
def lcyStateNonceOut : Fld := fld 0x040 26 1 .ro 0
def lcyLastValid : Fld := fld 0x044 31 1 .w1c 0
def lcyLastFrom : Fld := fld 0x044 29 2 .ro 0
def lcyLastTo : Fld := fld 0x044 27 2 .ro 0
def lcyLastSan : Fld := fld 0x044 24 3 .ro 0
def lcyLastStatus : Fld := fld 0x044 16 8 .ro 0
def lcyRefusedCount : Fld := fld 0x048 0 16 .roc 0

/-! TND page fields (R632). -/
def tndCtrlFastNext : Fld := fld 0x040 0 1 .rw 0
def tndCmdTrecDiscard : Fld := fld 0x044 0 1 .wo 0
def tndBootStep : Fld := fld 0x048 28 4 .ro 0
def tndBootFast : Fld := fld 0x048 27 1 .ro 0
def tndBootFail : Fld := fld 0x048 16 8 .ro 0
def tndResetCause : Fld := fld 0x04C 0 7 .ro 0
def tndTimeTrainMs : Fld := fld 0x050 16 16 .ro 0
def tndTimeTotalMs : Fld := fld 0x050 0 16 .ro 0
def tndFwVersion : Fld := fld 0x054 0 32 .ro 0
def tndHobsDark : Fld := fld 0x058 0 16 .ro 0
def tndUcRounds : Fld := fld 0x05C 30 2 .ro 0
def tndUcPackets : Fld := fld 0x05C 16 12 .ro 0
def tndUcFenced : Fld := fld 0x05C 0 11 .ro 0
def tndUcFirstReceiver : Fld := fld 0x060 0 11 .ro 0x7ff
def tndUcSpareCount : Fld := fld 0x064 0 11 .ro 0
def tndTrecState : Fld := fld 0x068 29 3 .ro 0
def tndTrecCopy : Fld := fld 0x068 28 1 .ro 0
def tndTrecChCold : Fld := fld 0x068 16 8 .ro 0
def tndTrecChFast : Fld := fld 0x068 8 8 .ro 0
def tndTrecLinkFast : Fld := fld 0x068 0 3 .ro 0
def tndGddrLive : Fld := fld 0x06C 16 8 .ro 0
def tndGddrFenced : Fld := fld 0x06C 8 8 .ro 0
def tndGddrNarrow : Fld := fld 0x06C 0 8 .ro 0

/-! TRF page fields (R447). -/
def trfCtrlGuard : Fld := fld 0x040 8 8 .rws 0x20
def trfCtrlLateEn : Fld := fld 0x040 0 1 .rws 1
def trfMonWin : Fld := fld 0x04C 16 8 .rws 8
def trfMonTol : Fld := fld 0x04C 0 16 .rws 0x10
def trfBlwStateEff : Fld := fld 0x058 8 2 .ro 0
def trfBlwCritCycles : Fld := fld 0x05C 0 32 .roc 0
def trfLateCount : Fld := fld 0x074 0 32 .roc 0
def trfBgrSelCount : Fld := fld 0x07C 24 5 .ro 0
def trfBgrSelHead : Fld := fld 0x07C 16 4 .ro 0
def trfBgrSelIndex : Fld := fld 0x07C 0 4 .rw 0
/-- TRF_SHARE: weight of TC(i+1). -/
def trfShareW (i : Nat) : Fld := ⟨8 * 0x044 + 8 * i, 6, .rws, ([8, 32, 8, 16].getD i 0)⟩
/-- TRF_GUAR: guarantee of TC(i+1). -/
def trfGuarG (i : Nat) : Fld := ⟨8 * 0x048 + 8 * i, 6, .rws, ([8, 24, 4, 4].getD i 0)⟩
/-- TRF_BLW0: threshold T(t+1) of master 0. -/
def trfBlwT0 (t : Nat) : Fld := ⟨8 * 0x050 + 4 * t, 4, .rw, ([8, 12, 14].getD t 0)⟩
/-- TRF_BLW1: threshold T(t+1) of master 1. -/
def trfBlwT1 (t : Nat) : Fld := ⟨8 * 0x054 + 4 * t, 4, .rw, ([8, 12, 14].getD t 0)⟩
/-- TRF_BLW_STATE.LEVELm. -/
def trfBlwLevel (m : Nat) : Fld := ⟨8 * 0x058 + 4 * m, 2, .ro, 0⟩
/-- TRF_MISS_TCc. -/
def trfMissCount (c : Nat) : Fld := ⟨8 * (0x060 + 4 * c), 32, .roc, 0⟩
/-- TRF_WAYCAP: cap of TC(3+i). -/
def trfWaycapCap (i : Nat) : Fld := ⟨8 * 0x078 + 8 * i, 5, .rws, 4⟩
/-- TRF_BGRw. -/
def trfBgrWord (w : Nat) : Fld := ⟨8 * (0x080 + 4 * w), 32, .ro, 0⟩

/-! THM page fields (R683). -/
def thmCtrlStepMs : Fld := fld 0x040 0 8 .rwl 0xa
def thmStateStep : Fld := fld 0x044 30 2 .ro 0
def thmStateWarn : Fld := fld 0x044 29 1 .ro 0
def thmStatePlausFail : Fld := fld 0x044 28 1 .ro 0
def thmStateDiodeBad : Fld := fld 0x044 25 3 .ro 0
def thmStateBroken : Fld := fld 0x044 16 9 .ro 0
def thmStatePlfail : Fld := fld 0x044 8 8 .ro 0
def thmPlausCeMax : Fld := fld 0x054 16 8 .rwl 0x40
def thmPlausLeakDelta : Fld := fld 0x054 8 8 .rwl 8
def thmPlausBracket : Fld := fld 0x054 0 8 .rwl 4
def thmMselDie : Fld := fld 0x064 8 2 .rw 0
def thmMselIndex : Fld := fld 0x064 0 8 .rw 0
def thmMonEff : Fld := fld 0x068 16 16 .ro 0
def thmMonRaw : Fld := fld 0x068 0 16 .ro 0
def thmMstatToohot : Fld := fld 0x06C 1 1 .ro 0
def thmMstatBroken : Fld := fld 0x06C 0 1 .ro 0
def thmTleak : Fld := fld 0x070 0 16 .ro 0
def thmFirstPlValid : Fld := fld 0x074 31 1 .w1c 0
def thmFirstPlCheck : Fld := fld 0x074 28 3 .ro 0
def thmFirstPlPart : Fld := fld 0x074 0 8 .ro 0
def thmTripValid : Fld := fld 0x078 31 1 .w1c 0
def thmTripDie : Fld := fld 0x078 29 2 .ro 0
def thmTripSource : Fld := fld 0x078 27 2 .ro 0
def thmTripMon : Fld := fld 0x078 16 8 .ro 0
def thmTripReading : Fld := fld 0x078 0 16 .ro 0
def thmTripStk : Fld := fld 0x07C 0 32 .ro 0
/-- THM_THR of die d, TRIP (fused, R671). -/
def thmThrTrip (d : Nat) : Fld := ⟨8 * (0x048 + 4 * d) + 24, 8, .ro, ([115, 110, 115].getD d 0)⟩
/-- THM_THR of die d, DAMP. -/
def thmThrDamp (d : Nat) : Fld := ⟨8 * (0x048 + 4 * d) + 16, 8, .rwl, ([100, 95, 100].getD d 0)⟩
/-- THM_THR of die d, WARN. -/
def thmThrWarn (d : Nat) : Fld := ⟨8 * (0x048 + 4 * d) + 8, 8, .rwl, ([95, 90, 95].getD d 0)⟩
/-- THM_THR of die d, HYST. -/
def thmThrHyst (d : Nat) : Fld := ⟨8 * (0x048 + 4 * d), 8, .rwl, 5⟩
/-- THM_HOT of die d, EFF. -/
def thmHotEff (d : Nat) : Fld := ⟨8 * (0x058 + 4 * d) + 16, 16, .ro, 0⟩
/-- THM_HOT of die d, DIODE. -/
def thmHotDiode (d : Nat) : Fld := ⟨8 * (0x058 + 4 * d), 16, .ro, 0⟩

/-! PWR page fields (R665). -/
def pwrCtrlRestMin : Fld := fld 0x040 24 8 .rw 0x20
def pwrCtrlRide : Fld := fld 0x040 16 8 .rw 0xa
def pwrCtrlWarnDamper : Fld := fld 0x040 4 2 .rw 2
def pwrCtrlHandoffEn : Fld := fld 0x040 1 1 .rw 1
def pwrCtrlRestEn : Fld := fld 0x040 0 1 .rws 0
def pwrCapWin : Fld := fld 0x044 16 8 .rw 0xa
def pwrCapCapW : Fld := fld 0x044 0 12 .rw 0x960
def pwrStateMode : Fld := fld 0x048 31 1 .ro 0
def pwrStateWarn : Fld := fld 0x048 30 1 .ro 0
def pwrStatePmLinkOk : Fld := fld 0x048 29 1 .ro 1
def pwrStateFloor : Fld := fld 0x048 26 2 .ro 0
def pwrStateCapFloor : Fld := fld 0x048 24 2 .ro 0
def pwrStateDerateFloor : Fld := fld 0x048 22 2 .ro 0
def pwrStateRested : Fld := fld 0x048 0 16 .ro 0
def pwrPin : Fld := fld 0x04C 0 16 .ro 0
def pwrVfbVread : Fld := fld 0x050 16 16 .ro 0
def pwrVfbVset : Fld := fld 0x050 0 16 .ro 0
def pwrRailselPage : Fld := fld 0x054 0 3 .rw 0
def pwrRailIout : Fld := fld 0x058 16 16 .ro 0
def pwrRailVout : Fld := fld 0x058 0 16 .ro 0
def pwrPmstatStatus : Fld := fld 0x05C 0 16 .ro 0
def pwrVminValid : Fld := fld 0x060 31 1 .w1c 0
def pwrVminHob : Fld := fld 0x060 24 4 .ro 0
def pwrVminDeficit : Fld := fld 0x060 16 8 .ro 0
def pwrVminMv : Fld := fld 0x060 0 16 .ro 0
def pwrVminStk : Fld := fld 0x064 0 32 .ro 0
def pwrVminCycCycle : Fld := fld 0x068 0 32 .ro 0
def pwrWarncntExpired : Fld := fld 0x06C 16 16 .roc 0
def pwrWarncntAsserts : Fld := fld 0x06C 0 16 .roc 0
def pwrWarnLastUs : Fld := fld 0x070 0 32 .ro 0

/-! SMK page fields (R721). -/
def smkCtrlSample : Fld := fld 0x040 16 16 .rws 0
def smkCtrlDest : Fld := fld 0x040 0 2 .rws 0
def smkCmdFlush : Fld := fld 0x044 0 1 .wo 0
def smkRingBase : Fld := fld 0x048 0 64 .rw 0
def smkRingSizeLog : Fld := fld 0x050 0 5 .rw 0
def smkRingHead : Fld := fld 0x054 0 24 .rw 0
def smkRingTail : Fld := fld 0x058 0 24 .ro 0
def smkHregRegion : Fld := fld 0x05C 0 16 .rws 0
def smkHptrWrapped : Fld := fld 0x060 31 1 .ro 0
def smkHptrNext : Fld := fld 0x060 0 24 .ro 0
def smkDropCount : Fld := fld 0x064 0 32 .roc 0
def smkStateSusp : Fld := fld 0x068 4 1 .ro 0
def smkStateFlushing : Fld := fld 0x068 3 1 .ro 0
def smkStatePend : Fld := fld 0x068 0 3 .ro 0
def smkCtrlTileEn : Fld := fld 0x040 2 1 .rws 1
def smkCtrlPartEn : Fld := fld 0x040 3 1 .rws 0
def smkCtrlBgrEn : Fld := fld 0x040 4 1 .rws 1

/-! TIL page fields (R134). -/
def tilCtrlLockPoll : Fld := fld 0x040 0 8 .rws 8
def tilStateEntry : Fld := fld 0x044 20 12 .ro 0
def tilStateResident : Fld := fld 0x044 14 6 .ro 0
def tilStateSlow : Fld := fld 0x044 3 1 .ro 0
def tilState : Fld := fld 0x044 0 3 .ro 0
def tilLogicalLtile : Fld := fld 0x048 0 8 .ro 0xff
def tilOvrKind : Fld := fld 0x04C 28 4 .ro 0
def tilOvrEntry : Fld := fld 0x04C 16 12 .ro 0
def tilOvrCycCycle : Fld := fld 0x050 0 32 .ro 0
def tilBar0Id : Fld := fld 0x054 28 4 .ro 0
def tilBar0Scope : Fld := fld 0x054 27 1 .ro 0
def tilBar0Arrived : Fld := fld 0x054 16 11 .ro 0
def tilBar0Live : Fld := fld 0x054 0 11 .ro 0
def tilBar1Epoch : Fld := fld 0x058 16 16 .ro 0
def tilBar1Ctx : Fld := fld 0x058 0 5 .ro 0
def tilExcValid : Fld := fld 0x05C 31 1 .w1c 0
def tilExcCode : Fld := fld 0x05C 16 8 .ro 0
def tilExcCtx : Fld := fld 0x05C 0 5 .ro 0
def tilExcPc : Fld := fld 0x060 0 64 .ro 0
def tilExcMaskLanes : Fld := fld 0x068 0 32 .ro 0
def tilEvt : Fld := fld 0x06C 0 16 .ro 0

/-! SEQ page fields (R136). -/
def seqCtrlRepackEn : Fld := fld 0x040 0 1 .rws 1
def seqStateSubgroups : Fld := fld 0x044 8 8 .ro 0
def seqStateMerged : Fld := fld 0x044 4 4 .ro 0
def seqStateCtxValid : Fld := fld 0x044 0 4 .ro 0
def seqMergeMerges : Fld := fld 0x080 0 32 .roc 0
def seqSplitSplits : Fld := fld 0x084 0 32 .roc 0
/-- SEQ_CTXc.EPOCH. -/
def seqCtxEpoch (c : Nat) : Fld := ⟨8 * (0x050 + 4 * c) + 16, 16, .ro, 0⟩
/-- SEQ_CTXc.DEPTH. -/
def seqCtxDepth (c : Nat) : Fld := ⟨8 * (0x050 + 4 * c) + 11, 5, .ro, 0⟩
/-- SEQ_CTXc.GROUP. -/
def seqCtxGroup (c : Nat) : Fld := ⟨8 * (0x050 + 4 * c) + 6, 5, .ro, 0⟩
/-- SEQ_CTXc.FRAG. -/
def seqCtxFrag (c : Nat) : Fld := ⟨8 * (0x050 + 4 * c) + 5, 1, .ro, 0⟩
/-- SEQ_CTXc.PARKED. -/
def seqCtxParked (c : Nat) : Fld := ⟨8 * (0x050 + 4 * c) + 4, 1, .ro, 0⟩
/-- SEQ_CTXc.AT_BAR. -/
def seqCtxAtBar (c : Nat) : Fld := ⟨8 * (0x050 + 4 * c) + 3, 1, .ro, 0⟩
/-- SEQ_CTXc.AT_EVT. -/
def seqCtxAtEvt (c : Nat) : Fld := ⟨8 * (0x050 + 4 * c) + 2, 1, .ro, 0⟩
/-- SEQ_CTXc.VALID. -/
def seqCtxValid (c : Nat) : Fld := ⟨8 * (0x050 + 4 * c), 1, .ro, 0⟩
/-- SEQ_LIVEc. -/
def seqLive (c : Nat) : Fld := ⟨8 * (0x060 + 4 * c), 32, .ro, 0⟩
/-- SEQ_PARKc. -/
def seqPark (c : Nat) : Fld := ⟨8 * (0x070 + 4 * c), 32, .ro, 0⟩

/-! MXA page fields (R215). -/
def mxaCtrlFragBurst : Fld := fld 0x040 8 4 .rws 0xf
def mxaCtrlRetryMax : Fld := fld 0x040 0 2 .rws 2
def mxaStateDescPend : Fld := fld 0x044 28 4 .ro 0
def mxaStateFtqValid : Fld := fld 0x044 24 4 .ro 0
def mxaStateSpareFor : Fld := fld 0x044 16 7 .ro 0x7f
def mxaStateSlices : Fld := fld 0x044 8 4 .ro 8
def mxaState : Fld := fld 0x044 0 3 .ro 0
def mxaRowmapOutPhys : Fld := fld 0x048 16 7 .ro 0x7f
def mxaRowmapChkPhys : Fld := fld 0x048 0 7 .ro 0x41
def mxaChkValid : Fld := fld 0x04C 31 1 .w1c 0
def mxaChkClass : Fld := fld 0x04C 29 2 .ro 0
def mxaChkAttempt : Fld := fld 0x04C 27 2 .ro 0
def mxaChkNrows : Fld := fld 0x04C 16 8 .ro 0
def mxaChkRow : Fld := fld 0x04C 8 8 .ro 0xff
def mxaChkCol : Fld := fld 0x04C 0 8 .ro 0xff
def mxaErrcntHard : Fld := fld 0x050 24 8 .roc 0
def mxaErrcntFeedCrc : Fld := fld 0x050 16 8 .roc 0
def mxaErrcntTransient : Fld := fld 0x050 0 16 .roc 0
def mxaSkipSkipped : Fld := fld 0x054 0 32 .roc 0
def mxaFtqHeadToken : Fld := fld 0x058 12 4 .ro 0
def mxaFtqHead : Fld := fld 0x058 8 4 .ro 0
def mxaFtqValid : Fld := fld 0x058 4 4 .ro 0
def mxaFeedStallCycles : Fld := fld 0x05C 0 32 .roc 0
def mxaFtqStallCycles : Fld := fld 0x060 0 32 .roc 0
def mxaPassPasses : Fld := fld 0x064 0 64 .ro 0
def mxaFlipArm : Fld := fld 0x06C 31 1 .rw 0
def mxaFlipRow : Fld := fld 0x06C 16 8 .rw 0
def mxaFlipCol : Fld := fld 0x06C 8 8 .rw 0
def mxaFlipBit : Fld := fld 0x06C 0 6 .rw 0

/-! VEC page fields (R271). -/
def vecCtrlEpiShare : Fld := fld 0x040 0 3 .rws 2
def vecFill : Fld := fld 0x044 0 64 .rws 0
def vecStateEpiPend : Fld := fld 0x04C 28 4 .ro 0
def vecStateEpiSec : Fld := fld 0x04C 25 3 .ro 0
def vecStateEpiState : Fld := fld 0x04C 0 3 .ro 0
def vecXredLevels : Fld := fld 0x050 16 4 .ro 0
def vecXredTreeId : Fld := fld 0x050 0 16 .ro 0
def vecEpiDoneCount : Fld := fld 0x054 0 32 .roc 0
def vecEpiWaitCycles : Fld := fld 0x058 0 32 .roc 0
def vecSecWaitCycles : Fld := fld 0x05C 0 32 .roc 0
def vecOobCount : Fld := fld 0x060 0 32 .roc 0
def vecEmptyCount : Fld := fld 0x064 0 32 .roc 0
def vecStkFlags : Fld := fld 0x068 0 10 .ro 0

/-! TLM page fields (R299). -/
def tlmCtrlKeepLimit : Fld := fld 0x040 0 2 .rws 1
def tlmStateSplit : Fld := fld 0x044 29 3 .ro 0
def tlmStateWays : Fld := fld 0x044 23 6 .ro 0x20
def tlmStateBadlines : Fld := fld 0x044 16 5 .ro 0
def tlmStateCleaning : Fld := fld 0x044 15 1 .ro 0
def tlmStateDirty : Fld := fld 0x044 0 14 .ro 0
def tlmCleanDirtyMax : Fld := fld 0x048 16 14 .rws 0x2000
def tlmCleanCleanAt : Fld := fld 0x048 0 14 .rws 0x1800
def tlmCrcErrValid : Fld := fld 0x04C 31 1 .w1c 0
def tlmCrcErrKind : Fld := fld 0x04C 28 3 .ro 0
def tlmCrcErrBank : Fld := fld 0x04C 17 5 .ro 0
def tlmCrcErrIndex : Fld := fld 0x04C 8 9 .ro 0
def tlmCrcAddr : Fld := fld 0x050 0 64 .ro 0
def tlmErrcntScratch : Fld := fld 0x058 24 8 .roc 0
def tlmErrcntDirty : Fld := fld 0x058 16 8 .roc 0
def tlmErrcntClean : Fld := fld 0x058 0 16 .roc 0
def tlmHitCount : Fld := fld 0x05C 0 32 .roc 0
def tlmMissCount : Fld := fld 0x060 0 32 .roc 0
def tlmConflictCycles : Fld := fld 0x064 0 32 .roc 0
def tlmDirtyWaitCycles : Fld := fld 0x068 0 32 .roc 0
def tlmFlipArm : Fld := fld 0x06C 31 1 .rw 0
def tlmFlipTarget : Fld := fld 0x06C 30 1 .rw 0
def tlmFlipBit : Fld := fld 0x06C 0 9 .rw 0
/-- TLM_BADLINEi.VALID. -/
def tlmBadlineValid (i : Nat) : Fld := ⟨8 * (0x080 + 4 * i) + 31, 1, .ro, 0⟩
/-- TLM_BADLINEi.SCR. -/
def tlmBadlineScr (i : Nat) : Fld := ⟨8 * (0x080 + 4 * i) + 30, 1, .ro, 0⟩
/-- TLM_BADLINEi.BANK. -/
def tlmBadlineBank (i : Nat) : Fld := ⟨8 * (0x080 + 4 * i) + 16, 5, .ro, 0⟩
/-- TLM_BADLINEi.INDEX. -/
def tlmBadlineIndex (i : Nat) : Fld := ⟨8 * (0x080 + 4 * i), 9, .ro, 0⟩

/-! HRT page fields (R360). -/
def hrtCtrlBankUeMax : Fld := fld 0x040 0 8 .rws 4
def hrtStatePinned : Fld := fld 0x044 27 5 .ro 0
def hrtStateInservice : Fld := fld 0x044 22 5 .ro 0
def hrtStateVbuf : Fld := fld 0x044 18 4 .ro 0
def hrtStateDrain : Fld := fld 0x044 0 1 .ro 0
def hrtPinmaskPinned : Fld := fld 0x048 0 24 .ro 0
def hrtRetmaskRetired : Fld := fld 0x04C 0 24 .ro 0
def hrtHomemapMapid : Fld := fld 0x050 0 32 .ro 0
def hrtHitCount : Fld := fld 0x054 0 32 .roc 0
def hrtMissCount : Fld := fld 0x058 0 32 .roc 0
def hrtEvictCount : Fld := fld 0x05C 0 32 .roc 0
def hrtRedFlags : Fld := fld 0x060 0 5 .ro 0
def hrtOrdRankbuf : Fld := fld 0x064 16 10 .ro 0
def hrtOrdOpen : Fld := fld 0x064 0 7 .ro 0
def hrtOrdRefuseCount : Fld := fld 0x068 0 32 .roc 0
def hrtCorrCount : Fld := fld 0x06C 0 32 .roc 0
def hrtUeCount : Fld := fld 0x070 0 32 .roc 0
def hrtErrAddr : Fld := fld 0x074 0 64 .ro 0
def hrtFlipArm : Fld := fld 0x07C 31 1 .rw 0
def hrtFlipBank : Fld := fld 0x07C 20 5 .rw 0
def hrtFlipBit : Fld := fld 0x07C 0 7 .rw 0
def hrtConflictCycles : Fld := fld 0x080 0 32 .roc 0

/-! HRTX page fields (R363). -/
def hrtGhostEntries : Fld := fld 0x0C0 0 9 .ro 0
def hrtThrLastReported : Fld := fld 0x0C4 0 5 .ro 0
/-- HRT_BANKb.ROLE. -/
def hrtBankRole (b : Nat) : Fld := ⟨8 * (0x040 + 4 * b) + 30, 2, .ro, 0⟩
/-- HRT_BANKb.UE. -/
def hrtBankUe (b : Nat) : Fld := ⟨8 * (0x040 + 4 * b) + 16, 8, .ro, 0⟩
/-- HRT_BANKb.REGION. -/
def hrtBankRegion (b : Nat) : Fld := ⟨8 * (0x040 + 4 * b), 16, .ro, 0⟩
/-- HRT_THR_TCc.LIMIT. -/
def hrtThrLimit (c : Nat) : Fld := ⟨8 * (0x0A0 + 4 * c) + 16, 16, .rws, 0x0100⟩
/-- HRT_THR_TCc.COUNT. -/
def hrtThrCount (c : Nat) : Fld := ⟨8 * (0x0A0 + 4 * c), 16, .ro, 0⟩

/-! GDC page fields (R421). -/
def gdcCtrlUeFence : Fld := fld 0x040 8 8 .rws 8
def gdcCtrlRepairCe : Fld := fld 0x040 0 8 .rws 4
def gdcStatePstate : Fld := fld 0x044 30 2 .ro 0
def gdcStateSpeed : Fld := fld 0x044 28 2 .ro 3
def gdcStateDensity : Fld := fld 0x044 26 2 .ro 2
def gdcStateRefx2 : Fld := fld 0x044 25 1 .ro 0
def gdcStateRepairing : Fld := fld 0x044 24 1 .ro 0
def gdcStateLidx : Fld := fld 0x044 16 8 .ro 0xff
def gdcStateRpc : Fld := fld 0x044 12 4 .ro 0
def gdcRowsUsable : Fld := fld 0x048 0 23 .ro 6524473
def gdcRepairFull : Fld := fld 0x04C 31 1 .ro 0
def gdcRepairUsed : Fld := fld 0x04C 0 12 .ro 0
def gdcErrcntUe : Fld := fld 0x050 16 16 .roc 0
def gdcErrcntCe : Fld := fld 0x050 0 16 .roc 0
def gdcBucketLevel : Fld := fld 0x054 16 16 .ro 0
def gdcBucketLeak : Fld := fld 0x054 8 8 .rws 0x10
def gdcBucketLimit : Fld := fld 0x054 0 8 .rws 0x40
def gdcRetryCount : Fld := fld 0x058 0 32 .roc 0
def gdcFreeCount : Fld := fld 0x05C 0 32 .roc 0
def gdcErrAddr : Fld := fld 0x060 0 64 .ro 0
def gdcFlipArm : Fld := fld 0x068 31 1 .rw 0
def gdcFlipBit : Fld := fld 0x068 0 7 .rw 0

/-! FLU page fields (R388). -/
def fluCtrlLaneErrMax : Fld := fld 0x040 8 8 .rws 0x10
def fluCtrlDecay : Fld := fld 0x040 0 8 .rws 0x40
def fluCmdSweep : Fld := fld 0x044 0 1 .wo 0
def fluStatePstate : Fld := fld 0x048 30 2 .ro 0
def fluStateFaults : Fld := fld 0x048 16 14 .ro 0
def fluStateSpares : Fld := fld 0x048 6 10 .ro 0
def fluBselBundle : Fld := fld 0x050 0 8 .rw 0
def fluBmap2Mask : Fld := fld 0x05C 0 4 .ro 0
def fluBstatMode : Fld := fld 0x060 30 2 .ro 0
def fluBstatFaults : Fld := fld 0x060 0 7 .ro 0
def fluLselFlue : Fld := fld 0x064 0 7 .rw 0
def fluLcntFaulty : Fld := fld 0x068 8 1 .ro 0
def fluLcntCount : Fld := fld 0x068 0 8 .ro 0
def fluCorrCount : Fld := fld 0x06C 0 32 .roc 0
def fluUeCount : Fld := fld 0x070 0 32 .roc 0
def fluLastValid : Fld := fld 0x074 31 1 .w1c 0
def fluLastSource : Fld := fld 0x074 28 3 .ro 0
def fluLastBundle : Fld := fld 0x074 16 8 .ro 0
def fluLastFlue : Fld := fld 0x074 0 7 .ro 0
def fluFlipArm : Fld := fld 0x078 31 1 .rw 0
def fluFlipBundle : Fld := fld 0x078 16 8 .rw 0
def fluFlipFlue : Fld := fld 0x078 0 7 .rw 0
/-- FLU_PORTS.PORTp. -/
def fluPortsPort (p : Nat) : Fld := ⟨8 * 0x04C + 2 * p, 2, .ro, 0⟩
/-- FLU_BMAPi. -/
def fluBmapMask (i : Nat) : Fld := ⟨8 * (0x054 + 4 * i), 32, .ro, 0⟩

/-! CXP page fields (R598). -/
def cxpCtrlRetrain : Fld := fld 0x040 8 1 .wo 0
def cxpCtrlMaxWidth : Fld := fld 0x040 2 2 .rwl 0
def cxpCtrlMaxRate : Fld := fld 0x040 0 2 .rwl 0
def cxpLinkMode : Fld := fld 0x044 29 3 .ro 0
def cxpLinkFlit : Fld := fld 0x044 27 2 .ro 0
def cxpLinkWidth : Fld := fld 0x044 22 5 .ro 0
def cxpLinkRate : Fld := fld 0x044 14 8 .ro 0
def cxpLinkCache : Fld := fld 0x044 13 1 .ro 0
def cxpLinkMem : Fld := fld 0x044 12 1 .ro 0
def cxpHdmSize : Fld := fld 0x048 0 64 .ro 0
def cxpHdmBase : Fld := fld 0x050 0 64 .ro 0
def cxpSfLines : Fld := fld 0x058 0 17 .ro 0
def cxpIngBase : Fld := fld 0x05C 0 64 .rwl 0
def cxpXferLate : Fld := fld 0x064 16 16 .roc 0
def cxpXferUndone : Fld := fld 0x064 0 16 .roc 0
def cxpRetryCount : Fld := fld 0x068 0 32 .roc 0
def cxpCrcerrCount : Fld := fld 0x06C 0 32 .roc 0
def cxpPoisonCount : Fld := fld 0x070 0 32 .roc 0
def cxpFlipArm : Fld := fld 0x074 31 1 .rw 0
def cxpFlipBit : Fld := fld 0x074 0 11 .rw 0

/-! FAR page fields (R424). -/
def farCtrlTimeout : Fld := fld 0x040 0 8 .rwl 0x40
def farCmdSanitize : Fld := fld 0x044 1 1 .wo 0
def farCmdRescan : Fld := fld 0x044 0 1 .wo 0
def farState : Fld := fld 0x048 29 3 .ro 0
def farStateDirect : Fld := fld 0x048 28 1 .ro 0
def farStateVer : Fld := fld 0x048 26 2 .ro 0
def farStatePmem : Fld := fld 0x048 25 1 .ro 0
def farStateFailwhy : Fld := fld 0x048 16 4 .ro 0
def farStatePort : Fld := fld 0x048 8 8 .ro 0
def farCap : Fld := fld 0x04C 0 64 .ro 0
def farDevcap : Fld := fld 0x054 0 64 .ro 0
def farSanValid : Fld := fld 0x05C 31 1 .w1c 0
def farSanResult : Fld := fld 0x05C 28 3 .ro 0
def farSanSeconds : Fld := fld 0x05C 0 16 .ro 0
def farErrcntPoison : Fld := fld 0x060 16 16 .roc 0
def farErrcntTimeout : Fld := fld 0x060 0 16 .roc 0

/-! KNK page fields (R566). -/
def knkCtrlRepeatWin : Fld := fld 0x040 20 8 .rw 0x40
def knkCtrlLagMax : Fld := fld 0x040 16 4 .rw 2
def knkCtrlDigWait : Fld := fld 0x040 8 8 .rw 4
def knkCtrlMinWidth : Fld := fld 0x040 6 2 .rw 1
def knkCtrlK1 : Fld := fld 0x040 5 1 .rwl 0
def knkCtrlFwd : Fld := fld 0x040 4 1 .rws 0
def knkCtrlRoleReq : Fld := fld 0x040 3 1 .rws 0
def knkCtrlPos : Fld := fld 0x040 2 1 .rwl 0
def knkCtrlPairEn : Fld := fld 0x040 0 1 .rw 0
def knkCmdKeep : Fld := fld 0x044 3 1 .wo 0
def knkCmdRetrain : Fld := fld 0x044 2 1 .wo 0
def knkCmdHandoff : Fld := fld 0x044 1 1 .wo 0
def knkCmdResyncTx : Fld := fld 0x044 0 1 .wo 0
def knkStatePstate : Fld := fld 0x048 29 3 .ro 0
def knkStateRole : Fld := fld 0x048 28 1 .ro 1
def knkStateDir : Fld := fld 0x048 27 1 .ro 0
def knkStatePhb : Fld := fld 0x048 25 2 .ro 0
def knkStateLinkUp : Fld := fld 0x048 24 1 .ro 0
def knkStatePinOk : Fld := fld 0x048 23 1 .ro 0
def knkStateWidth : Fld := fld 0x048 18 5 .ro 0
def knkStateLag : Fld := fld 0x048 8 8 .ro 0
def knkStateSplits : Fld := fld 0x048 0 8 .ro 0
def knkHbPeriod : Fld := fld 0x04C 16 16 .rw 0x64
def knkHbLoss : Fld := fld 0x04C 8 8 .rw 8
def knkLinkcfgResyncHold : Fld := fld 0x050 16 16 .rw 0x7d0
def knkLinkcfgLinkLoss : Fld := fld 0x050 0 16 .rw 0x3e8
def knkLanesInuse : Fld := fld 0x054 16 16 .ro 0
def knkLanesGood : Fld := fld 0x054 0 16 .ro 0
def knkConfWork : Fld := fld 0x058 0 64 .ro 0xffffffffffffffff
def knkMismatchMask : Fld := fld 0x080 0 16 .ro 0
def knkSplitValid : Fld := fld 0x084 31 1 .w1c 0
def knkSplitOutcome : Fld := fld 0x084 28 3 .ro 0
def knkSplitLoc : Fld := fld 0x084 16 9 .ro 0x1ff
def knkSplitPfaults : Fld := fld 0x084 0 16 .ro 0
def knkSplitWork : Fld := fld 0x088 0 64 .ro 0
def knkFaults : Fld := fld 0x090 0 16 .ro 0
def knkReloadLoValid : Fld := fld 0x094 31 1 .ro 0
def knkReloadLoGen : Fld := fld 0x094 0 1 .ro 0
def knkReloadHiWork : Fld := fld 0x098 0 32 .ro 0
def knkRetryCount : Fld := fld 0x09C 0 32 .roc 0
def knkFecCount : Fld := fld 0x0A0 0 32 .roc 0
def knkCrcerrCount : Fld := fld 0x0A4 0 32 .roc 0
def knkRsDoneRows : Fld := fld 0x0A8 0 64 .ro 0
def knkFlipArm : Fld := fld 0x0B0 31 1 .rw 0
def knkFlipWord : Fld := fld 0x0B0 8 5 .rw 0
def knkFlipBit : Fld := fld 0x0B0 0 6 .rw 0
/-- KNK_DIGw. -/
def knkDigDigest (w : Nat) : Fld := ⟨8 * (0x060 + 4 * w), 32, .ro, 0⟩

/-! HOB page fields (R666). -/
def hobCtrlDroopWarn : Fld := fld 0x040 24 8 .rws 0x1e
def hobCtrlDroopTrip : Fld := fld 0x040 16 8 .rws 0x3c
def hobCtrlCrackWarn : Fld := fld 0x040 12 4 .rws 3
def hobCtrlCrackTrip : Fld := fld 0x040 8 4 .rws 6
def hobState : Fld := fld 0x044 29 3 .ro 0
def hobStateFailed : Fld := fld 0x044 24 5 .ro 0
def hobStateDerate : Fld := fld 0x044 23 1 .ro 0
def hobStateBypass : Fld := fld 0x044 22 1 .ro 0
def hobSlicesFailed : Fld := fld 0x048 0 24 .ro 0
def hobVIout : Fld := fld 0x04C 16 16 .ro 0
def hobVMv : Fld := fld 0x04C 0 16 .ro 0
def hobVtgtMv : Fld := fld 0x050 0 16 .ro 0
def hobVminValid : Fld := fld 0x054 31 1 .w1c 0
def hobVminDeficit : Fld := fld 0x054 16 8 .ro 0
def hobVminMv : Fld := fld 0x054 0 16 .ro 0
def hobVminStk : Fld := fld 0x058 0 32 .ro 0
def hobVminCycCycle : Fld := fld 0x05C 0 32 .ro 0
def hobResBase : Fld := fld 0x060 16 16 .ro 0
def hobResNow : Fld := fld 0x060 0 16 .ro 0
def hobKindleDefer : Fld := fld 0x064 28 4 .ro 0
def hobKindleForced : Fld := fld 0x064 27 1 .ro 0
def hobKindleCount : Fld := fld 0x064 0 16 .ro 0
def hobStretchCycles : Fld := fld 0x068 0 32 .roc 0

/-! SMKC page fields (R722). -/
def smkCctrlClr : Fld := fld 0x040 16 1 .wo 0
def smkCctrlPerstk : Fld := fld 0x040 8 8 .rw 0
def smkCctrlEn : Fld := fld 0x040 0 8 .rw 0
def smkCstatOvf : Fld := fld 0x044 0 8 .w1c 0
def smkSnapStk : Fld := fld 0x0D0 0 32 .ro 0
/-- SMK_EVSEL.EVk. -/
def smkEvselEv (k : Nat) : Fld := ⟨8 * 0x048 + 4 * k, 4, .rw, 0⟩
/-- SMK_CNTk. -/
def smkCnt (k : Nat) : Fld := ⟨8 * (0x050 + 8 * k), 64, .ro, 0⟩
/-- SMK_SNAPk. -/
def smkSnap (k : Nat) : Fld := ⟨8 * (0x090 + 8 * k), 64, .ro, 0⟩

/-! FQ page fields (R580). -/
def fqSqBase : Fld := fld 0x000 0 64 .rw 0
def fqSizeCqLog : Fld := fld 0x008 16 4 .rw 0
def fqSizeSqLog : Fld := fld 0x008 0 4 .rw 0
def fqCqBase : Fld := fld 0x00C 0 64 .rw 0
def fqSqTail : Fld := fld 0x014 0 12 .wo 0
def fqCqHead : Fld := fld 0x018 0 12 .wo 0
def fqStateEn : Fld := fld 0x01C 31 1 .rw 0
def fqStateErr : Fld := fld 0x01C 30 1 .ro 0
def fqStateSqHead : Fld := fld 0x01C 16 12 .ro 0
def fqStateCqTail : Fld := fld 0x01C 0 12 .ro 0

/-! Cause bits of INT_RAW, as the chapters number them. -/
def causeDevLegacyWrite : Nat := 5
def causeDevShapeChange : Nat := 4
def causeDevDarkAccess : Nat := 3
def causeDevBadWidth : Nat := 2
def causeDevUnmapped : Nat := 1
def causeDevReady : Nat := 0
def causeStkPairReplayLate : Nat := 8
def causeStkPeriodClamp : Nat := 7
def causeStkPlanSwap : Nat := 6
def causeStkSyncLost : Nat := 5
def causeStkSyncMiss : Nat := 4
def causeStkQuenchDone : Nat := 3
def causeStkHeld : Nat := 2
def causeStkReplay : Nat := 1
def causeStkOverrun : Nat := 0
def causeIntRouteBad : Nat := 0
def causeSecUpdDone : Nat := 3
def causeSecRevoke : Nat := 2
def causeSecTrngFail : Nat := 1
def causeSecInject : Nat := 0
def causeLcyRefused : Nat := 2
def causeLcyDone : Nat := 1
def causeLcyAccepted : Nat := 0
def causeTndLinkLate : Nat := 4
def causeTndTrecSaved : Nat := 3
def causeTndChFence : Nat := 2
def causeTndHobDark : Nat := 1
def causeTndUcFence : Nat := 0
def causeTrfBgrOvf : Nat := 8
def causeTrfCrit : Nat := 7
def causeTrfShareBad : Nat := 6
def causeTrfGuarMiss (c : Nat) : Nat := c
def causeThmTripLast : Nat := 5
def causeThmDiodeBad : Nat := 4
def causeThmBroken : Nat := 3
def causeThmPlaus : Nat := 2
def causeThmStep : Nat := 1
def causeThmWarn : Nat := 0
def causePwrFloor : Nat := 7
def causePwrHobDark : Nat := 6
def causePwrVmin : Nat := 5
def causePwrPmLink : Nat := 4
def causePwrPmFault : Nat := 3
def causePwrCap : Nat := 2
def causePwrRideExpired : Nat := 1
def causePwrWarn : Nat := 0
def causeSmkHregBad : Nat := 3
def causeSmkFlushDone : Nat := 2
def causeSmkDrop : Nat := 1
def causeSmkGroup : Nat := 0
def causeTilSlowMark : Nat := 3
def causeTilBarStall : Nat := 2
def causeTilException : Nat := 1
def causeTilOverrun : Nat := 0
def causeMxaPoisonOut : Nat := 5
def causeMxaSkip : Nat := 4
def causeMxaRetired : Nat := 3
def causeMxaSpareIn : Nat := 2
def causeMxaFeedCrc : Nat := 1
def causeMxaTransient : Nat := 0
def causeVecEpiPoison : Nat := 2
def causeVecEmpty : Nat := 1
def causeVecPermOob : Nat := 0
def causeTlmDirtyLimit : Nat := 5
def causeTlmBadlineFull : Nat := 4
def causeTlmBadline : Nat := 3
def causeTlmCrcScratch : Nat := 2
def causeTlmCrcDirty : Nat := 1
def causeTlmCrcClean : Nat := 0
def causeHrtFenced : Nat := 7
def causeHrtRedFlag : Nat := 6
def causeHrtOrdLost : Nat := 5
def causeHrtOrdGap : Nat := 4
def causeHrtOrdBad : Nat := 3
def causeHrtThrash : Nat := 2
def causeHrtBankRetire : Nat := 1
def causeHrtUe : Nat := 0
def causeGdcFenced : Nat := 7
def causeGdcNarrow : Nat := 6
def causeGdcRefx2 : Nat := 5
def causeGdcRepairFull : Nat := 4
def causeGdcRepair : Nat := 3
def causeGdcCrcFail : Nat := 2
def causeGdcUe : Nat := 1
def causeGdcBucket : Nat := 0
def causeFluSweepDone : Nat := 5
def causeFluUe : Nat := 4
def causeFluPortFail : Nat := 3
def causeFluHalf : Nat := 2
def causeFluSpareUsed : Nat := 1
def causeFluLaneFault : Nat := 0
def causeCxpXferUndone : Nat := 6
def causeCxpLate : Nat := 5
def causeCxpHdmBeyond : Nat := 4
def causeCxpPoisonRx : Nat := 3
def causeCxpNarrow : Nat := 2
def causeCxpLinkDown : Nat := 1
def causeCxpLinkUp : Nat := 0
def causeFarSanFail : Nat := 5
def causeFarSanDone : Nat := 4
def causeFarTimeout : Nat := 3
def causeFarPoison : Nat := 2
def causeFarRemoved : Nat := 1
def causeFarReady : Nat := 0
def causeKnkProto : Nat := 15
def causeKnkPosClash : Nat := 14
def causeKnkSplitHost : Nat := 13
def causeKnkResyncFail : Nat := 12
def causeKnkResyncDone : Nat := 11
def causeKnkRecord : Nat := 10
def causeKnkNarrow : Nat := 9
def causeKnkLinkDown : Nat := 8
def causeKnkHbPin : Nat := 7
def causeKnkDualLit : Nat := 6
def causeKnkUnchecked : Nat := 5
def causeKnkDemoted : Nat := 4
def causeKnkSplit : Nat := 3
def causeKnkPromote : Nat := 2
def causeKnkPartnerLost : Nat := 1
def causeKnkPaired : Nat := 0
def causeHobForced : Nat := 7
def causeHobDark : Nat := 6
def causeHobCrackTrip : Nat := 5
def causeHobCrackWarn : Nat := 4
def causeHobDerate : Nat := 3
def causeHobSliceFail : Nat := 2
def causeHobDroopTrip : Nat := 1
def causeHobDroopWarn : Nat := 0
def causeSmkcOvf : Nat := 0

/-- The fields of the common header that are stored (spec/02 R53); PAGE_ID, PAGE_CAP, ERR_ANY and ENABLED are views. -/
def headerFields : List Fld :=
  [ctrlLock, ctrlEnable, statTaint, statDark, statFenced, statShadowPend, intRaw, intEn, errValid, errOverflow, errCode, errDetail, errStk, errCount, latchStk]
/-- The stored fields of one DEV page beside the header. -/
def fieldsDev : List Fld :=
  [devIdPart, devIdGrade, devIdStepMaj, devIdStepMin, devStateShapeOk, devStatePmode, devStateReady, devTilesFencedSvc] ++
  [devTilesLive, devTilesGradeTiles, devSerial, devBadAddrOffset, devScratch] ++
  (List.range 160).map devL2pPhys
/-- The stored fields of one STK page beside the header. -/
def fieldsStk : List Fld :=
  [stkCtrlReplayMax, stkCtrlPairReplay, stkCtrlSyncOutEn, stkCtrlSyncMode, stkCtrlQuenchAct, stkCtrlReplayEn, stkCmdResume, stkCmdQuench] ++
  [stkCmdStop, stkCmdStart, stkPeriod, stkSyncCfgLossN, stkSyncCfgSyncWin, stkStateInBoundary, stkStatePlanStaged, stkStateReplayCnt] ++
  [stkStateSyncLost, stkStateDampChg, stkStateDamper, stkState, stkNum, stkWork, stkResume, stkCycle] ++
  [stkLastUs, stkSyncPhase, stkSyncMissExtra, stkSyncMiss, stkFailNtiles, stkFailTile, stkFailCause, stkFailWork] ++
  [stkMargin]
/-- The stored fields of one INT page beside the header. -/
def fieldsInt : List Fld :=
  [intCtrlEn, intAckVector, intArmed, intFirstValid, intFirstSource, intFirstStk, intSumFar, intSumHob] ++
  (List.range 3).map intSrcSrc ++
  (List.range 5).map intSumTile ++
  (List.range 5).map intSumHp ++
  (List.range 5).map intSumGc ++
  (List.range 6).map intSumFlu ++
  (List.range 80).map intRouteVector
/-- The stored fields of one SEC page beside the header. -/
def fieldsSec : List Fld :=
  [secStateFwSlot, secStateUcSlot, secStateFwKey, secStateUcKey, secStateRevoked, secStateTrngOk, secStateIdent, secLogLost] ++
  [secLogLen, secMselM, secUpdState, secUpdKind, secUpdStatus, secSvnFwImg, secSvnUcImg, secSvnFwFuse] ++
  [secSvnUcFuse] ++
  (List.range 12).map secMdataData
/-- The stored fields of one LCY page beside the header. -/
def fieldsLcy : List Fld :=
  [lcyState, lcyStatePending, lcyStatePendTo, lcyStateNonceOut, lcyLastValid, lcyLastFrom, lcyLastTo, lcyLastSan] ++
  [lcyLastStatus, lcyRefusedCount]
/-- The stored fields of one TND page beside the header. -/
def fieldsTnd : List Fld :=
  [tndCtrlFastNext, tndCmdTrecDiscard, tndBootStep, tndBootFast, tndBootFail, tndResetCause, tndTimeTrainMs, tndTimeTotalMs] ++
  [tndFwVersion, tndHobsDark, tndUcRounds, tndUcPackets, tndUcFenced, tndUcFirstReceiver, tndUcSpareCount, tndTrecState] ++
  [tndTrecCopy, tndTrecChCold, tndTrecChFast, tndTrecLinkFast, tndGddrLive, tndGddrFenced, tndGddrNarrow]
/-- The stored fields of one TRF page beside the header. -/
def fieldsTrf : List Fld :=
  [trfCtrlGuard, trfCtrlLateEn, trfMonWin, trfMonTol, trfBlwStateEff, trfBlwCritCycles, trfLateCount, trfBgrSelCount] ++
  [trfBgrSelHead, trfBgrSelIndex] ++
  (List.range 4).map trfShareW ++
  (List.range 4).map trfGuarG ++
  (List.range 3).map trfBlwT0 ++
  (List.range 3).map trfBlwT1 ++
  (List.range 2).map trfBlwLevel ++
  (List.range 5).map trfMissCount ++
  (List.range 2).map trfWaycapCap ++
  (List.range 4).map trfBgrWord
/-- The stored fields of one THM page beside the header. -/
def fieldsThm : List Fld :=
  [thmCtrlStepMs, thmStateStep, thmStateWarn, thmStatePlausFail, thmStateDiodeBad, thmStateBroken, thmStatePlfail, thmPlausCeMax] ++
  [thmPlausLeakDelta, thmPlausBracket, thmMselDie, thmMselIndex, thmMonEff, thmMonRaw, thmMstatToohot, thmMstatBroken] ++
  [thmTleak, thmFirstPlValid, thmFirstPlCheck, thmFirstPlPart, thmTripValid, thmTripDie, thmTripSource, thmTripMon] ++
  [thmTripReading, thmTripStk] ++
  (List.range 3).map thmThrTrip ++
  (List.range 3).map thmThrDamp ++
  (List.range 3).map thmThrWarn ++
  (List.range 3).map thmThrHyst ++
  (List.range 3).map thmHotEff ++
  (List.range 3).map thmHotDiode
/-- The stored fields of one PWR page beside the header. -/
def fieldsPwr : List Fld :=
  [pwrCtrlRestMin, pwrCtrlRide, pwrCtrlWarnDamper, pwrCtrlHandoffEn, pwrCtrlRestEn, pwrCapWin, pwrCapCapW, pwrStateMode] ++
  [pwrStateWarn, pwrStatePmLinkOk, pwrStateFloor, pwrStateCapFloor, pwrStateDerateFloor, pwrStateRested, pwrPin, pwrVfbVread] ++
  [pwrVfbVset, pwrRailselPage, pwrRailIout, pwrRailVout, pwrPmstatStatus, pwrVminValid, pwrVminHob, pwrVminDeficit] ++
  [pwrVminMv, pwrVminStk, pwrVminCycCycle, pwrWarncntExpired, pwrWarncntAsserts, pwrWarnLastUs]
/-- The stored fields of one SMK page beside the header. -/
def fieldsSmk : List Fld :=
  [smkCtrlSample, smkCtrlDest, smkCmdFlush, smkRingBase, smkRingSizeLog, smkRingHead, smkRingTail, smkHregRegion] ++
  [smkHptrWrapped, smkHptrNext, smkDropCount, smkStateSusp, smkStateFlushing, smkStatePend, smkCtrlTileEn, smkCtrlPartEn] ++
  [smkCtrlBgrEn]
/-- The stored fields of one TIL page beside the header. -/
def fieldsTil : List Fld :=
  [tilCtrlLockPoll, tilStateEntry, tilStateResident, tilStateSlow, tilState, tilLogicalLtile, tilOvrKind, tilOvrEntry] ++
  [tilOvrCycCycle, tilBar0Id, tilBar0Scope, tilBar0Arrived, tilBar0Live, tilBar1Epoch, tilBar1Ctx, tilExcValid] ++
  [tilExcCode, tilExcCtx, tilExcPc, tilExcMaskLanes, tilEvt]
/-- The stored fields of one SEQ page beside the header. -/
def fieldsSeq : List Fld :=
  [seqCtrlRepackEn, seqStateSubgroups, seqStateMerged, seqStateCtxValid, seqMergeMerges, seqSplitSplits] ++
  (List.range 4).map seqCtxEpoch ++
  (List.range 4).map seqCtxDepth ++
  (List.range 4).map seqCtxGroup ++
  (List.range 4).map seqCtxFrag ++
  (List.range 4).map seqCtxParked ++
  (List.range 4).map seqCtxAtBar ++
  (List.range 4).map seqCtxAtEvt ++
  (List.range 4).map seqCtxValid ++
  (List.range 4).map seqLive ++
  (List.range 4).map seqPark
/-- The stored fields of one MXA page beside the header. -/
def fieldsMxa : List Fld :=
  [mxaCtrlFragBurst, mxaCtrlRetryMax, mxaStateDescPend, mxaStateFtqValid, mxaStateSpareFor, mxaStateSlices, mxaState, mxaRowmapOutPhys] ++
  [mxaRowmapChkPhys, mxaChkValid, mxaChkClass, mxaChkAttempt, mxaChkNrows, mxaChkRow, mxaChkCol, mxaErrcntHard] ++
  [mxaErrcntFeedCrc, mxaErrcntTransient, mxaSkipSkipped, mxaFtqHeadToken, mxaFtqHead, mxaFtqValid, mxaFeedStallCycles, mxaFtqStallCycles] ++
  [mxaPassPasses, mxaFlipArm, mxaFlipRow, mxaFlipCol, mxaFlipBit]
/-- The stored fields of one VEC page beside the header. -/
def fieldsVec : List Fld :=
  [vecCtrlEpiShare, vecFill, vecStateEpiPend, vecStateEpiSec, vecStateEpiState, vecXredLevels, vecXredTreeId, vecEpiDoneCount] ++
  [vecEpiWaitCycles, vecSecWaitCycles, vecOobCount, vecEmptyCount, vecStkFlags]
/-- The stored fields of one TLM page beside the header. -/
def fieldsTlm : List Fld :=
  [tlmCtrlKeepLimit, tlmStateSplit, tlmStateWays, tlmStateBadlines, tlmStateCleaning, tlmStateDirty, tlmCleanDirtyMax, tlmCleanCleanAt] ++
  [tlmCrcErrValid, tlmCrcErrKind, tlmCrcErrBank, tlmCrcErrIndex, tlmCrcAddr, tlmErrcntScratch, tlmErrcntDirty, tlmErrcntClean] ++
  [tlmHitCount, tlmMissCount, tlmConflictCycles, tlmDirtyWaitCycles, tlmFlipArm, tlmFlipTarget, tlmFlipBit] ++
  (List.range 16).map tlmBadlineValid ++
  (List.range 16).map tlmBadlineScr ++
  (List.range 16).map tlmBadlineBank ++
  (List.range 16).map tlmBadlineIndex
/-- The stored fields of one HRT page beside the header. -/
def fieldsHrt : List Fld :=
  [hrtCtrlBankUeMax, hrtStatePinned, hrtStateInservice, hrtStateVbuf, hrtStateDrain, hrtPinmaskPinned, hrtRetmaskRetired, hrtHomemapMapid] ++
  [hrtHitCount, hrtMissCount, hrtEvictCount, hrtRedFlags, hrtOrdRankbuf, hrtOrdOpen, hrtOrdRefuseCount, hrtCorrCount] ++
  [hrtUeCount, hrtErrAddr, hrtFlipArm, hrtFlipBank, hrtFlipBit, hrtConflictCycles]
/-- The stored fields of one HRTX page beside the header. -/
def fieldsHrtx : List Fld :=
  [hrtGhostEntries, hrtThrLastReported] ++
  (List.range 24).map hrtBankRole ++
  (List.range 24).map hrtBankUe ++
  (List.range 24).map hrtBankRegion ++
  (List.range 5).map hrtThrLimit ++
  (List.range 5).map hrtThrCount
/-- The stored fields of one GDC page beside the header. -/
def fieldsGdc : List Fld :=
  [gdcCtrlUeFence, gdcCtrlRepairCe, gdcStatePstate, gdcStateSpeed, gdcStateDensity, gdcStateRefx2, gdcStateRepairing, gdcStateLidx] ++
  [gdcStateRpc, gdcRowsUsable, gdcRepairFull, gdcRepairUsed, gdcErrcntUe, gdcErrcntCe, gdcBucketLevel, gdcBucketLeak] ++
  [gdcBucketLimit, gdcRetryCount, gdcFreeCount, gdcErrAddr, gdcFlipArm, gdcFlipBit]
/-- The stored fields of one FLU page beside the header. -/
def fieldsFlu : List Fld :=
  [fluCtrlLaneErrMax, fluCtrlDecay, fluCmdSweep, fluStatePstate, fluStateFaults, fluStateSpares, fluBselBundle, fluBmap2Mask] ++
  [fluBstatMode, fluBstatFaults, fluLselFlue, fluLcntFaulty, fluLcntCount, fluCorrCount, fluUeCount, fluLastValid] ++
  [fluLastSource, fluLastBundle, fluLastFlue, fluFlipArm, fluFlipBundle, fluFlipFlue] ++
  (List.range 10).map fluPortsPort ++
  (List.range 2).map fluBmapMask
/-- The stored fields of one CXP page beside the header. -/
def fieldsCxp : List Fld :=
  [cxpCtrlRetrain, cxpCtrlMaxWidth, cxpCtrlMaxRate, cxpLinkMode, cxpLinkFlit, cxpLinkWidth, cxpLinkRate, cxpLinkCache] ++
  [cxpLinkMem, cxpHdmSize, cxpHdmBase, cxpSfLines, cxpIngBase, cxpXferLate, cxpXferUndone, cxpRetryCount] ++
  [cxpCrcerrCount, cxpPoisonCount, cxpFlipArm, cxpFlipBit]
/-- The stored fields of one FAR page beside the header. -/
def fieldsFar : List Fld :=
  [farCtrlTimeout, farCmdSanitize, farCmdRescan, farState, farStateDirect, farStateVer, farStatePmem, farStateFailwhy] ++
  [farStatePort, farCap, farDevcap, farSanValid, farSanResult, farSanSeconds, farErrcntPoison, farErrcntTimeout]
/-- The stored fields of one KNK page beside the header. -/
def fieldsKnk : List Fld :=
  [knkCtrlRepeatWin, knkCtrlLagMax, knkCtrlDigWait, knkCtrlMinWidth, knkCtrlK1, knkCtrlFwd, knkCtrlRoleReq, knkCtrlPos] ++
  [knkCtrlPairEn, knkCmdKeep, knkCmdRetrain, knkCmdHandoff, knkCmdResyncTx, knkStatePstate, knkStateRole, knkStateDir] ++
  [knkStatePhb, knkStateLinkUp, knkStatePinOk, knkStateWidth, knkStateLag, knkStateSplits, knkHbPeriod, knkHbLoss] ++
  [knkLinkcfgResyncHold, knkLinkcfgLinkLoss, knkLanesInuse, knkLanesGood, knkConfWork, knkMismatchMask, knkSplitValid, knkSplitOutcome] ++
  [knkSplitLoc, knkSplitPfaults, knkSplitWork, knkFaults, knkReloadLoValid, knkReloadLoGen, knkReloadHiWork, knkRetryCount] ++
  [knkFecCount, knkCrcerrCount, knkRsDoneRows, knkFlipArm, knkFlipWord, knkFlipBit] ++
  (List.range 8).map knkDigDigest
/-- The stored fields of one HOB page beside the header. -/
def fieldsHob : List Fld :=
  [hobCtrlDroopWarn, hobCtrlDroopTrip, hobCtrlCrackWarn, hobCtrlCrackTrip, hobState, hobStateFailed, hobStateDerate, hobStateBypass] ++
  [hobSlicesFailed, hobVIout, hobVMv, hobVtgtMv, hobVminValid, hobVminDeficit, hobVminMv, hobVminStk] ++
  [hobVminCycCycle, hobResBase, hobResNow, hobKindleDefer, hobKindleForced, hobKindleCount, hobStretchCycles]
/-- The stored fields of one SMKC page beside the header. -/
def fieldsSmkc : List Fld :=
  [smkCctrlClr, smkCctrlPerstk, smkCctrlEn, smkCstatOvf, smkSnapStk] ++
  (List.range 8).map smkEvselEv ++
  (List.range 8).map smkCnt ++
  (List.range 8).map smkSnap
/-- The stored fields of one FQ page beside the header. -/
def fieldsFq : List Fld :=
  [fqSqBase, fqSizeCqLog, fqSizeSqLog, fqCqBase, fqSqTail, fqCqHead, fqStateEn, fqStateErr] ++
  [fqStateSqHead, fqStateCqTail]

/-- Every stored field of a page of a kind. The queue blocks (spec/17 R580) have no common header. -/
def fieldsOf (k : Kind) : List Fld :=
  match k with
  | .dev => headerFields ++ fieldsDev
  | .stk => headerFields ++ fieldsStk
  | .int => headerFields ++ fieldsInt
  | .sec => headerFields ++ fieldsSec
  | .lcy => headerFields ++ fieldsLcy
  | .tnd => headerFields ++ fieldsTnd
  | .trf => headerFields ++ fieldsTrf
  | .thm => headerFields ++ fieldsThm
  | .pwr => headerFields ++ fieldsPwr
  | .smk => headerFields ++ fieldsSmk
  | .til => headerFields ++ fieldsTil
  | .seq => headerFields ++ fieldsSeq
  | .mxa => headerFields ++ fieldsMxa
  | .vec => headerFields ++ fieldsVec
  | .tlm => headerFields ++ fieldsTlm
  | .hrt => headerFields ++ fieldsHrt
  | .hrtx => headerFields ++ fieldsHrtx
  | .gdc => headerFields ++ fieldsGdc
  | .flu => headerFields ++ fieldsFlu
  | .cxp => headerFields ++ fieldsCxp
  | .far => headerFields ++ fieldsFar
  | .knk => headerFields ++ fieldsKnk
  | .hob => headerFields ++ fieldsHob
  | .smkc => headerFields ++ fieldsSmkc
  | .fq => fieldsFq
/-- PAGE_CAP.HAS_FLIP of a kind of page (spec/02 R53 and the chapters' register rules). -/
def hasFlip (k : Kind) : Bool :=
  match k with
  | .mxa | .tlm | .hrt | .gdc | .flu | .cxp | .knk => true
  | .dev | .stk | .int | .sec | .lcy | .tnd | .trf | .thm | .pwr | .smk | .til | .seq | .vec | .hrtx | .far | .hob | .smkc | .fq => false
/-- PAGE_CAP.HAS_ENABLE of a kind of page (spec/02 R53 and the chapters' register rules). -/
def hasEnable (k : Kind) : Bool :=
  match k with
  | .til | .mxa => true
  | .dev | .stk | .int | .sec | .lcy | .tnd | .trf | .thm | .pwr | .smk | .seq | .vec | .tlm | .hrt | .hrtx | .gdc | .flu | .cxp | .far | .knk | .hob | .smkc | .fq => false
/-- PAGE_CAP.HAS_SHADOW of a kind of page (spec/02 R53 and the chapters' register rules). -/
def hasShadow (k : Kind) : Bool :=
  match k with
  | .stk | .trf | .pwr | .smk | .til | .seq | .mxa | .vec | .tlm | .hrt | .hrtx | .gdc | .flu | .knk | .hob => true
  | .dev | .int | .sec | .lcy | .tnd | .thm | .cxp | .far | .smkc | .fq => false
/-- PAGE_ID.TYPE of a kind of page (spec/02 R72). -/
def typeCode (k : Kind) : Nat :=
  match k with
  | .dev => 0x0001
  | .stk => 0x0002
  | .int => 0x0003
  | .sec => 0x0004
  | .lcy => 0x0005
  | .tnd => 0x0006
  | .trf => 0x0007
  | .thm => 0x0008
  | .pwr => 0x0009
  | .smk => 0x000A
  | .til => 0x0010
  | .seq => 0x0011
  | .mxa => 0x0012
  | .vec => 0x0013
  | .tlm => 0x0014
  | .hrt => 0x0020
  | .hrtx => 0x0021
  | .gdc => 0x0028
  | .flu => 0x0030
  | .cxp => 0x0038
  | .far => 0x0039
  | .knk => 0x003A
  | .hob => 0x0040
  | .smkc => 0x000A
  | .fq => 0x0000
/-- The INT_RAW bits a kind of page uses; the others are reserved. -/
def causeMask (k : Kind) : Nat :=
  match k with
  | .dev => 0x3F
  | .stk => 0x1FF
  | .int => 0x1
  | .sec => 0xF
  | .lcy => 0x7
  | .tnd => 0x1F
  | .trf => 0x1DF
  | .thm => 0x3F
  | .pwr => 0xFF
  | .smk => 0xF
  | .til => 0xF
  | .seq => 0x0
  | .mxa => 0x3F
  | .vec => 0x7
  | .tlm => 0x3F
  | .hrt => 0xFF
  | .hrtx => 0x0
  | .gdc => 0xFF
  | .flu => 0x3F
  | .cxp => 0x7F
  | .far => 0x3F
  | .knk => 0xFFFF
  | .hob => 0xFF
  | .smkc => 0x1
  | .fq => 0x0
/-- A number for each kind, the first part of a register key. -/
def kindIndex (k : Kind) : Nat :=
  match k with
  | .dev => 0
  | .stk => 1
  | .int => 2
  | .sec => 3
  | .lcy => 4
  | .tnd => 5
  | .trf => 6
  | .thm => 7
  | .pwr => 8
  | .smk => 9
  | .til => 10
  | .seq => 11
  | .mxa => 12
  | .vec => 13
  | .tlm => 14
  | .hrt => 15
  | .hrtx => 16
  | .gdc => 17
  | .flu => 18
  | .cxp => 19
  | .far => 20
  | .knk => 21
  | .hob => 22
  | .smkc => 23
  | .fq => 24

end Reg

/-- The key of a field of a page in the register map. -/
def regKey (p : Page) (f : Fld) : Nat := (Reg.kindIndex p.kind + 64 * p.inst) * 32768 + f.bit

end Sys2Proof
end

