-- ==== Sys2Proof/Machine/Sparse.lean ====
section
/-! DEFINITION. Sparse maps: lists of (key, value) pairs with strictly rising keys. They hold the
registers, the memories and the tables of the machine. `setD` keeps no entry equal to the default,
so that equal contents are equal lists. -/
namespace Sys2Proof

/-- A sparse map from Nat keys. -/
abbrev SMap (α : Type) := List (Nat × α)

namespace SMap

/-- The value listed for a key. -/
def find {α : Type} : SMap α → Nat → Option α
  | [], _ => none
  | (k', v) :: m, k => if k = k' then some v else find m k

/-- The value of a key, or the default. -/
def getD {α : Type} (m : SMap α) (k : Nat) (d : α) : α := (find m k).getD d

/-- List a value for a key, in key order. -/
def ins {α : Type} : SMap α → Nat → α → SMap α
  | [], k, v => [(k, v)]
  | (k', v') :: m, k, v =>
    if k < k' then (k, v) :: (k', v') :: m
    else if k = k' then (k, v) :: m
    else (k', v') :: ins m k v

/-- Remove a key, wherever it is listed. -/
def del {α : Type} : SMap α → Nat → SMap α
  | [], _ => []
  | (k', v') :: m, k => if k = k' then del m k else (k', v') :: del m k

/-- Write a value, keeping no entry equal to the default. -/
def setD {α : Type} [DecidableEq α] (m : SMap α) (k : Nat) (d v : α) : SMap α :=
  if v = d then del m k else ins m k v

/-- Change the value of a key by a function. -/
def modD {α : Type} [DecidableEq α] (m : SMap α) (k : Nat) (d : α) (f : α → α) : SMap α :=
  setD m k d (f (getD m k d))

/-- Every key of the list is above a bound, and the keys rise. -/
def rising {α : Type} : Nat → SMap α → Bool
  | _, [] => true
  | b, (k, _) :: m => decide (b ≤ k) && rising (k + 1) m

/-- The canonical form: keys rise strictly, and no entry is the default. -/
def wf {α : Type} [DecidableEq α] (d : α) (m : SMap α) : Bool :=
  rising 0 m && m.all (fun e => decide (e.2 ≠ d))

end SMap

end Sys2Proof
end

