-- ==== Sys2Proof/Machine/State.lean ====
section
/-! DEFINITION. The state of the CX-4 as plain data, and the state after reset. Registers live in one
sparse map of fields (Machine/Fields.lean gives each field's place and reset value); everything the
spec gives the machine beside its registers has a field of its own. -/
namespace Sys2Proof.Machine

/-- Why a step could stop with a fault: there is no reason. The spec lets no command stop the CX-4; errors are
captured in registers and the stoke fails (spec/02 R67, spec/01 R29), which are effects on State. -/
inductive Fault where
  deriving DecidableEq, Repr

/-- Why a step could be refused. -/
inductive Refusal where
  /-- The command has no meaning yet; raised by the arms of exec only. Safe. -/
  | notModelled (mnemonic : String)
  deriving DecidableEq, Repr

/-- What the CX-4 puts on its interfaces, in order (spec/02 R77; spec/16; spec/17; spec/23). -/
inductive Output where
  /-- an MSI-X message (R77, R596) -/
  | msix (vector : Nat)
  /-- a posted write to host memory; `bad` lists poisoned 8-byte groups -/
  | hostWrite (addr : Nat) (data : List Byte) (bad : List Nat)
  /-- a completion entry of a feed queue: ring slot and bytes (R582, R595) -/
  | completion (queue slot : Nat) (data : List Byte)
  /-- data answered to a read: value, width in bits and poison -/
  | readData (value width : Nat) (poison : Bool)
  /-- a message sent to the partner on Kenka: MTYPE, words after the header, poisoned words of these (R537) -/
  | kenka (mtype : Nat) (words bad : List Nat)
  /-- a block of four flits dealt to the lanes in use: the symbols of each lane (R531) -/
  | kenkaBlock (lanes : List (List (BitVec 10)))
  /-- a Kenka ACK or NAK of a sequence number (R534) -/
  | kenkaAck (seq : Nat) (nak : Bool)
  /-- a pin driven: name and level (R731) -/
  | pin (name : String) (high : Bool)
  /-- a pulse driven on a pin: name and code -/
  | pulse (name : String) (code : Nat)
  /-- a far-tier request: slot, address, write data (none for a read), its poisoned 8-byte groups and its byte mask -/
  | farRequest (slot addr : Nat) (write : Bool) (data : List Byte) (bad : List Nat) (mask : Nat)
  /-- a request to the host: kind and address (RdCurr, BISnpInv, memory read) -/
  | hostRequest (kind : String) (addr len : Nat)
  /-- bytes answered on a mailbox, the I3C bus or a configuration request -/
  | response (port : String) (data : List Byte)
  /-- bits shifted out on TDO -/
  | tdo (value width : Nat)
  deriving DecidableEq, Repr

/-! ## The stoke unit (spec/01) -/

/-- Where the current stoke stands (spec/01 R26). -/
inductive Phase where
  | work | drain | writeback | committed | decided | latched | tabled | cutoff
  deriving DecidableEq, Repr

/-- The order of the phases. -/
def Phase.rank : Phase → Nat
  | .work => 0 | .drain => 1 | .writeback => 2 | .committed => 3
  | .decided => 4 | .latched => 5 | .tabled => 6 | .cutoff => 7

/-- Why a staged plan may latch at this boundary (spec/13 R479). -/
inductive LatchWay where
  | none | clean | start | resume
  deriving DecidableEq, Repr

/-- What the stoke unit holds beside its registers (spec/01). -/
structure StokeUnit where
  phase : Phase
  /-- period in cy of the current stoke, and of the next (R16, R45) -/
  period : Nat
  nextPeriod : Nat
  /-- commands waiting for the next replay decision (R51) -/
  startCmd : Bool
  resumeCmd : Bool
  stopCmd : Bool
  /-- causes that failed the current stoke, first first, and those that fail the next one, with the local cycle of the
  first of each (R29, R754) -/
  fails : List Nat
  failsNext : List Nat
  failAt : Nat
  nextAt : Nat
  /-- a quench took effect in the current stoke, and whether it leads to HELD whatever QUENCH_ACT holds -/
  quenched : Bool
  quenchHold : Bool
  /-- a quench after the commit point, acting on the following stoke (R43) -/
  quenchNext : Bool
  quenchHoldNext : Bool
  /-- the work stoke named by a partner notice received for this boundary (R36) -/
  notice : Option Nat
  /-- the work stoke chosen for replay at this boundary (R39) -/
  chosen : Option Nat
  /-- work stoke number of the next stoke, as the decision and the cutoff set it (R31, R36) -/
  nextWork : Nat
  /-- REPLAY_CNT before the decision, for a notice that arrives after it (R36) -/
  countWas : Nat
  /-- the ending stoke was clean -/
  endClean : Bool
  latchWay : LatchWay
  /-- a plan latched at this boundary -/
  latched : Bool
  /-- a quench abandoned the current stoke at its cycle 0 (R43) -/
  abandoned : Bool
  /-- STOP, or a withdrawal of the active plan, acts at the cutoff (R36, R483) -/
  stopAtCutoff : Bool
  /-- local cycle of the counted edge of this stoke (R24) -/
  edge : Option Nat
  /-- consecutive stokes without a counted edge (R25) -/
  noEdge : Nat
  /-- the last stoke was a follower's stoke started by SYNC_WIN (R23) -/
  ownStart : Bool
  /-- logical tiles in overrun at B -/
  overruns : List Nat
  /-- a plan work stoke runs in the current stoke (RUN or REPLAY at cycle 0) -/
  working : Bool
  /-- the current stoke repeats a work stoke (R39) -/
  replaying : Bool
  /-- PAIR_REPLAY_LATE was set: a notice of the own pair logic is due (R549) -/
  lateNotice : Bool
  deriving DecidableEq, Repr

/-- The stoke unit at reset. -/
def StokeUnit.atReset : StokeUnit :=
  { phase := .work, period := 940000, nextPeriod := 940000, startCmd := false, resumeCmd := false,
    stopCmd := false, fails := [], failsNext := [], failAt := 0, nextAt := 0, quenched := false, quenchHold := false,
    quenchNext := false, quenchHoldNext := false, notice := none, chosen := none, nextWork := 0, countWas := 0,
    endClean := true, latchWay := .none, latched := false, abandoned := false,
    stopAtCutoff := false, edge := none, noEdge := 0, ownStart := false, overruns := [],
    working := false, replaying := false, lateNotice := false }

/-- One access of a load: where its value goes (a vector register and lane, or a scalar register when
`lane` is 32), its size in bytes and its address. -/
structure LoadAcc where
  reg : Nat
  lane : Nat
  size : Nat
  addr : Nat
  deriving DecidableEq, Repr

/-! ## Tiles (spec/03 to spec/08) -/

/-- What a subgroup waits for (spec/03 R104, R114, R122; spec/04 R147, R752). -/
inductive Wait where
  | ready
  /-- at the join address of the top split-stack entry (R104) -/
  | join
  /-- at a barrier; `launch` true for BAR.L (R114) -/
  | bar (launch : Bool) (id : Nat)
  /-- on an event flag (R752) -/
  | evt (flag : Nat)
  /-- on descriptor operations of a token (R163) -/
  | tok (ops : List Nat)
  /-- parked on a lock word (R122) -/
  | park (glob : Bool) (addr : Nat)
  /-- for load data from the hearth (R282); the accesses still to complete -/
  | fill (accs : List LoadAcc) (hint : Nat)
  /-- for the old values of atomics performed at partitions (R155) -/
  | atom (reqs : List Nat)
  /-- in FENCE.H, or FENCE.X when `far` (R129, R130) -/
  | fence (far : Bool)
  /-- for the release of an MXF.MMA (R195) -/
  | mma (id : Nat)
  deriving DecidableEq, Repr

/-- A subgroup: lanes at one PC (spec/03, Groups, subgroups and issue). -/
structure Sub where
  pc : Nat
  mask : BitVec 32
  epoch : Nat
  wait : Wait
  deriving DecidableEq, Repr

/-- A resident thread group in its context (spec/03 R87, R97, R103; spec/06 R229; spec/14 R497). -/
structure Ctx where
  /-- index of the LAUNCH entry the group belongs to -/
  entry : Nat
  group : Nat
  live : BitVec 32
  subs : List Sub
  /-- split stack, top first: join address and mask (R103) -/
  stack : List (Nat × BitVec 32)
  /-- V registers: key 32 × register + lane; 0 where not listed -/
  v : SMap Word32
  /-- poisoned bytes of V registers, 4 bits per key of `v` (R497) -/
  vp : SMap Nat
  s : SMap Word64
  /-- poisoned bytes of S registers, 8 bits each -/
  sp : SMap Nat
  q : SMap Word32
  flags : Nat
  /-- held locks: lane, global or scratchpad, address (R126) -/
  locks : List (Nat × Bool × Nat)
  /-- the group holds matrix fragments (R113) -/
  frag : Bool
  /-- reductions sent and not acknowledged (R129) -/
  reds : Nat
  deriving DecidableEq, Repr

/-- One L1 line (spec/08 R281, R284). -/
structure L1Line where
  /-- global address of the line's first byte -/
  addr : Nat
  valid : BitVec 64
  dirty : BitVec 64
  poison : BitVec 8
  data : Line512
  age : Nat
  keep : Bool
  hint : Nat
  /-- sum of the write-hash terms merged since the last write-back (spec/16 R543) -/
  hash : Nat
  /-- the CRC-32C that the line carries, XOR that of its data: 0 while the line is sound (R296) -/
  crcDiff : BitVec 32
  deriving DecidableEq, Repr

/-- An issued MXD.MMA descriptor (spec/05 R179, R183, R185). -/
structure MxDesc where
  words : List Nat
  type : Nat
  token : Nat
  op : Nat
  ctx : Nat
  /-- serial number of the group, so that flags reach only the issuing group -/
  serial : Nat
  pass : Nat
  flags : Nat
  deriving DecidableEq, Repr

/-- An issued MXF.MMA not yet released: its type, slice count and destination, its fragments A, B and C row by row as the
registers hold them, with poison, and whether its issue poisons every result (R194, R195; spec/14 R493, R496). -/
structure MxFrag where
  id : Nat
  ctx : Nat
  serial : Nat
  type : Nat
  slices : Nat
  fd : Nat
  a : List (Nat × Bool)
  b : List (Nat × Bool)
  c : List (Nat × Bool)
  spoilt : Bool
  deriving DecidableEq, Repr

/-- A 64-byte line of a finished-tile queue entry: data, poisoned words and line CRC (spec/14 R492). -/
structure FtqLine where
  data : Line512
  bad : BitVec 8
  crc : BitVec 32
  deriving DecidableEq, Repr

/-- A finished-tile queue entry: its tag and its 256 lines (spec/05 R196, R197). -/
structure FtqEntry where
  token : Nat
  mti : Nat
  nti : Nat
  out : Nat
  half : Nat
  last : Bool
  lines : List FtqLine
  deriving DecidableEq, Repr

/-- An entry of a feeder (spec/05 R175). -/
structure FeedEntry where
  data : BitVec 512
  scale : BitVec 32
  crc : BitVec 32
  type : BitVec 4
  pass : BitVec 4
  last : Bool
  poison : Bool
  deriving DecidableEq, Repr

/-- Where the array stands between attempts of one pass (spec/05 R207 to R213). -/
inductive MxPhase where
  | ready
  /-- 40 cy before a retry (R207) -/
  | retryWait
  /-- the retry runs -/
  | again
  /-- 107 cy of a substitution (R210) -/
  | substWait
  deriving DecidableEq, Repr

/-- A failed attempt's class (spec/05 R206). -/
inductive MxClass where
  | row (r : Nat)
  | checksumRow
  | multiple
  | feederCrc
  deriving DecidableEq, Repr

/-- The attempts of the pass or fragment instruction that the array runs again: everything behind it follows it, on either path
(spec/05 R206 to R212). -/
structure MxRun where
  phase : MxPhase
  /-- the attempts are those of the oldest fragment instruction -/
  frag : Bool
  attempt : Nat
  lastClass : Option MxClass
  /-- the spare row was substituted for it -/
  substituted : Bool
  deriving DecidableEq, Repr

def MxRun.fresh : MxRun := { phase := .ready, frag := false, attempt := 0, lastClass := none, substituted := false }

/-- A pass that has passed its checks, or retired the array, and waits for free queue entries: its results as GW80 words row by
row, and its flags (spec/05 R198, R203). -/
structure MxHeld where
  words : List (BitVec 80)
  flags : Nat
  deriving DecidableEq, Repr

/-- The matrix array of a tile (spec/05). -/
structure MxArray where
  descs : List MxDesc
  frags : List MxFrag
  ftq : List FtqEntry
  ftqHead : Nat
  /-- the failed attempts of the pass or fragment instruction that runs -/
  run : MxRun
  /-- the feeder queues, at most 32 entries each: what an aborted pass has left in them (R175, R204); 0 to 65 the physical rows,
  66 to 130 the columns -/
  feeds : SMap (List FeedEntry)
  /-- passes started, for the PASS field of their entries (R175) -/
  passNo : Nat
  /-- the pass that waits for free entries of the finished-tile queue (R198) -/
  held : Option MxHeld
  /-- the row being substituted: logical data row, or 64 for the checksum row -/
  faulty : Nat
  retired : Bool
  deriving DecidableEq, Repr

def MxArray.idle : MxArray :=
  { descs := [], frags := [], ftq := [], ftqHead := 0, run := .fresh, feeds := [], passNo := 0, held := none, faulty := 0, retired := false }

/-- An issued VEC.EPI (spec/07 R257, R264). -/
structure Epi where
  words : List Nat
  type : Nat
  token : Nat
  op : Nat
  ctx : Nat
  serial : Nat
  /-- the head tile it streams, once it has started: the entries are free then (R266) -/
  tile : List FtqEntry
  deriving DecidableEq, Repr

/-- The operations that descriptors start. -/
inductive OpKind where
  | mxd
  | epi
  | cpy
  deriving DecidableEq, Repr

/-- A descriptor operation whose work is done but for far-tier writes that are not acknowledged (spec/05 R186; spec/07 R267;
spec/09 R354): the group its flags belong to, and the flags. -/
structure Closing where
  op : Nat
  ctx : Nat
  serial : Nat
  flags : Nat
  /-- what it is: it counts as issued until it completes -/
  kind : OpKind
  deriving DecidableEq, Repr

/-- An issued copy-engine transfer (spec/09 R349 to R354). -/
structure Copy where
  words : List Nat
  token : Nat
  op : Nat
  deriving DecidableEq, Repr

/-- What a tile held in the cycle in which it entered overrun: its groups go on within that cycle, so that later commands of
the same cycle still count (spec/03 R99, R100, R133); the state that TIL_STATE showed before. -/
structure StopRec where
  cyc : Nat
  ctxs : SMap Ctx
  serials : SMap Nat
  resident : List (Nat × Nat)
  state : Nat
  deriving DecidableEq, Repr

/-- A line of the instruction cache: its address, the poison of its eight words as they were filled, and its age in its set
(spec/03 R87, R89, R753). -/
structure IcLine where
  addr : Nat
  bad : BitVec 8
  age : Nat
  deriving DecidableEq, Repr

/-- A lock granted in the current cycle: which word, when, and to which lane, with the PC of its LOCK.ACQ (spec/03 R121). -/
structure Won where
  glob : Bool
  addr : Nat
  cyc : Nat
  ctx : Nat
  lane : Nat
  pc : Nat
  deriving DecidableEq, Repr

/-- A request that a tile has sent to the hearth and that has not reached a partition (spec/08 R287 to R289): its first byte and
length, for a write the bytes of the row it covers, and its hint. -/
structure Ask where
  addr : Nat
  len : Nat
  write : Bool
  mask : BitVec 512
  hint : Nat
  deriving DecidableEq, Repr

/-- An enabled tile (spec/03 R87). TIL_, SEQ_, MXA_, VEC_ and TLM_ registers are in the register map. -/
structure Tile where
  /-- key: context 0 to 31 -/
  ctxs : SMap Ctx
  /-- serial number of the next group placed, and of each context's group -/
  serials : SMap Nat
  nextSerial : Nat
  /-- a launch has issued in this stoke (R96) -/
  launched : Bool
  /-- the tile is in overrun (R99, R101) -/
  overrun : Bool
  /-- what it held then, for the rest of that cycle -/
  stop : Option StopRec
  /-- locks granted in the latest cycle in which one was (R121) -/
  won : List Won
  /-- the instruction cache, 128 sets of 4 ways: key 4 × set + way (R87, R89) -/
  icache : SMap IcLine
  /-- an exception was captured in this stoke (R133) -/
  excTaken : Bool
  /-- the latest cycle at which a group exited (STK_MARGIN) -/
  lastExit : Nat
  /-- a launch has issued since the tile came up: cycles that it waited are no longer known to be 0 (notes/assumptions/30.md) -/
  ran : Bool
  /-- operations pending on tokens: operation number and token (R162, R163) -/
  ops : List (Nat × Nat)
  nextOp : Nat
  scratch : SMap Byte
  /-- poisoned 8-byte words of scratchpad -/
  scratchBad : SMap Bool
  /-- the CRC-32C that a scratchpad line carries, XOR that of its data, by byte address: 0 while the line is sound (R296) -/
  scratchDiff : SMap (BitVec 32)
  /-- scratchpad lines that mismatched and stay poisoned until the boundary (R297) -/
  scratchStuck : List Nat
  /-- key: 32 × set + bank, the way (R299); invalid lines are not listed -/
  l1 : SMap L1Line
  /-- L1 keys filled again in this stoke after a mismatch (R297) -/
  refilled : List Nat
  /-- sets and ways retired when the bad-line table had no room for them: 32 × set + bank (R297) -/
  lostWays : List Nat
  /-- requests sent to the hearth, oldest first -/
  asked : List Ask
  /-- words of rows read that were lost in transit to the tile (spec/10 R380) -/
  lostIn : List Nat
  cleanPtr : Nat
  mx : MxArray
  epis : List Epi
  copies : List Copy
  /-- far-tier writes sent and not acknowledged (R130), and those of each descriptor operation -/
  farWrites : Nat
  opWrites : SMap Nat
  closing : List Closing
  /-- the tile is marked slow (spec/10 R384) -/
  slow : Bool
  /-- V issues of the stoke, and one issued under DET without VALLOW (spec/15 R521, R522) -/
  vIssues : Nat
  vStray : Bool
  /-- the entry being held as resident launches: index and effective deadline (R98) -/
  resident : List (Nat × Nat)
  /-- MARK_IDs placed in the trace record of this stoke (R90) -/
  marks : List Nat
  /-- barrier stall captured in this stoke, for the trace record (R118) -/
  barStall : Bool
  /-- the tile consumed poison in this stoke (R496) -/
  poisonUsed : Bool
  /-- the tile is to be fenced at the next latch point -/
  fencePending : Bool
  deriving DecidableEq, Repr

/-- The fields of a tile with nothing resident and nothing held. -/
def Tile.empty : Tile :=
  { ctxs := [], serials := [], nextSerial := 0, launched := false, overrun := false, stop := none, won := [], icache := [],
    excTaken := false, lastExit := 0, ran := false, ops := [], nextOp := 0, scratch := [], scratchBad := [],
    scratchDiff := [], scratchStuck := [], l1 := [], refilled := [], lostWays := [], asked := [], lostIn := [], cleanPtr := 0,
    mx := MxArray.idle,
    epis := [], copies := [], farWrites := 0, opWrites := [], closing := [], slow := false, vIssues := 0, vStray := false,
    resident := [], marks := [], barStall := false, poisonUsed := false,
    fencePending := false }

/-! ## Firing plans (spec/13) -/

/-- A region entry (spec/13 R454). -/
structure Region where
  id : Nat
  kind : Nat
  attr : Nat
  base : Nat
  len : Nat
  ck : Nat
  /-- reserved bytes 4 to 7 as the image has them -/
  rsv : Nat
  deriving DecidableEq, Repr

/-- A pin entry (spec/13 R457). -/
structure Pin where
  part : Nat
  first : Nat
  count : Nat
  region : Nat
  /-- reserved bytes 3, 6 and 7 as the image has them -/
  rsv : Nat
  deriving DecidableEq, Repr

/-- A decoded plan (spec/13 R451 to R457). The slot tables are kept as bytes: they change timing only (R449). -/
structure Plan where
  flags : Nat
  imageLen : Nat
  nphase : Nat
  tiles : Nat
  slices : Nat
  treeId : Nat
  period : Nat
  wlStride : Nat
  seed : Nat
  fill : Nat
  pmapId : Nat
  cmapId : Nat
  cxp1Req : Nat
  svcMap : Nat
  share : Nat
  guar : Nat
  ucodeHash : List Byte
  planHash : List Byte
  imageHash : List Byte
  tileMap : Nat
  slowTiles : Nat
  slowChan : Nat
  slowSvc : Nat
  narrowChan : Nat
  regions : List Region
  pins : List Pin
  wldir : List Nat
  dmadir : List Nat
  phases : List Nat
  rtab : List Byte
  hframe : List Byte
  cframe : List Byte
  /-- HLOAD targets and bodies, with their directory indexes -/
  hloads : List (Nat × Nat × List Byte)
  /-- per logical tile and phase, whether the work list starts with another entry than END: read from the lists at the
  staging (spec/19 R650) -/
  starts : List (List Bool)
  deriving DecidableEq, Repr

/-- An image being loaded or staged (spec/13 R470 to R478). -/
structure Staging where
  tag : Option Nat
  addr : Nat
  len : Nat
  swapAt : Nat
  /-- STAGE of the status word: 1 reading, 2 draining, 3 checking, 4 staged -/
  stage : Nat
  code : Nat
  detail : Nat
  plan : Option Plan
  deriving DecidableEq, Repr

/-- A planned DMA transfer in flight (spec/13 R461). -/
structure DmaRun where
  part : Nat
  index : Nat
  src : Nat
  dst : Nat
  len : Nat
  flagTile : Nat
  flag : Nat
  deriving DecidableEq, Repr

/-- A checkpoint copy (spec/13 R466 to R469), with the regions and the hash of the plan that makes it. -/
structure CkptCopy where
  work : Nat
  gen : Nat
  regions : List Region
  planHash : List Byte
  /-- frozen blocks still to copy: region id and block number -/
  todo : List (Nat × Nat)
  isVoid : Bool
  /-- every block is copied and the record says complete (R468, R469) -/
  finished : Bool
  deriving DecidableEq, Repr

/-- Everything about plans (spec/13). -/
structure Plans where
  active : Option Plan
  staging : Option Staging
  /-- status word of the last image refused or withdrawn, and of the active plan (R478) -/
  lastStatus : Nat
  activeStatus : Nat
  /-- pin map in force: that of the last plan to latch (R484) -/
  pins : List Pin
  /-- regions of the last plan to latch (spec/22 R713) -/
  regions : List Region
  /-- next DMA descriptor of each partition, and transfers in flight -/
  dmaNext : SMap Nat
  dmaLast : SMap Bool
  dmaRun : List DmaRun
  /-- dirty bits per region block and generation: key (region × 2^16 + block) × 2 + generation (R466) -/
  ckDirty : SMap Bool
  /-- the plan that a latch replaced, with its dirty bits, until the tables switch (R26, R467) -/
  ended : Option (Plan × SMap Bool)
  ckpt : Option CkptCopy
  /-- bank drains that a validated plan waits for (R315): partition × 32 + bank -/
  draining : List Nat
  deriving DecidableEq, Repr

def Plans.none : Plans :=
  { active := Option.none, staging := Option.none, lastStatus := 0, activeStatus := 0, pins := [], regions := [],
    dmaNext := [], dmaLast := [], dmaRun := [], ckDirty := [], ended := Option.none, ckpt := Option.none,
    draining := [] }

/-! ## Hearth, traffic, near and far memory (spec/09, spec/11, spec/12) -/

/-- A broken-guarantee record: the four words of R445. -/
structure BgRecord where
  w0 : Nat
  stk : Nat
  cycle : Nat
  slots : Nat
  deriving DecidableEq, Repr

/-- A hearth cache line (R323) and the class that filled it (R438). The data itself is in `mem`. -/
structure CLine where
  /-- row number w of R320 -/
  row : Nat
  valid : BitVec 8
  dirty : BitVec 8
  age : Nat
  /-- reductions and atomics accepted on the line and not yet applied (R343) -/
  rp : Nat
  tc : Nat
  /-- sectors written in part that wait for their fill (R325) -/
  want : BitVec 8
  deriving DecidableEq, Repr

/-- A line in a victim buffer (R344, R346). -/
structure VbLine where
  row : Nat
  valid : BitVec 8
  dirty : BitVec 8
  rp : Nat
  want : BitVec 8
  /-- the write-back has been issued and is not acknowledged -/
  sent : Bool
  tc : Nat
  deriving DecidableEq, Repr

/-- One lane's part of a reduction or atomic request. -/
structure RedOp where
  /-- lane, or 32 for a scalar operand -/
  lane : Nat
  addr : Nat
  val : Nat
  /-- the new value of a CAS (R156) -/
  new : Nat
  bad : Bool
  /-- destination register of an ATOM -/
  reg : Nat
  rank : Nat
  count : Nat
  deriving DecidableEq, Repr

/-- A reduction or atomic request: the words of one 64-byte sector named by one instruction (R331). -/
structure RedReq where
  id : Nat
  part : Nat
  tile : Nat
  ctx : Nat
  serial : Nat
  /-- OP code of format M -/
  op : Nat
  type : Nat
  hint : Nat
  ops : List RedOp
  deriving DecidableEq, Repr

/-- A contribution in the rank buffer (R337), with the request it came in. -/
structure OrdHeld where
  rank : Nat
  val : Nat
  bad : Bool
  tile : Nat
  ctx : Nat
  serial : Nat
  deriving DecidableEq, Repr

/-- An open entry of the ordered-add table (R338). -/
structure OrdEntry where
  addr : Nat
  type : Nat
  count : Nat
  next : Nat
  held : List OrdHeld
  deriving DecidableEq, Repr

/-- What waits for a far-tier request (spec/11 R416). -/
inductive FarOwner where
  /-- an L1 fill of a tile -/
  | fill (tile : Nat)
  /-- a store or write-back of a tile (FENCE.X waits for it, R130) -/
  | store (tile : Nat)
  /-- a result of a descriptor operation of a tile, by operation number: the token waits for it (R186, R267, R354) -/
  | result (tile op : Nat)
  /-- a planned DMA transfer or a checkpoint copy -/
  | service
  deriving DecidableEq, Repr

/-- A far-tier request without completion. -/
structure FarReq where
  id : Nat
  slot : Nat
  addr : Nat
  len : Nat
  write : Bool
  owner : FarOwner
  deriving DecidableEq, Repr

/-- A far-tier line that has arrived and is not yet installed. -/
structure FarLine where
  data : Line512
  bad : BitVec 8
  deriving DecidableEq, Repr

/-- The hearth, the channels and the far tier, beside their registers. -/
structure Memory where
  /-- key: (1,024 × partition + set) × 32 + bank (R320) -/
  cache : SMap CLine
  vbuf : SMap (List VbLine)
  /-- rows last evicted by a partition, oldest first, at most 256 (R356) -/
  ghost : SMap (List Nat)
  /-- classes whose thrash a partition has reported in this stoke (R357) -/
  thrashed : SMap Nat
  redSent : List RedReq
  redAcc : List RedReq
  nextReq : Nat
  ordTab : SMap (List OrdEntry)
  ordWait : List RedReq
  farReqs : List FarReq
  nextFar : Nat
  farBuf : SMap FarLine
  /-- requests that wait at a partition's controller, oldest first (R328, R346; spec/12 R429) -/
  waiting : SMap (List HearthReq)
  /-- share arbiters: the credits of TC1 to TC4, and the free slots of the current run of 64; key 4096 × site + instance
  (spec/12 R430, R435) -/
  shares : SMap (List Int × Nat)
  /-- fills of the buffers of the two bellows masters, in sixteenths (spec/12 R434) -/
  fills : SMap Nat
  /-- guarded words whose cells do not hold the word last written, by word address: the bits inverted, in hearth banks and in
  GDDR7 devices (spec/14 R485) -/
  bankErr : SMap (BitVec 80)
  devErr : SMap (BitVec 80)
  /-- correction write-backs due, by word address (R500) -/
  corrections : List Nat
  /-- near-memory wipe in progress (R411) -/
  wiping : Bool
  /-- repair table: key channel × 2^20 + data block, value pool block (R407, R408) -/
  repairs : SMap Nat
  /-- repair copy running per channel: data block and pool block -/
  repairing : SMap (Nat × Nat)
  /-- data blocks that wait for a repair to end on their channel; keys as `repairs` (R406) -/
  repairDue : List Nat
  /-- corrected words per data block in this stoke (R406); key as `repairs` -/
  blockCe : SMap Nat
  /-- uncorrectable accesses per channel in this stoke (R410) -/
  chanUe : SMap Nat
  /-- channels whose bucket is disarmed (R503) -/
  disarmed : SMap Bool
  /-- banks (24 × partition + bank), partitions, channels and service ports to retire or fence at the next latch point -/
  retireBanks : List Nat
  fenceParts : List Nat
  fenceChans : List Nat
  /-- the ring of broken-guarantee records, by entry (R446) -/
  bgr : SMap BgRecord
  /-- broken-guarantee records of this stoke (R446) -/
  bgrStoke : List BgRecord
  deriving DecidableEq, Repr

def Memory.empty : Memory :=
  { cache := [], vbuf := [], ghost := [], thrashed := [], redSent := [], redAcc := [], nextReq := 0,
    ordTab := [], ordWait := [], farReqs := [], nextFar := 0, farBuf := [], waiting := [], shares := [], fills := [], bankErr := [], devErr := [],
    corrections := [], wiping := false, repairs := [], repairing := [], repairDue := [], blockCe := [], chanUe := [],
    disarmed := [], retireBanks := [], fenceParts := [], fenceChans := [], bgr := [], bgrStoke := [] }

/-- Contents that the spec leaves undefined: the regions that a failed stoke wrote, once the stoke unit is HELD or IDLE
(spec/01 R40, R758; notes/assumptions/61.md). -/
structure Vague where
  /-- ids of the regions that the current work stoke has written -/
  wrote : List Nat
  /-- undefined extents: base, length, and the serial number of their free contents -/
  extents : List (Nat × Nat × Nat)
  /-- bytes of these extents that have been written since -/
  redone : SMap Bool
  deriving DecidableEq, Repr

def Vague.none : Vague := { wrote := [], extents := [], redone := [] }

/-! ## Flues (spec/10) -/

/-- The flue ports of the stack. A page is a tile flue port 0 to 159 or the lower page 256 + k of hob group k. -/
structure Flues where
  /-- fault mask in effect, 68 bits: key 256 × page + bundle (R369) -/
  masks : SMap Nat
  /-- lane counts: key 128 × (256 × page + bundle) + flue (R378) -/
  counts : SMap Nat
  /-- flues declared faulty and not yet applied: page, bundle, flue (R382) -/
  declared : List (Nat × Nat × Nat)
  /-- ports with a sweep requested: key 16 × page + port (R380, R381) -/
  sweeps : SMap Bool
  /-- port states in effect, 0 full width, 1 slow, 2 failed: key 16 × page + port (R371, R387) -/
  ports : SMap Nat
  deriving DecidableEq, Repr

def Flues.none : Flues := { masks := [], counts := [], declared := [], sweeps := [], ports := [] }

/-! ## The determinism record (spec/15) -/

/-- What the determinism record holds beside the registers and the active plan (R515, R521, R523). -/
structure Record where
  taint : Bool
  /-- SHA-384 hash of the loaded microcode bundle -/
  ucodeHash : List Byte
  vcount : Nat
  /-- work stoke of the first V issue since the plan latched -/
  vfirst : Option Nat
  vstray : Bool
  /-- bytes 0 to 119 as they stood at the last latch point (R519, R537) -/
  atLatch : List Byte
  deriving DecidableEq, Repr

def Record.atReset : Record :=
  { taint := false, ucodeHash := List.replicate 48 0, vcount := 0, vfirst := none, vstray := false, atLatch := [] }

/-! ## Running as a pair (spec/16) -/

/-- A digest record: what a DIGEST message carries (R537), and the 304 hashes of an own record (R545). -/
structure DigRec where
  /-- number of the chain of START or RESUME it belongs to, in an own record (R547) -/
  chain : Nat
  work : Nat
  dg : List Nat
  run : Nat
  isVoid : Bool
  crc : Nat
  faults : Nat
  devStk : Nat
  hashes : List Nat
  deriving DecidableEq, Repr

/-- A SPLIT message sent or received: work stoke, fault summary, hashes. -/
structure SplitMsg where
  work : Nat
  faults : Nat
  hashes : List Nat
  deriving DecidableEq, Repr

/-- A checkpoint generation record (R469). -/
structure CkptRec where
  work : Nat
  state : Nat
  planHash : List Byte
  deriving DecidableEq, Repr

/-- Where a resynchronisation stands (R562). -/
inductive ResyncStep where
  /-- sender: waits for a clean stoke; receiver: waits to be HELD -/
  | hold
  /-- waits for the partner's record -/
  | record
  /-- rows are copied -/
  | copy
  deriving DecidableEq, Repr

/-- A resynchronisation in progress. -/
structure Resync where
  step : ResyncStep
  rows : Nat
  /-- address just past the last row acknowledged -/
  acked : Nat
  paused : Bool
  deriving DecidableEq, Repr

/-- A message to the partner that is not wholly sent: MTYPE, words after the header, the poisoned of these, and its flits sent
(spec/16 R537). -/
structure KnkMsg where
  mtype : Nat
  words : List Nat
  bad : List Nat
  sent : Nat
  deriving DecidableEq, Repr

/-- A data flit: class code, sequence number, 30 payload words and their poison bits (spec/16 R532). -/
structure KnkFlit where
  tc : Nat
  seq : Nat
  words : List Nat
  poison : Nat
  deriving DecidableEq, Repr

/-- The Kenka link and the pair logic, beside their registers. -/
structure Pair where
  /-- the mirror journal, oldest first, at most 65,536 records (R545) -/
  journal : List DigRec
  /-- partner records held, oldest first, and those not yet compared (R546) -/
  theirs : List DigRec
  fresh : List DigRec
  /-- work stokes found equal above KNK_CONF (R547) -/
  confirmed : List Nat
  /-- a chain has started, and the number of chains started by START or RESUME (R547) -/
  chainOn : Bool
  chainNo : Nat
  /-- last work stoke whose run ended clean (R757) -/
  lastClean : Option Nat
  /-- own records whose partner record is awaited: work stoke and device stoke of closing (R548) -/
  awaited : List (Nat × Nat)
  /-- the partner's last record; it matched the own one when compared since the link came up (R519) -/
  partnerRec : Option (List Byte)
  matched : Bool
  /-- a HEARTBEAT has come since the link came up -/
  hbSeen : Bool
  /-- what the partner last reported: pair state, coded role LIT, position B, current work stoke -/
  partnerState : Nat
  partnerLit : Bool
  partnerPos : Bool
  partnerWork : Option Nat
  /-- heartbeat paths live: pin and link -/
  pinLive : Bool
  linkLive : Bool
  /-- the role the pair logic has set, which precedes ROLE_REQ (R540) -/
  rolePair : Option Bool
  ownSplit : Option SplitMsg
  partnerSplit : Option SplitMsg
  /-- both SPLIT messages have been judged (R553) -/
  splitDone : Bool
  /-- work stoke resumed after a reload in SPLIT (R556), and after crossed hand-offs (R560) -/
  resumed : Option Nat
  /-- HANDOFF sent: the work stoke it named and the role LIT held before; the work stoke named by the HANDOFF that
  promoted this module -/
  sentHandoff : Option (Nat × Bool)
  promotedBy : Option Nat
  /-- heartbeat periods left in which hand-offs may cross (R560) -/
  window : Nat
  /-- logged faults, key 2^64 × chain number + work stoke they happened in (R550) -/
  faultsBy : SMap Nat
  /-- READY sent and received: work stoke, and boundaries still to count (R555) -/
  readyOwn : Option Nat
  readyTheirs : Option (Nat × Nat)
  readyCount : Option Nat
  resync : Option Resync
  /-- records of both checkpoint generations as written (R469), and the partner's -/
  ckRecs : List CkptRec
  ckTheirs : Option (List CkptRec)
  /-- go-back-N: next sequence number to send, unacknowledged flits, next number expected, a replay awaited,
  refusals in a row (R534); the place among the lanes in use of the next symbol sent (R531) -/
  txSeq : Nat
  unacked : List KnkFlit
  txTurn : Nat
  rxSeq : Nat
  rxWait : Bool
  refused : Nat
  /-- credits held for TC0, TC1, TC4, those freed and not yet returned (R536), and messages that wait for credits -/
  credits : List Nat
  freed : List Nat
  held : List KnkMsg
  /-- words received and not yet a whole message, per class (R537) -/
  rx : SMap (List (Nat × Bool))
  /-- the link is being retrained -/
  retraining : Bool
  /-- runs of each work stoke so far (run number of R537): the last work stoke and its count -/
  runOf : Nat × Nat
  /-- forwarded ingest blocks held for their work stoke: work stoke, address, words (R540) -/
  forwarded : List (Nat × Nat × List (Nat × Bool))
  deriving DecidableEq, Repr

def Pair.atReset : Pair :=
  { journal := [], theirs := [], fresh := [], confirmed := [], chainOn := false, chainNo := 0, lastClean := none,
    awaited := [], partnerRec := none, matched := false, hbSeen := false, partnerState := 0, partnerLit := false,
    partnerPos := false, partnerWork := none, pinLive := false, linkLive := false, rolePair := none,
    ownSplit := none, partnerSplit := none, splitDone := false, resumed := none, sentHandoff := none, promotedBy := none,
    window := 0, faultsBy := [], readyOwn := none, readyTheirs := none, readyCount := none, resync := none,
    ckRecs := [], ckTheirs := none, txSeq := 0, unacked := [], txTurn := 0, rxSeq := 0, rxWait := false, refused := 0,
    credits := [256, 512, 128], freed := [0, 0, 0], held := [], rx := [], retraining := false, runOf := (0, 0), forwarded := [] }

/-! ## Feed queues, ingest and egress, host memory, scrubs (spec/17; spec/14 R504 to R508) -/

/-- A submission entry that a queue has read or may read: its slot in the ring and its eight words. -/
structure SqEntry where
  slot : Nat
  words : List Nat
  deriving DecidableEq, Repr

/-- A completion that waits for room in its ring (R582). -/
structure Completion where
  tag : Nat
  status : Nat
  value : Nat
  deriving DecidableEq, Repr

/-- An ingest or egress descriptor that has been read and not retired (R584, R586, R592). -/
structure Xfer where
  slot : Nat
  words : List Nat
  /-- in the fixed set -/
  fixed : Bool
  /-- issued, and finished, in the current stoke -/
  issued : Bool
  done : Bool
  deriving DecidableEq, Repr

/-- A queue block beside its registers. -/
structure Queue where
  /-- entries that the doorbell offers and the queue has not read -/
  unread : List SqEntry
  /-- commands of FQ0 read and not yet started -/
  cmds : List SqEntry
  xfers : List Xfer
  /-- WORK of the last descriptor read in order (R587) -/
  lastWork : Option Nat
  /-- completions written and not read by the host: CQ_HEAD as last written -/
  cqHead : Nat
  /-- the phase bit of the current pass -/
  phase : Bool
  held : List Completion
  deriving DecidableEq, Repr

def Queue.empty : Queue :=
  { unread := [], cmds := [], xfers := [], lastWork := none, cqHead := 0, phase := true, held := [] }

/-- A scrub queued or running (spec/14 R504). -/
structure Scrub where
  tag : Nat
  cmdTag : Nat
  mode : Nat
  start : Nat
  len : Nat
  sumAddr : Nat
  /-- device stoke number when it started, none while it waits -/
  begun : Option Nat
  deriving DecidableEq, Repr

/-- The host attach beside its registers. -/
structure Feed where
  queues : SMap Queue
  /-- the engines read descriptors: the stoke unit has left HELD and IDLE (R591) -/
  reading : Bool
  /-- work stoke for which the set was last fixed -/
  fixedFor : Option Nat
  /-- stoke records dropped since the last posted (R595) -/
  dropped : Nat
  /-- near lines the host may hold, oldest first (R576) -/
  filter : List Nat
  scrubs : List Scrub
  deriving DecidableEq, Repr

def Feed.atReset : Feed :=
  { queues := [], reading := false, fixedFor := none, dropped := 0, filter := [], scrubs := [] }

/-! ## What survives a reset: fuses and flash (spec/18, spec/19, spec/20, spec/21, spec/23 R742) -/

/-- An entry of a training record (spec/18 R625). -/
structure TrainEntry where
  kind : Nat
  index : Nat
  peer : Nat
  result : Nat
  data : List Byte
  deriving DecidableEq, Repr

/-- The contents of a training record (spec/18 R625); flash holds its bytes. -/
structure TrainRec where
  serial : Nat
  seq : Nat
  talgo : Nat
  /-- °C, 8 bits, two's complement -/
  temp : Nat
  fuses : Nat
  entries : List TrainEntry
  deriving DecidableEq, Repr

/-- A trip record (spec/20 R677). -/
structure TripRec where
  die : Nat
  source : Nat
  mon : Nat
  reading : Nat
  stk : Nat
  deriving DecidableEq, Repr

/-- A minimum-voltage record (spec/19 R659): hob 0 to 15, or 16 for that of the PWR page, whose hob is `at_`. -/
structure VminRec where
  hob : Nat
  at_ : Nat
  mv : Nat
  deficit : Nat
  stk : Nat
  cyc : Nat
  deriving DecidableEq, Repr

/-- The flash (spec/23 R742). -/
structure Flash where
  /-- FWA, FWB, UCA, UCB: the bytes of each; none where erased -/
  slots : List (List Byte)
  /-- the DIK certificate, when one is stored (R693) -/
  dik : Option (List Byte)
  fastNext : Bool
  k1 : Bool
  /-- the repair record (R608): faulty flues, tiles with a logical row on the spare, banks (24 × partition + bank),
  partitions, channel repairs (keys of `Memory.repairs`), failed slices per hob -/
  repFlues : List (Nat × Nat × Nat)
  repRows : SMap Nat
  repBanks : List Nat
  repParts : List Nat
  repGddr : SMap Nat
  repSlices : SMap Nat
  /-- copies A and B of the training record, as bytes; erased where empty -/
  trainA : List Byte
  trainB : List Byte
  /-- TREC_DISCARD was written: both copies are invalid until the next save (R629) -/
  discarded : Bool
  trip : Option TripRec
  vmins : List VminRec
  deriving DecidableEq, Repr

/-- Fuses that the life of a module blows or that its factory set (spec/10 R374, spec/21 R686, R692, R699). -/
structure Fuses where
  /-- tiles fenced at the factory -/
  tiles : List Nat
  flues : List (Nat × Nat × Nat)
  svnFw : Nat
  svnUc : Nat
  revoked : Nat
  /-- PEND and DONE fuses, bit k for state k -/
  pend : Nat
  done : Nat
  /-- the hashes in the four key slots, and the unique device secret that only the key store reads -/
  keys : List (List Byte)
  uds : List Byte
  /-- fused targets of the hob regulators in mV, at 4 × hob + damper step (spec/19 R645) -/
  vtgt : List Nat
  /-- enabled tiles of the grade, and the serial number (spec/02 R84) -/
  grade : Nat
  serial : Nat
  /-- codes of GDC_STATE.SPEED and DENSITY, alike for every channel (spec/11 R421) -/
  speed : Nat
  density : Nat
  deriving DecidableEq, Repr

/-- A module from the factory: what the spec leaves open is named in notes/assumptions/1.md. -/
def Flash.shipped : Flash :=
  { slots := (List.range 4).map Config.shippedImage, dik := some Config.dikCert, fastNext := true, k1 := false, repFlues := [],
    repRows := [], repBanks := [], repParts := [], repGddr := [], repSlices := [], trainA := [], trainB := [],
    discarded := false, trip := none, vmins := [] }

def Fuses.shipped : Fuses :=
  { tiles := (List.range 16).map (fun k => 10 * k + 9), flues := [], svnFw := 0, svnUc := 0, revoked := 0, pend := 0, done := 0,
    keys := (List.range 4).map Config.keySlot, uds := (List.range 32).map (fun i => Config.deviceSecret.extractLsb' (8 * i) 8),
    vtgt := List.replicate 64 750, grade := 144, serial := 0, speed := 3, density := 2 }

/-! ## Pins, the TAP and the I3C target (spec/22 R718, R719; spec/23) -/

/-- The instruction of the test access port (R718). -/
inductive Tap where
  | bypass | idcode | sample | extest | clamp | highz
  deriving DecidableEq, Repr

/-- A recovery image being received (spec/23 R741). -/
structure Recovery where
  part : Nat
  len : Nat
  got : Nat
  deriving DecidableEq, Repr

/-- Pins, boundary scan and I3C. -/
structure Module where
  /-- levels of PWR_GOOD, RESET_N and PERST0_N after their filters -/
  pwrGood : Bool
  resetN : Bool
  perst0N : Bool
  /-- PERST1_N is high; THERMTRIP_N is held low (R676) -/
  perst1N : Bool
  tripped : Bool
  tap : Tap
  boundary : Nat
  /-- the I3C dynamic address, the event queue, its dropped count, the response held (R737 to R740) -/
  dynAddr : Option Nat
  events : List (List Byte)
  dropped : Nat
  resp : Option (List Byte)
  recovery : Option Recovery
  deriving DecidableEq, Repr

def Module.off : Module :=
  { pwrGood := false, resetN := false, perst0N := false, perst1N := false, tripped := false, tap := .bypass, boundary := 0,
    dynAddr := none, events := [], dropped := 0, resp := none, recovery := none }

/-! ## Bring-up (spec/18) -/

/-- How a channel trained (R621, R628). -/
structure ChanTrain where
  narrow : Bool
  fenced : Bool
  fast : Bool
  peer : Nat
  settings : List Byte
  deriving DecidableEq, Repr

/-- How a link trained at bring-up: 0 CXP0, 1 CXP1, 2 Kenka (R622 to R628). -/
structure LinkTrain where
  fast : Bool
  peer : Nat
  result : Nat
  deriving DecidableEq, Repr

/-- A bring-up beside its registers. -/
structure Boot where
  /-- a bring-up is in progress; it has failed and waits for a reset source -/
  running : Bool
  failed : Bool
  /-- the copy of the training record in use: 0 A, 1 B (R626) -/
  trec : Option Nat
  /-- stages closed per hob, and in a forced kindling half stages (R609, R654) -/
  stages : SMap Nat
  /-- CLASSES of the bundle's packets that a receiver has seen (R615) -/
  classes : SMap Nat
  /-- per receiver: received map, stored payloads by offset, spare rows used (R616, R618) -/
  got : SMap Nat
  store : SMap (List (Nat × List Byte))
  spares : SMap Nat
  /-- receivers complete, and fenced -/
  complete : SMap Bool
  fenced : SMap Bool
  /-- rounds sent and polled -/
  rounds : Nat
  chans : SMap ChanTrain
  links : SMap LinkTrain
  /-- a channel or link trained cold and the record is not written (R629) -/
  unsaved : Bool
  /-- TREC_DISCARD made this bring-up train cold: its record goes to both copies (R629) -/
  discard : Bool
  /-- stokes completed since ready, and the µs that STK_LAST_US reported for them (spec/02 R83) -/
  upStokes : Nat
  upUs : Nat
  deriving DecidableEq, Repr

def Boot.atReset : Boot :=
  { running := false, failed := false, trec := none, stages := [], classes := [], got := [], store := [], spares := [],
    complete := [], fenced := [], rounds := 0, chans := [], links := [], unsaved := false, discard := false, upStokes := 0, upUs := 0 }

/-! ## Power (spec/19) -/

/-- A hob's rest or wake beside HOB_STATE (R650 to R656). -/
inductive Rest where
  /-- rests -/
  | resting
  /-- a wake is requested; stokes passed since -/
  | waking (passed : Nat)
  /-- being kindled; half stages when forced -/
  | kindling (forced : Bool)
  deriving DecidableEq, Repr

/-- Power delivery beside its registers. -/
structure Power where
  /-- PMBus or AVSBus transactions failed in a row (R644) -/
  pmFails : Nat
  /-- VOUT, IOUT and STATUS_WORD of each page as last read (R642) -/
  pages : SMap (Nat × Nat × Nat)
  /-- READ_PIN of the polls of up to 255 ms, latest last (R662) -/
  pins : List Nat
  warnFloor : Nat
  /-- cap floor of R662, to which R644 adds its own -/
  capFloor : Nat
  /-- local hob causes of the derate floor: three failed slices, a crack warning -/
  derated : SMap Bool
  cracked : SMap Bool
  /-- a faster damper whose voltages are being reached (R647) -/
  target : Option Nat
  rests : SMap Rest
  /-- hobs whose switches open at a B+1,536 (R660), and hobs to fence at the next latch point -/
  opening : List Nat
  fenceHobs : List Nat
  /-- hobs whose clock stretching is on (R657) -/
  stretch : SMap Bool
  deriving DecidableEq, Repr

def Power.atReset : Power :=
  { pmFails := 0, pages := [], pins := [], warnFloor := 0, capFloor := 0, derated := [], cracked := [], target := none, rests := [],
    opening := [], fenceHobs := [], stretch := [] }

/-! ## Temperatures (spec/20) -/

/-- A monitor (R668, R669, R678): raw and calibrated readings in 1/16 °C. -/
structure Mon where
  raw : Int
  offset : Int
  broken : Bool
  /-- samples in a row that differ from the neighbours, and at or above TRIP -/
  apart : Nat
  trips : Nat
  deriving DecidableEq, Repr

/-- A plausibility check that fails or has just failed one sample (R680, R682). -/
structure Check where
  failing : Bool
  /-- samples in a row with the condition, and without it -/
  held : Nat
  clear : Nat
  deriving DecidableEq, Repr

/-- Temperature sensing beside its registers. -/
structure Thermal where
  /-- key: 256 × die + monitor -/
  mons : SMap Mon
  /-- diode readings, broken diodes, and dies whose monitors are uncalibrated -/
  diodes : SMap Int
  diodeBad : SMap Bool
  uncal : SMap Bool
  /-- dies that are hot, and cool (R673) -/
  hot : SMap Bool
  cool : SMap Bool
  /-- bracket and corrections checks per partition, and the leakage check (R680) -/
  bracket : SMap Check
  corr : SMap Check
  leak : Check
  tleak : Int
  /-- words each partition corrected since the last evaluation, and in each evaluation of the last second -/
  ceNow : SMap Nat
  ceWindow : List (SMap Nat)
  /-- a monitor or leakage trip that THERMTRIP_N follows (R675) -/
  trip : Option TripRec
  deriving DecidableEq, Repr

def Check.none : Check := { failing := false, held := 0, clear := 0 }

def Thermal.atReset : Thermal :=
  { mons := [], diodes := [], diodeBad := [], uncal := [], hot := [], cool := [], bracket := [], corr := [],
    leak := Check.none, tleak := 0, ceNow := [], ceWindow := [], trip := Option.none }

/-! ## Security (spec/21) -/

/-- Secure boot, identity and life cycle beside their registers. -/
structure Security where
  /-- measurements M0 to M3 (R689) -/
  m : List (List Byte)
  log : List Byte
  nonce : Option (List Byte)
  /-- the slot of each kind has been erased for writing (R698) -/
  openFw : Bool
  openUc : Bool
  /-- a token whose transition waits for a sanitize: its TAG and bytes (R701) -/
  wait : Option (Nat × List Byte)
  /-- requests that wait meanwhile, with their TAG (R696) -/
  queue : List (Nat × DoeReq)
  deriving DecidableEq, Repr

def Security.atReset : Security :=
  { m := List.replicate 4 (List.replicate 48 0), log := [], nonce := none, openFw := false, openUc := false, wait := none,
    queue := [] }

/-! ## Smoke (spec/22) -/

/-- Smoke beside its registers. -/
structure Smoke where
  /-- formed groups that are not delivered: 64-byte slots (R711) -/
  groups : List (List (List Byte))
  /-- groups dropped since the last group delivered (R710) -/
  lost : Bool
  /-- slots of the groups that a flush has still to copy, oldest group first (R714) -/
  flush : List (List Nat)
  /-- events of the current stoke, by regKey of the register that also counts them; ordered-add causes of a partition
  in the stoke, as a mask of INT_RAW bits (R710) -/
  counts : SMap Nat
  seen : SMap Nat
  /-- the tile and partition records of the ending stoke, frozen at its commit point (R709) -/
  tileRecs : List (List Byte)
  partRecs : List (List Byte)
  deriving DecidableEq, Repr

def Smoke.atReset : Smoke :=
  { groups := [], lost := false, flush := [], counts := [], seen := [], tileRecs := [], partRecs := [] }

/-! ## Registers that fuses set -/

/-- The pages of a tile window (spec/02 R70). -/
def windowPages (n : Nat) : List Page :=
  [⟨.til, n⟩, ⟨.mxa, n⟩, ⟨.vec, n⟩, ⟨.tlm, n⟩, ⟨.smkc, 0x100 + n⟩] ++ (List.range 8).map (fun q => ⟨.seq, 8 * n + q⟩)

/-- The life-cycle state that fuses hold, and the target of a pending transition (spec/21 R699). -/
def Fuses.lcState (f : Fuses) : Nat := if bitAt f.done 3 then 3 else if bitAt f.done 2 then 2 else if bitAt f.done 1 then 1 else 0
def Fuses.lcPending (f : Fuses) : Option Nat := [3, 2, 1].find? (fun k => bitAt f.pend k && !bitAt f.done k)

/-- The fields that fuses and flash set at reset: the factory map (spec/02 R65, R84; spec/03 R87), life cycle, security
versions, revoked slots, the setting FAST_NEXT, failed slices and repairs in use. -/
def resetFields (fl : Flash) (fu : Fuses) : List (Page × Fld × Nat) :=
  let live := (List.range 160).filter (fun n => !fu.tiles.contains n)
  fu.tiles.flatMap (fun n => (windowPages n).map (fun p => (p, Reg.statFenced, 1)) ++ [(⟨.til, n⟩, Reg.tilState, 4)]) ++
  live.zipIdx.flatMap (fun e => [(⟨.til, e.1⟩, Reg.tilLogicalLtile, e.2), (⟨.dev, 0⟩, Reg.devL2pPhys e.2, e.1)]) ++
  [(⟨.lcy, 0⟩, Reg.lcyState, fu.lcState), (⟨.lcy, 0⟩, Reg.lcyStatePending, b2n fu.lcPending.isSome),
   (⟨.lcy, 0⟩, Reg.lcyStatePendTo, fu.lcPending.getD 0), (⟨.sec, 0⟩, Reg.secSvnFwFuse, fu.svnFw),
   (⟨.sec, 0⟩, Reg.secSvnUcFuse, fu.svnUc), (⟨.sec, 0⟩, Reg.secStateRevoked, fu.revoked),
   (⟨.sec, 0⟩, Reg.secStateIdent, b2n fl.dik.isSome), (⟨.tnd, 0⟩, Reg.tndCtrlFastNext, b2n fl.fastNext)] ++
  [(⟨.dev, 0⟩, Reg.devIdGrade, fu.grade), (⟨.dev, 0⟩, Reg.devTilesGradeTiles, fu.grade), (⟨.dev, 0⟩, Reg.devTilesLive, live.length),
   (⟨.dev, 0⟩, Reg.devSerial, fu.serial)] ++
  (if fu.speed = 3 ∧ fu.density = 2 then [] else (List.range 144).flatMap (fun c =>
    [(⟨.gdc, c⟩, Reg.gdcStateSpeed, fu.speed), (⟨.gdc, c⟩, Reg.gdcStateDensity, fu.density),
     (⟨.gdc, c⟩, Reg.gdcRowsUsable, [3169030, 4846751, 6524473].getD fu.density 0)])) ++
  (List.range 16).map (fun k => (⟨.hob, k⟩, Reg.hobVtgtMv, fu.vtgt.getD (4 * k) 0)) ++
  fl.repSlices.flatMap (fun e => [(⟨.hob, e.1⟩, Reg.hobSlicesFailed, e.2), (⟨.hob, e.1⟩, Reg.hobStateFailed, popCount 24 e.2)]) ++
  (List.range 144).filterMap (fun c =>
    let n := (fl.repGddr.filter (fun e => decide (e.1 / 2 ^ 20 = c))).length
    if n = 0 then none else some (⟨.gdc, c⟩, Reg.gdcRepairUsed, n))

/-- The register map right after reset. -/
def resetRegs (fl : Flash) (fu : Fuses) : SMap Nat :=
  (resetFields fl fu).foldl (fun m e => SMap.setD m (regKey e.1 e.2.1) e.2.1.rst (e.2.2 % 2 ^ e.2.1.width)) []

/-- The whole state of a CX-4. -/
structure State where
  /-- Commands waiting, first in, first out (the model's queue). -/
  pending : List Instr
  /-- Everything put on the interfaces, oldest first (the model's own record). -/
  out : List Output
  /-- Free values drawn so far (the model's own counter; notes/assumptions/2.md). -/
  fresh : Nat
  /-- Register fields of every page, by regKey; a field not listed holds its reset value (R52 to R86 and the chapters' register rules). -/
  regs : SMap Nat
  /-- Pending shadow values of RWS fields (R60 to R62). -/
  shadow : SMap Nat
  /-- Per requester (0 host, 1 Tender) and page: the word number of the last _LO read plus 1, and the latched _HI half (R58). -/
  latches : SMap (Nat × Nat)
  /-- A held 32-bit write to the _LO of a pair, by regKey of the pair (R59). -/
  heldLo : SMap Nat
  /-- MSI-X table: key 4 × vector + word (R70, R79). -/
  msixTable : SMap Nat
  /-- MSI-X pending bits (R79). -/
  msixPend : SMap Bool
  /-- When INT_FIRST captured: 2^32 times the device stoke number, plus the local cycle (R82). -/
  firstAt : Nat
  /-- MSI-X enable of the configuration space (R77). -/
  msixOn : Bool
  /-- MSI-X function mask (R79). -/
  msixMask : Bool
  /-- The stoke unit (spec/01). -/
  stoke : StokeUnit
  /-- Tiles by physical number; Tile.empty where not listed (R87). -/
  tiles : SMap Tile
  /-- Bytes of the hearth window and the near window by global address; an unlisted byte reads 0 (R306, R316, R319). -/
  mem : List Host.Cell
  /-- Poisoned 8-byte words, by address div 8 (R489). -/
  memBad : SMap Bool
  /-- Undefined contents of those windows (spec/01 R40, R758). -/
  vague : Vague
  /-- Firing plans (spec/13). -/
  plans : Plans
  /-- Write hashes: channel hash n at key n, hash of partition n at key 144 + n (spec/16 R542). -/
  hashes : SMap Nat
  /-- The write hashes as the last commit point froze them (R26, spec/16 R542). -/
  frozen : SMap Nat
  /-- Hearth cache, reductions, far requests, channel repair and broken-guarantee records (spec/09, spec/11, spec/12). -/
  hub : Memory
  /-- Flue masks, lane counts and port states (spec/10). -/
  flues : Flues
  /-- What the determinism record holds beside registers and the plan (spec/15 R515). -/
  record : Record
  /-- Kenka and the pair logic (spec/16). -/
  pair : Pair
  /-- Feed queues, ingest and egress, the host filter, scrubs (spec/17, spec/14). -/
  feed : Feed
  /-- The flash, which survives a reset (spec/23 R742, spec/18 R604). -/
  flash : Flash
  /-- The fuses, which survive a reset (spec/21 R686, R692, R699). -/
  fuses : Fuses
  /-- Pins, boundary scan and the I3C target (spec/22 R718, spec/23 R731 to R741). -/
  mod : Module
  /-- A bring-up beside its registers (spec/18). -/
  boot : Boot
  /-- Power delivery beside its registers (spec/19). -/
  power : Power
  /-- Temperature sensing beside its registers (spec/20). -/
  therm : Thermal
  /-- Secure boot, identity and life cycle beside their registers (spec/21). -/
  sec : Security
  /-- Trace groups and flushes beside their registers (spec/22). -/
  smoke : Smoke
  deriving DecidableEq, Repr

/-- The CX-4 as power comes on: pins low, nothing brought up, every field at its reset value (spec/18 R601 to R605;
notes/assumptions/1.md names the values the spec does not give). -/
def State.reset : State :=
  { pending := [],
    out := [],
    fresh := 0,
    regs := resetRegs Flash.shipped Fuses.shipped,
    shadow := [],
    latches := [],
    heldLo := [],
    msixTable := [],
    msixPend := [],
    firstAt := 0,
    msixOn := false,
    msixMask := false,
    stoke := StokeUnit.atReset,
    tiles := [],
    mem := [],
    memBad := [],
    vague := Vague.none,
    plans := Plans.none,
    hashes := [],
    frozen := [],
    hub := Memory.empty,
    flues := Flues.none,
    record := Record.atReset,
    pair := Pair.atReset,
    feed := Feed.atReset,
    flash := Flash.shipped,
    fuses := Fuses.shipped,
    mod := Module.off,
    boot := Boot.atReset,
    power := Power.atReset,
    therm := Thermal.atReset,
    sec := Security.atReset,
    smoke := Smoke.atReset }

end Sys2Proof.Machine
end

