-- ==== Sys2Proof/Machine/Ops.lean ====
section
/-! DEFINITION. The named operations over the state that every command uses: register fields, error
capture, interrupts, memory and poison, write hashes, failure sources and quench, free values. -/
namespace Sys2Proof.Machine

/-! ## Pages -/

def pgDev : Page := ⟨.dev, 0⟩
def pgStk : Page := ⟨.stk, 0⟩
def pgInt : Page := ⟨.int, 0⟩
def pgSec : Page := ⟨.sec, 0⟩
def pgLcy : Page := ⟨.lcy, 0⟩
def pgTnd : Page := ⟨.tnd, 0⟩
def pgTrf : Page := ⟨.trf, 0⟩
def pgThm : Page := ⟨.thm, 0⟩
def pgPwr : Page := ⟨.pwr, 0⟩
def pgSmk : Page := ⟨.smk, 0⟩
def pgKnk : Page := ⟨.knk, 0⟩
def pgTil (n : Nat) : Page := ⟨.til, n⟩
def pgSeq (n q : Nat) : Page := ⟨.seq, 8 * n + q⟩
def pgMxa (n : Nat) : Page := ⟨.mxa, n⟩
def pgVec (n : Nat) : Page := ⟨.vec, n⟩
def pgTlm (n : Nat) : Page := ⟨.tlm, n⟩
def pgHrt (n : Nat) : Page := ⟨.hrt, n⟩
def pgHrtx (n : Nat) : Page := ⟨.hrtx, n⟩
def pgGdc (n : Nat) : Page := ⟨.gdc, n⟩
def pgFlu (n : Nat) : Page := ⟨.flu, n⟩
def pgCxp (n : Nat) : Page := ⟨.cxp, n⟩
def pgFar (n : Nat) : Page := ⟨.far, n⟩
def pgHob (n : Nat) : Page := ⟨.hob, n⟩
def pgFq (n : Nat) : Page := ⟨.fq, n⟩
def pgSmkc (n : Nat) : Page := ⟨.smkc, n⟩

/-! ## Register fields -/

/-- The value a field of a page holds. -/
def State.rd (s : State) (p : Page) (f : Fld) : Nat := SMap.getD s.regs (regKey p f) f.rst

/-- Write a field, cut to its width. -/
def State.wr (s : State) (p : Page) (f : Fld) (v : Nat) : State :=
  { s with regs := SMap.setD s.regs (regKey p f) f.rst (v % 2 ^ f.width) }

/-- A field read as a flag. -/
def State.flag (s : State) (p : Page) (f : Fld) : Bool := s.rd p f != 0

/-- Write several fields of one page. -/
def State.wrs (s : State) (p : Page) (l : List (Fld × Nat)) : State :=
  l.foldl (fun s e => s.wr p e.1 e.2) s

/-- The value an RWS field takes at the next latch point: its shadow, or the value in effect (R60). -/
def State.shadowOf (s : State) (p : Page) (f : Fld) : Nat :=
  SMap.getD s.shadow (regKey p f) (s.rd p f)

/-- The local cycle as the stoke page shows it: that of the last command that names one (notes/assumptions/59.md). -/
def State.atCycle (s : State) (c : Nat) : State := s.wr pgStk Reg.stkCycle c
def State.now (s : State) : Nat := s.rd pgStk Reg.stkCycle

/-- The row map of an array with the spare row in the place of a logical row, 64 for the checksum row (spec/05 R211). -/
def State.mapSpare (s : State) (n row : Nat) : State :=
  s.wrs (pgMxa n) (if row = 64 then
      [(Reg.mxaStateSpareFor, 0x40), (Reg.mxaRowmapOutPhys, 0x41), (Reg.mxaRowmapChkPhys, 0x40)]
    else [(Reg.mxaStateSpareFor, row), (Reg.mxaRowmapOutPhys, row)])

/-! ## Outputs and free values -/

/-- Put something on an interface. -/
def State.emit (s : State) (o : Output) : State := { s with out := s.out ++ [o] }

/-- Draw a free value of a width (notes/assumptions/2.md). -/
def State.freeBits (s : State) (w : Nat) : Nat := Config.freeValue s.fresh % 2 ^ w
def State.tookFree (s : State) : State := { s with fresh := s.fresh + 1 }

/-! ## Interrupts (spec/02 R73 to R82) -/

/-- The source line a page feeds (R74). -/
def sourceOf (p : Page) : Nat :=
  match p.kind with
  | .dev => 0 | .stk => 1 | .int => 2 | .sec => 3 | .lcy => 4 | .tnd => 5 | .trf => 6
  | .thm => 7 | .pwr => 8 | .smk => 9 | .smkc => 9
  | .cxp => 10 + p.inst
  | .far => 12 | .knk => 13 | .hob => 14
  | .til => 16 + p.inst / 10 | .mxa => 16 + p.inst / 10
  | .vec => 16 + p.inst / 10 | .tlm => 16 + p.inst / 10
  | .seq => 16 + p.inst / 80
  | .hrt => 32 + p.inst / 10 | .hrtx => 32 + p.inst / 10
  | .gdc => 48 + p.inst / 9
  | .flu => if p.inst < 0x100 then 64 + p.inst / 10 else 64 + (p.inst - 0x100)
  | .fq => 15

/-- The pages of one tile window that feed its source. -/
def tilePages (n : Nat) : List Page :=
  [pgTil n, pgMxa n, pgVec n, pgTlm n] ++ (List.range 8).map (pgSeq n)

/-- The pages of a tile window, with the tile's counter page, which feeds the smoke source (R70, R71). -/
def tileWindow (n : Nat) : List Page := tilePages n ++ [pgSmkc (0x100 + n)]

/-- The instances of the SMK counter pages (R72). -/
def smkcInsts : List Nat :=
  (List.range 160).map (0x100 + ·) ++ (List.range 160).map (0x200 + ·) ++
  (List.range 144).map (0x300 + ·) ++ [0x400, 0x401, 0x402]

/-- The pages whose lines a source line is the OR of (R74). -/
def pagesOf (n : Nat) : List Page :=
  if n < 9 then
    [[pgDev, pgStk, pgInt, pgSec, pgLcy, pgTnd, pgTrf, pgThm, pgPwr].getD n pgDev]
  else if n = 9 then pgSmk :: smkcInsts.map pgSmkc
  else if n < 12 then [pgCxp (n - 10)]
  else if n = 12 then (List.range 8).map pgFar
  else if n = 13 then [pgKnk]
  else if n = 14 then (List.range 16).map pgHob
  else if n = 15 then []
  else if n < 32 then (List.range 10).flatMap (fun j => tilePages (10 * (n - 16) + j))
  else if n < 48 then (List.range 10).map (fun j => pgHrt (10 * (n - 32) + j))
  else if n < 64 then (List.range 9).map (fun j => pgGdc (9 * (n - 48) + j))
  else if n < 80 then
    (List.range 10).map (fun j => pgFlu (10 * (n - 64) + j)) ++ [pgFlu (0x100 + (n - 64))]
  else []

/-- The hob whose switches cut off a page: that of a tile's pages. -/
def hobOf (p : Page) : Option Nat :=
  match p.kind with
  | .til | .mxa | .vec | .tlm => some (p.inst / 10)
  | .seq => some (p.inst / 80)
  | .smkc => if 0x100 ≤ p.inst ∧ p.inst < 0x200 then some ((p.inst - 0x100) / 10) else none
  | _ => none

/-- The page is in a hob that rests, whose pages answer in full (spec/19 R651). -/
def State.restingPage (s : State) (p : Page) : Bool :=
  match hobOf p with
  | some k => (SMap.find s.power.rests k).isSome
  | none => false

/-- The page is in a hob that is dark, and answers from Ashpit (R66). -/
def State.darkPage (s : State) (p : Page) : Bool := s.flag p Reg.statDark && !s.restingPage p

/-- The page of a fenced block or of a dark hob: it shows FENCED and answers nothing else (R65, R66). -/
def State.shut (s : State) (p : Page) : Bool := s.flag p Reg.statFenced || s.darkPage p

/-- The page line (R73); a fenced or dark page never asserts (R65, R66). -/
def State.pageLine (s : State) (p : Page) : Bool := !s.shut p && (s.rd p Reg.intRaw &&& s.rd p Reg.intEn) != 0

/-- A source line (R74). -/
def State.sourceLine (s : State) (n : Nat) : Bool := (pagesOf n).any s.pageLine

/-- Delivery is possible (R77). -/
def State.deliverable (s : State) : Bool := s.flag pgInt Reg.intCtrlEn && s.msixOn

/-- Is a vector armed (R77)? -/
def State.armed (s : State) (v : Nat) : Bool := bitAt (s.rd pgInt Reg.intArmed) v

def State.arm (s : State) (v : Nat) : State :=
  s.wr pgInt Reg.intArmed (withBit (s.rd pgInt Reg.intArmed) v)
def State.disarm (s : State) (v : Nat) : State :=
  s.wr pgInt Reg.intArmed (withoutBit (s.rd pgInt Reg.intArmed) v)

/-- A vector masked by its table entry or the function mask (R79). -/
def State.vecMasked (s : State) (v : Nat) : Bool :=
  s.msixMask || bitAt (SMap.getD s.msixTable (4 * v + 3) 1) 0

/-- Send a requested message, or set its pending bit while it is masked (R79). -/
def State.message (s : State) (v : Nat) : State :=
  if s.vecMasked v then { s with msixPend := SMap.setD s.msixPend v false true }
  else s.emit (.msix v)

/-- R77 for one source line: a message on its vector, which disarms, when all of R77 holds. -/
def State.trySource (s : State) (n : Nat) : State :=
  let v := s.rd pgInt (Reg.intRouteVector n)
  if s.armed v && s.deliverable && s.sourceLine n then (s.disarm v).message v else s

/-- R77 for every source line. -/
def State.trySources (s : State) : State := (List.range 80).foldl State.trySource s

/-- The present cycle: device stoke number and local cycle (notes/assumptions/59.md). -/
def State.here (s : State) : Nat := 2 ^ 32 * s.rd pgStk Reg.stkNum + s.now

/-- INT_FIRST captures the first source line to assert, of several in one cycle the lowest (R82). -/
def State.captureSource (s : State) (n : Nat) : State :=
  if s.flag pgInt Reg.intFirstValid then
    if s.firstAt = s.here ∧ n < s.rd pgInt Reg.intFirstSource then s.wr pgInt Reg.intFirstSource n else s
  else { s with firstAt := s.here }.wrs pgInt [(Reg.intFirstValid, 1), (Reg.intFirstSource, n),
    (Reg.intFirstStk, s.rd pgStk Reg.stkNum)]

/-- A page line may have asserted: capture and message (R77, R82). -/
def State.lineRaised (s : State) (p : Page) (was : Bool) : State :=
  if s.pageLine p then
    (if was then s else s.captureSource (sourceOf p)).trySource (sourceOf p)
  else s

/-- An ordered-add cause of a partition is carried in its trace record (spec/22 R710). -/
def State.noteCause (s : State) (p : Page) (b : Nat) : State :=
  if p.kind = .hrt ∧ (b = Reg.causeHrtOrdGap ∨ b = Reg.causeHrtOrdLost ∨ b = Reg.causeHrtOrdBad) then
    { s with smoke := { s.smoke with seen := SMap.modD s.smoke.seen p.inst 0 (fun m => withBit m b) } }
  else s

/-- Set an INT_RAW cause of a page. -/
def State.setCause (s : State) (p : Page) (b : Nat) : State :=
  ((s.noteCause p b).wr p Reg.intRaw (withBit (s.rd p Reg.intRaw) b)).lineRaised p (s.sourceLine (sourceOf p))

/-- A message on a vector of R596 that no block source reaches: sent when armed, with delivery possible. -/
def State.queueVector (s : State) (v : Nat) : State :=
  if s.armed v && s.msixOn then (s.disarm v).message v else s

/-! ## Smoke counters (spec/22 R716) -/

/-- Counter k of a counter page counts n events; it saturates and sets OVF. -/
def State.countOne (s : State) (p : Page) (n k : Nat) : State :=
  let v := s.rd p (Reg.smkCnt k) + n
  if v < 2 ^ 64 then s.wr p (Reg.smkCnt k) v
  else (s.wrs p [(Reg.smkCnt k, 2 ^ 64 - 1), (Reg.smkCstatOvf, withBit (s.rd p Reg.smkCstatOvf) k)]).setCause p
    Reg.causeSmkcOvf

/-- Events of a code at a counter page. -/
def State.count (s : State) (inst code n : Nat) : State :=
  let p := pgSmkc inst
  if s.rd p Reg.smkCctrlEn = 0 then s
  else ((bitList 8 (s.rd p Reg.smkCctrlEn)).filter (fun k => s.rd p (Reg.smkEvselEv k) = code)).foldl
    (fun s k => s.countOne p n k) s

/-- The counter page and code of an event that a counting register also counts. -/
def smkEvent (p : Page) (f : Fld) : Option (Nat × Nat) :=
  match p.kind with
  | .tlm => if f = Reg.tlmHitCount then some (0x100 + p.inst, 3) else if f = Reg.tlmMissCount then some (0x100 + p.inst, 4) else none
  | .hrt =>
    if f = Reg.hrtHitCount then some (0x200 + p.inst, 1) else if f = Reg.hrtMissCount then some (0x200 + p.inst, 2)
    else if f = Reg.hrtEvictCount then some (0x200 + p.inst, 3) else if f = Reg.hrtOrdRefuseCount then some (0x200 + p.inst, 6)
    else if f = Reg.hrtCorrCount then some (0x200 + p.inst, 8) else none
  | .hrtx => if f.width = 16 ∧ 8 * 0x0A0 ≤ f.bit ∧ f.bit < 8 * 0x0B4 then some (0x200 + p.inst, 4) else none
  | .gdc =>
    if f = Reg.gdcFreeCount then some (0x300 + p.inst, 2) else if f = Reg.gdcRetryCount then some (0x300 + p.inst, 4)
    else if f = Reg.gdcErrcntCe then some (0x300 + p.inst, 5) else if f = Reg.gdcErrcntUe then some (0x300 + p.inst, 7) else none
  | .cxp => if f = Reg.cxpRetryCount then some (0x400 + p.inst, 2) else if f = Reg.cxpCrcerrCount then some (0x400 + p.inst, 3) else none
  | .knk =>
    if f = Reg.knkRetryCount then some (0x402, 2) else if f = Reg.knkCrcerrCount then some (0x402, 3)
    else if f = Reg.knkFecCount then some (0x402, 4) else none
  | _ => none

/-- Events that a trace record counts in its stoke (spec/22 R710). -/
def State.noteCount (s : State) (p : Page) (f : Fld) (n : Nat) : State :=
  let k := regKey p f
  if (p.kind = .hrt ∧ (f = Reg.hrtCorrCount ∨ f = Reg.hrtUeCount ∨ f = Reg.hrtHitCount ∨ f = Reg.hrtMissCount ∨
      f = Reg.hrtOrdRefuseCount)) ∨ (p.kind = .mxa ∧ f = Reg.mxaSkipSkipped) then
    { s with smoke := { s.smoke with counts := SMap.modD s.smoke.counts k 0 (fun x => x + n) } }
  else s

/-- Add to a counting field, which saturates at all ones. -/
def State.bump (s : State) (p : Page) (f : Fld) (n : Nat) : State :=
  let s1 := (s.noteCount p f n).wr p f (satAdd (2 ^ f.width - 1) (s.rd p f) n)
  match smkEvent p f with
  | some e => s1.count e.1 e.2 n
  | none => s1

/-- Cycles of a wait are counted: how many is timing, so the counter is known only not to be 0; its read is a free value
(notes/assumptions/30.md). -/
def State.noteCycles (s : State) (p : Page) (f : Fld) : State := if s.rd p f = 0 then s.wr p f 1 else s

/-! ## Error capture (spec/02 R67, R68) -/

/-- An error on a page: ERR_COUNT, and the first-error capture. -/
def State.err (s : State) (p : Page) (code detail : Nat) : State :=
  let s1 := s.bump p Reg.errCount 1
  if s.flag p Reg.errValid then s1.wr p Reg.errOverflow 1
  else s1.wrs p [(Reg.errValid, 1), (Reg.errCode, code), (Reg.errDetail, detail),
    (Reg.errStk, s.rd pgStk Reg.stkNum)]

/-- More errors of one cycle on a page: s0 is the state before the cycle, s1 that with the errors so far, f what raises more.
With nothing captured before, the lowest code is, and OVERFLOW says that there were others (R68). -/
def State.sameCycle (s0 s1 : State) (p : Page) (f : State → State) : State :=
  if s0.flag p Reg.errValid || !s1.flag p Reg.errValid then f s1
  else
    let first := s1.rd p Reg.errCode
    let s2 := f (s1.wr p Reg.errValid 0)
    if !s2.flag p Reg.errValid then s2.wr p Reg.errValid 1
    else if s2.rd p Reg.errCode < first then s2.wr p Reg.errOverflow 1
    else s2.wrs p [(Reg.errCode, first), (Reg.errDetail, s1.rd p Reg.errDetail), (Reg.errOverflow, 1)]

/-- Log a fault of the current work stoke in the fault summary (spec/16 R550). -/
def State.logFault (s : State) (b : Nat) : State :=
  let m := SMap.modD s.pair.faultsBy (2 ^ 64 * s.pair.chainNo + s.rd pgStk Reg.stkWork) 0 (fun x => withBit x b)
  ({ s with pair := { s.pair with faultsBy := m } }).wr pgKnk Reg.knkFaults (withBit (s.rd pgKnk Reg.knkFaults) b)

/-! ## Address map (spec/09 R306, spec/11 R391, R398) -/

def hearthEnd : Nat := 0xA0000000
def nearBase : Nat := 0x100000000
def farBase : Nat := 0x10000000000
def farStride : Nat := 0x20000000000

/-- The canonical form of a memory: addresses rise strictly, and no listed byte is the 0 that an unlisted one reads as. -/
def Memory.wf (m : List Host.Cell) : Bool := SMap.wf (0 : Byte) m

/-- The undefined extent that an address lies in, unless it has been written since (spec/01 R40, R758). -/
def Vague.at_ (v : Vague) (a : Nat) : Option Nat :=
  match v.extents.find? (fun e => decide (e.1 ≤ a) && decide (a < e.1 + e.2.1)) with
  | some e => if SMap.getD v.redone a false then Option.none else some e.2.2
  | Option.none => Option.none

/-- A byte is written: it is defined from now on. -/
def Vague.define (v : Vague) (a : Nat) : Vague :=
  if v.extents = [] then v else { v with redone := SMap.setD v.redone a false true }

/-- The extents without an interval. -/
def Vague.cut (v : Vague) (lo hi : Nat) : Vague :=
  { v with extents := v.extents.flatMap (fun e =>
      let l := min (e.1 + e.2.1) lo
      let h := max e.1 hi
      (if e.1 < l then [(e.1, l - e.1, e.2.2)] else []) ++
      (if h < e.1 + e.2.1 ∧ lo < hi then [(h, e.1 + e.2.1 - h, e.2.2)] else [])) }

/-- A word of an extent becomes undefined: what was written since an earlier loss no longer counts. -/
def Vague.lose (v : Vague) (base len serial : Nat) : Vague :=
  let c := v.cut base (base + len)
  { c with extents := c.extents ++ [(base, len, serial)], redone := v.redone.filter (fun e => decide (e.1 < base) || decide (base + len ≤ e.1)) }

/-- An interval of the windows reads as reset, defined again. -/
def State.cutVague (s : State) (lo hi : Nat) : State := { s with vague := s.vague.cut lo hi }

/-- Bytes of the hearth and near windows (R319). -/
def State.byteAt (s : State) (a : Nat) : Byte :=
  match s.vague.at_ a with
  | some k => Config.lostByte k a
  | none => SMap.getD s.mem a 0
def State.bytesAt (s : State) (a n : Nat) : List Byte := (List.range n).map (fun i => s.byteAt (a + i))
def State.natAt (s : State) (a n : Nat) : Nat := leNat (s.bytesAt a n)
/-- Is the 8-byte word of an address poisoned (R489)? -/
def State.badAt (s : State) (a : Nat) : Bool := SMap.getD s.memBad (a / 8) false
/-- Is any word of an extent poisoned? -/
def State.anyBad (s : State) (a n : Nat) : Bool :=
  (List.range (ceilDiv (a % 8 + n) 8)).any (fun i => s.badAt (8 * (a / 8) + 8 * i))

/-- Write one byte, keeping the canonical form of memory. -/
def State.setByte (s : State) (a : Nat) (b : Byte) : State := 
  { s with mem := SMap.setD s.mem a 0 b, vague := s.vague.define a }
def State.setBad (s : State) (w : Nat) (b : Bool) : State :=
  { s with memBad := SMap.setD s.memBad w false b }

/-- Write bytes without touching poison. -/
def State.setBytes (s : State) (a : Nat) : List Byte → State
  | [] => s
  | b :: bs => (s.setByte a b).setBytes (a + 1) bs

/-- The poison of a word after bytes [lo, hi) of it are written (R747): a whole-word write decides it
by the written value; a partial write keeps poison. -/
def State.mergePoison (s : State) (w lo hi : Nat) (bad : Bool) : State :=
  if lo ≤ 8 * w ∧ 8 * w + 8 ≤ hi then s.setBad w bad
  else if bad then s.setBad w true else s

/-- Write bytes at an address, with poison under R747: `bad` writes poisoned words. -/
def State.store (s : State) (a : Nat) (bs : List Byte) (bad : Bool) : State :=
  let hi := a + bs.length
  ((List.range (hi / 8 + 1 - a / 8)).map (a / 8 + ·)).foldl
    (fun s w => if 8 * w < hi then s.mergePoison w a hi bad else s) (s.setBytes a bs)

/-- Write a masked line of 64 bytes (R283): byte i of `data` where bit i of `mask` is 1; words in
`poison` (one bit per 8-byte word) are written poisoned; a whole clean word clears poison. -/
def State.storeLine (s : State) (a : Nat) (data : Line512) (mask : BitVec 64) (poison : BitVec 8) : State :=
  let s1 := (List.range 64).foldl
    (fun s i => if mask.getLsbD i then s.setByte (a + i) (data.extractLsb' (8 * i) 8) else s) s
  (List.range 8).foldl (fun s k =>
    let m := (mask.extractLsb' (8 * k) 8)
    if m = 0 then s
    else if poison.getLsbD k then s.setBad (a / 8 + k) true
    else if m = 0xFF then s.setBad (a / 8 + k) false
    else s) s1

/-! ## Map of rows to homes and channels (spec/09 R320, R321; spec/11 R398) -/

/-- The entry of HOME for a partition number (R321): itself in service, else the next in service. -/
def State.homeOf (s : State) (i : Nat) : Nat :=
  (((List.range 160).map (fun d => (i + d) % 160)).find?
    (fun n => !s.flag (pgHrt n) Reg.statFenced)).getD i

/-! ## Write hashes (spec/15 R524; spec/16 R542) -/

/-- The mixing function of R524, on 64-bit values. -/
def mix (v : Word64) : Word64 :=
  let v := v ^^^ (v >>> 31)
  let v := v * 0xa5c31f6e92b74d09
  let v := v ^^^ (v >>> 29)
  let v := v * 0xc83b6e15f2a90d47
  v ^^^ (v >>> 32)

def hashMod : Nat := 2 ^ 61 - 1

/-- The multiplier k of R542 for a seed and a work stoke. -/
def hashKey (seed work : Nat) : Nat :=
  2 + (mix (BitVec.ofNat 64 seed ^^^ mix (BitVec.ofNat 64 work ^^^ 0x91d42e07b5c863af))).toNat %
    (hashMod - 2)

/-- The term of one word write (R542): word address, word, byte mask and poison. -/
def hashTerm (k a d bm p : Nat) : Nat :=
  (((a % hashMod * k + bitsAt d 32 32) * k + bitsAt d 0 32) * k + bm + 256 * p + 1) * k % hashMod

/-- The multiplier of the stoke now running. -/
def State.hashK (s : State) : Nat :=
  hashKey (match s.plans.active with | some p => p.seed | none => 0) (s.rd pgStk Reg.stkWork)

/-- Add to a hash accumulator. -/
def State.addHash (s : State) (n t : Nat) : State :=
  { s with hashes := SMap.modD s.hashes n 0 (fun x => (x + t) % hashMod) }

/-! ## Failure sources and quench (spec/01 R29, R41 to R43, R754) -/

/-- The unit has work to fail: RUN or REPLAY. -/
def State.running (s : State) : Bool :=
  s.rd pgStk Reg.stkState = 1 || s.rd pgStk Reg.stkState = 2

/-- A source is the one that STK_FAIL.CAUSE records: the first of the stoke, or one of its cycle with a lower code (R754). -/
def State.recordsCause (s : State) (cause : Nat) : Bool :=
  decide (s.stoke.fails = []) || (decide (s.stoke.failAt = s.now) && decide (cause < s.rd pgStk Reg.stkFailCause))

/-- The sources of the next stoke with one more: a lower code of the cycle of the first comes before it (R754). -/
def StokeUnit.addNext (u : StokeUnit) (cause now : Nat) : StokeUnit :=
  match u.failsNext with
  | [] => { u with failsNext := [cause], nextAt := now }
  | c :: _ => { u with failsNext := if u.nextAt = now ∧ cause < c then cause :: u.failsNext else u.failsNext ++ [cause] }

/-- A failure source of the stoke: before the replay decision's commit point it fails this stoke,
after it the following one (R29). STK_FAIL.CAUSE takes the first source of the stoke, of one cycle the lowest (R754). -/
def State.failWith (s : State) (cause : Nat) : State :=
  if !s.running then s
  else if s.stoke.phase.rank ≤ Phase.writeback.rank then
    let s1 := if s.recordsCause cause then s.wr pgStk Reg.stkFailCause cause else s
    { s1 with stoke := { s1.stoke with
      fails := s1.stoke.fails ++ [cause], failAt := if s.stoke.fails = [] then s.now else s1.stoke.failAt } }
  else { s with stoke := s.stoke.addNext cause s.now }

/-- The stoke consumes an uncorrectable error (spec/14 R496). -/
def State.consumeError (s : State) : State := s.failWith 2

/-- Terminate a tile's resident groups and discard what is not yet stored; copies already issued drain as stores do
(R26, R41, R100; notes/assumptions/21.md). DESIGN CHOICE (notes/assumptions/64.md): a retry or a substitution that still waits is
dropped with its pass, and the finished-tile queue starts again at index 0. -/
def stopTile (t : Tile) : Tile :=
  { t with ctxs := [], resident := [], ops := [], epis := [], closing := [], opWrites := [], stop := none, won := [],
           mx := { MxArray.idle with retired := t.mx.retired, passNo := t.mx.passNo } }

/-- Change one tile. -/
def State.updTile (s : State) (n : Nat) (f : Tile → Tile) : State :=
  { s with tiles := SMap.modD s.tiles n Tile.empty f }

def State.tile (s : State) (n : Nat) : Tile := SMap.getD s.tiles n Tile.empty

/-- A tile consumes an uncorrectable error (spec/14 R496; the tile's trace record says so, spec/22 R710). -/
def State.consumeAt (s : State) (n : Nat) : State := (s.updTile n (fun t => { t with poisonUsed := true })).consumeError

/-- Every tile stops launching and terminates its groups (R41). -/
def State.stopTiles (s : State) : State :=
  { s with tiles := s.tiles.map (fun e => (e.1, stopTile e.2)) }

/-- A quench by a cause (3 host, 4 Tender, 5 pair logic). `hold` leads to HELD whatever QUENCH_ACT holds.
At or before B+1,088 it fails the ending stoke, afterwards the following one; in IDLE or HELD it only
sets STK_FAIL.CAUSE (R43). -/
def State.quench (s : State) (cause : Nat) (hold : Bool) : State :=
  if !s.running then s.wr pgStk Reg.stkFailCause cause
  else if s.stoke.phase.rank ≤ Phase.writeback.rank then
    let s1 := (s.failWith cause).stopTiles
    let s2 := { s1 with stoke := { s1.stoke with
      quenched := true, quenchHold := s1.stoke.quenchHold || hold } }
    s2.setCause pgStk Reg.causeStkQuenchDone
  else
    let s1 := s.failWith cause
    { s1 with stoke := { s1.stoke with
      quenchNext := true, quenchHoldNext := s1.stoke.quenchHoldNext || hold } }

/-! ## Plans (spec/13) -/

/-- A region that holds an extent. -/
def Region.holds (r : Region) (a n : Nat) : Bool := r.base ≤ a && a + n ≤ r.base + r.len

/-- The active plan's regions. -/
def State.regions (s : State) : List Region :=
  match s.plans.active with
  | some p => p.regions
  | none => []

/-- An extent inside a mapped region (R456): ATTR[0] or ATTR[1]. -/
def State.mapped (s : State) (a n : Nat) : Bool :=
  s.regions.any (fun r => r.holds a n && (bitAt r.attr 0 || bitAt r.attr 1))

/-- An extent a tile may write: a region with ATTR[1] (R456). -/
def State.writable (s : State) (a n : Nat) : Bool :=
  s.regions.any (fun r => r.holds a n && bitAt r.attr 1)

/-- An address inside the code region (R89, R168). -/
def State.inCode (s : State) (a n : Nat) : Bool :=
  s.regions.any (fun r => r.holds a n && bitAt r.attr 2)

/-- A region that the stoke's work writes: a failure may leave it undefined (spec/01 R40, R758). -/
def State.noteWork (s : State) (a : Nat) : State :=
  match s.regions.find? (fun r => r.holds a 1) with
  | some r => if s.vague.wrote.contains r.id then s else { s with vague := { s.vague with wrote := r.id :: s.vague.wrote } }
  | none => s

/-- The regions that the failed work stoke wrote lose their contents (spec/01 R40, R758; notes/assumptions/61.md). -/
def State.loseWork (s : State) : State :=
  let v := (s.regions.filter (fun r => decide (r.base < farBase) && s.vague.wrote.contains r.id)).foldl
    (fun v r => Vague.lose v r.base r.len s.fresh) s.vague
  { s with vague := { v with wrote := [] } }.tookFree

/-- The checkpoint block of a list of regions that holds an address: its region's id and its number. -/
def ckptBlock (l : List Region) (a : Nat) : Option (Nat × Nat) :=
  (l.find? (fun r => r.holds a 1 && bitAt r.attr 5)).map (fun r => (r.id, (a - r.base) / 65536))

/-- A write to a block of a checkpoint region sets both its dirty bits (R466), and makes a copy that
still has to copy the block void (R468). -/
def State.ckptWrite (s : State) (a : Nat) : State :=
  let dirty := match ckptBlock s.regions a with
    | some (id, blk) =>
      let k := (id * 65536 + blk) * 2
      SMap.setD (SMap.setD s.plans.ckDirty k true true) (k + 1) true true
    | none => s.plans.ckDirty
  let ck := s.plans.ckpt.map (fun c => match ckptBlock c.regions a with
    | some b => { c with isVoid := c.isVoid || c.todo.contains b }
    | none => c)
  { s with plans := { s.plans with ckDirty := dirty, ckpt := ck } }

/-- Pass an operation's result to exec's outcome. -/
def answer (s : State) : Host.Outcome State Fault Refusal := .next s

end Sys2Proof.Machine
end

