-- ==== Sys2Proof/Machine/Operands.lean ====
section
/-! DEFINITION. Operand forms of the Yalzu instructions: instruction fields, TYPE codes, register
reads and writes with their poison, enabled lanes (spec/04 R138 to R146; spec/03 R87, R88; spec/14 R497). -/
namespace Sys2Proof

/-! ## Instruction fields (R138) -/

/-- A field of the word. -/
def Issue.bitsOf (i : Issue) (lo n : Nat) : Nat := bitsAt i.word.toNat lo n
/-- FMT and OP (R137, R138). -/
def Issue.fmt (i : Issue) : Nat := i.bitsOf 60 4
def Issue.op (i : Issue) : Nat := i.bitsOf 52 8
/-- FMT and OP as one number, 256 × FMT + OP. -/
def Issue.code (i : Issue) : Nat := i.bitsOf 52 12
/-- Format I. -/
def Issue.imm (i : Issue) : Bool := i.fmt = 1
def Issue.type (i : Issue) : Nat := i.bitsOf 48 4
def Issue.pneg (i : Issue) : Bool := i.bitsOf 47 1 = 1
def Issue.pq (i : Issue) : Nat := i.bitsOf 44 3
def Issue.mod (i : Issue) : Nat := i.bitsOf 40 4
def Issue.dst (i : Issue) : Nat := i.bitsOf 33 7
def Issue.srcA (i : Issue) : Nat := i.bitsOf 26 7
def Issue.srcB (i : Issue) : Nat := i.bitsOf 19 7
def Issue.srcC (i : Issue) : Nat := i.bitsOf 12 7
def Issue.rnd (i : Issue) : Nat := if i.imm then 0 else i.bitsOf 10 2
def Issue.sat (i : Issue) : Bool := !i.imm && i.bitsOf 9 1 = 1
/-- Reserved bits [8:0] of format R. -/
def Issue.resvR (i : Issue) : Nat := if i.imm then 0 else i.bitsOf 0 9
/-- The immediate of format I, as a signed value. -/
def Issue.immS (i : Issue) : Int := toSigned 26 (i.bitsOf 0 26)

/-! ## FMT and OP (R137, R138, R149) -/

/-- The FMT and OP codes that the instruction table gives an instruction, as 256 × FMT + OP; none for the commands that are
no instructions. -/
def opCodes : Instr → List Nat
  | .add _ => [0x001, 0x101]
  | .sub _ => [0x002, 0x102]
  | .mul _ => [0x003, 0x103]
  | .mulhi _ => [0x004, 0x104]
  | .fma _ => [0x005]
  | .min _ => [0x006, 0x106]
  | .max _ => [0x007, 0x107]
  | .and _ => [0x008, 0x108]
  | .or _ => [0x009, 0x109]
  | .xor _ => [0x00a, 0x10a]
  | .shl _ => [0x00b, 0x10b]
  | .shr _ => [0x00c, 0x10c]
  | .cmp _ => [0x00d, 0x10d]
  | .vecSel _ => [0x00e]
  | .cvt _ => [0x00f]
  | .vecDiv _ => [0x010]
  | .vecSqrt _ => [0x011]
  | .vecPack _ => [0x012]
  | .vecUnpk _ => [0x013]
  | .mov _ => [0x014, 0x114]
  | .abs _ => [0x015]
  | .neg _ => [0x016]
  | .vecFn _ => [0x017]
  | .popc _ => [0x018]
  | .clz _ => [0x019]
  | .sclFlags _ => [0x01a]
  | .sclCyc _ => [0x01b]
  | .vecVote _ => [0x020]
  | .vecBcast _ => [0x021, 0x121]
  | .vecShfl _ => [0x022, 0x122]
  | .vecPerm _ => [0x023]
  | .vecRed _ => [0x024]
  | .vecScan _ => [0x025]
  | .movK _ => [0x701]
  | .ld _ => [0x201]
  | .st _ => [0x202]
  | .atomAdd _ => [0x203]
  | .atomMin _ => [0x204]
  | .atomMax _ => [0x205]
  | .atomAnd _ => [0x206]
  | .atomOr _ => [0x207]
  | .atomXor _ => [0x208]
  | .atomXchg _ => [0x209]
  | .atomCas _ => [0x20a]
  | .hredAdd _ => [0x210]
  | .hredMin _ => [0x211]
  | .hredMax _ => [0x212]
  | .hredAddOrd _ => [0x213]
  | .hredAnd _ => [0x214]
  | .hredOr _ => [0x215]
  | .hredXor _ => [0x216]
  | .lockAcq _ => [0x220]
  | .lockRel _ => [0x221]
  | .bra _ => [0x301]
  | .brx _ => [0x302]
  | .mxfLd _ => [0x401]
  | .mxfSt _ => [0x402]
  | .mxfMma _ => [0x403]
  | .mxfRel _ => [0x404]
  | .mxdMma _ => [0x501]
  | .cpy _ => [0x502]
  | .vecEpi _ => [0x503]
  | .nop _ => [0x601]
  | .exit _ => [0x602]
  | .barG _ => [0x603]
  | .barL _ => [0x604]
  | .fenceT _ => [0x605]
  | .fenceH _ => [0x606]
  | .fenceX _ => [0x607]
  | .evtSet _ => [0x608]
  | .evtWait _ => [0x609]
  | .evtTest _ => [0x60a]
  | .tokWait _ => [0x60b]
  | .tokTest _ => [0x60c]
  | .embGen _ => [0x60d]
  | .embGen64 _ => [0x60e]
  | _ => []

/-- Every FMT and OP that the table lists: formats R, I, M, B, X, D, S and K. -/
def listedCodes : List Nat :=
  [0x001, 0x002, 0x003, 0x004, 0x005, 0x006, 0x007, 0x008, 0x009, 0x00a, 0x00b, 0x00c, 0x00d, 0x00e, 0x00f, 0x010, 0x011, 0x012, 0x013, 0x014, 0x015, 0x016, 0x017, 0x018, 0x019, 0x01a, 0x01b, 0x020, 0x021, 0x022, 0x023, 0x024, 0x025] ++
  [0x101, 0x102, 0x103, 0x104, 0x106, 0x107, 0x108, 0x109, 0x10a, 0x10b, 0x10c, 0x10d, 0x114, 0x121, 0x122] ++
  [0x201, 0x202, 0x203, 0x204, 0x205, 0x206, 0x207, 0x208, 0x209, 0x20a, 0x210, 0x211, 0x212, 0x213, 0x214, 0x215, 0x216, 0x220, 0x221] ++
  [0x301, 0x302] ++
  [0x401, 0x402, 0x403, 0x404] ++
  [0x501, 0x502, 0x503] ++
  [0x601, 0x602, 0x603, 0x604, 0x605, 0x606, 0x607, 0x608, 0x609, 0x60a, 0x60b, 0x60c, 0x60d, 0x60e] ++
  [0x701]

/-- The word names an instruction: its FMT is valid and its OP is listed for it (R139). -/
def Issue.listed (i : Issue) : Bool := listedCodes.contains i.code
/-- The word is one of an instruction. -/
def Issue.spells (i : Issue) (c : Instr) : Bool := (opCodes c).contains i.code

end Sys2Proof

namespace Sys2Proof.Machine

/-! ## TYPE codes (R145) -/

/-- The width in bits of one element of a TYPE. -/
def tyWidth (t : Nat) : Nat :=
  match t with
  | 0 => 32 | 1 => 32 | 2 => 64 | 3 => 64 | 4 => 64 | 5 => 32 | 6 => 16 | 7 => 16
  | 12 => 6 | 13 => 6 | 14 => 4 | _ => 8

/-- The bits of a register operand of a TYPE: 64 for the pair types, 32 otherwise. -/
def regWidth (t : Nat) : Nat := if t = 2 ∨ t = 3 ∨ t = 4 then 64 else 32

def tyWide (t : Nat) : Bool := t = 2 || t = 3 || t = 4
def tyInt (t : Nat) : Bool := t ≤ 3 || t = 15
def tySigned (t : Nat) : Bool := t = 0 || t = 2 || t = 15
/-- Two elements per register. -/
def tyPacked (t : Nat) : Bool := t = 6 || t = 7

/-- The floating-point format of a TYPE. -/
def tyFmt (t : Nat) : FpFmt :=
  match t with
  | 4 => Fp.f64 | 5 => Fp.f32 | 6 => Fp.f16 | 7 => Fp.bf16
  | 8 => Fp.e4m3 | 9 => Fp.e5m2 | 10 => Fp.e4m3 | 11 => Fp.e5m2
  | 12 => Fp.e3m2 | 13 => Fp.e2m3 | _ => Fp.e2m1

/-- An operand field names a scalar register (R140). -/
def isScalar (o : Nat) : Bool := bitAt o 6
def opReg (o : Nat) : Nat := o % 64

/-- A 64-bit value in vector registers needs an even register (R88). -/
def pairOk (t o : Nat) : Bool := isScalar o || !tyWide t || o % 2 = 0

/-! ## Register reads -/

def Ctx.vreg (x : Ctx) (r j : Nat) : Nat := (SMap.getD x.v (32 * r + j) 0).toNat
def Ctx.vpois (x : Ctx) (r j : Nat) : Nat := SMap.getD x.vp (32 * r + j) 0
def Ctx.sreg (x : Ctx) (r : Nat) : Nat := (SMap.getD x.s r 0).toNat
def Ctx.spois (x : Ctx) (r : Nat) : Nat := SMap.getD x.sp r 0
/-- Predicate register; Q0 reads as all ones (R141). -/
def Ctx.qreg (x : Ctx) (q : Nat) : Word32 := if q = 0 then BitVec.allOnes 32 else SMap.getD x.q q 0

/-- The operand value of w bits (32 or 64) for a lane. -/
def Ctx.opVal (x : Ctx) (w o j : Nat) : Nat :=
  if isScalar o then x.sreg (opReg o) % 2 ^ w
  else if w = 64 then x.vreg (opReg o) j + x.vreg (opReg o + 1) j * 2 ^ 32
  else x.vreg (opReg o) j

/-- Is any of the low nb bytes of the operand poisoned (R497)? -/
def Ctx.opPois (x : Ctx) (nb o j : Nat) : Bool :=
  if isScalar o then x.spois (opReg o) % 2 ^ nb != 0
  else if nb ≤ 4 then x.vpois (opReg o) j % 2 ^ nb != 0
  else x.vpois (opReg o) j != 0 || x.vpois (opReg o + 1) j != 0

/-! ## Register writes -/

def Ctx.putV (x : Ctx) (r j v pois : Nat) : Ctx :=
  { x with v := SMap.setD x.v (32 * r + j) 0 (BitVec.ofNat 32 v),
           vp := SMap.setD x.vp (32 * r + j) 0 (pois % 16) }
def Ctx.putS (x : Ctx) (r v pois : Nat) : Ctx :=
  { x with s := SMap.setD x.s r 0 (BitVec.ofNat 64 v), sp := SMap.setD x.sp r 0 (pois % 256) }
def Ctx.putQ (x : Ctx) (q : Nat) (v : Word32) : Ctx :=
  if q = 0 then x else { x with q := SMap.setD x.q q 0 v }
/-- Write one lane's bit of a predicate. -/
def Ctx.putQbit (x : Ctx) (q j : Nat) (b : Bool) : Ctx :=
  let m : Word32 := BitVec.ofNat 32 (2 ^ j)
  x.putQ q (if b then x.qreg q ||| m else x.qreg q &&& ~~~m)

/-- Write a value of w bits to a vector operand's lane. -/
def Ctx.putLane (x : Ctx) (w o j v : Nat) (pois : Bool) : Ctx :=
  let p := if pois then 15 else 0
  if w = 64 then (x.putV (opReg o) j (v % 2 ^ 32) p).putV (opReg o + 1) j (v / 2 ^ 32) p
  else x.putV (opReg o) j v p

/-- A 32-bit result in a scalar register is zero-extended for U32 and F32, sign-extended for I32 (R145). -/
def scalarExt (t v : Nat) : Nat :=
  if t = 0 then ofInt 64 (toSigned 32 v) else v

/-- Write a scalar result of a TYPE. -/
def Ctx.putScalar (x : Ctx) (t o v : Nat) (pois : Bool) : Ctx :=
  x.putS (opReg o) (scalarExt t v) (if pois then 255 else 0)

/-! ## Lanes -/

/-- The lanes of a mask, ascending. -/
def lanesOf (m : BitVec 32) : List Nat := (List.range 32).filter (fun j => m.getLsbD j)
def maskLanes (l : List Nat) : BitVec 32 :=
  l.foldl (fun m j => m ||| BitVec.ofNat 32 (2 ^ j)) 0

/-- The subgroup that holds a lane, and its place. -/
def Ctx.subOf (x : Ctx) (lane : Nat) : Option Sub := x.subs.find? (fun u => u.mask.getLsbD lane)

/-- Change the subgroup that holds a lane. -/
def Ctx.updSub (x : Ctx) (lane : Nat) (f : Sub → Sub) : Ctx :=
  { x with subs := x.subs.map (fun u => if u.mask.getLsbD lane then f u else u) }

/-- Lanes enabled for an instruction (R142). -/
def enabledMask (x : Ctx) (u : Sub) (i : Issue) : BitVec 32 :=
  u.mask &&& x.live &&& (if i.pneg then ~~~(x.qreg i.pq) else x.qreg i.pq)

/-! ## Contexts in a tile -/

def State.ctx (s : State) (n c : Nat) : Option Ctx := SMap.find (s.tile n).ctxs c

/-- Change a resident context. -/
def State.updCtx (s : State) (n c : Nat) (f : Ctx → Ctx) : State :=
  s.updTile n (fun t => { t with ctxs := match SMap.find t.ctxs c with
    | some x => SMap.ins t.ctxs c (f x)
    | none => t.ctxs })

end Sys2Proof.Machine
end

