-- ==== Sys2Proof/Machine/Flags.lean ====
section
/-! DEFINITION. The sticky flag word of a context and what is counted beside it (spec/06 R229, R230,
R232; spec/07 R250, R251, R253, R256, R271, R272). -/
namespace Sys2Proof.Machine

/-- OR flags into a context's word (R230). -/
def Ctx.orFlags (x : Ctx) (fl : Nat) : Ctx := { x with flags := x.flags ||| fl }

/-- PERM_OOB is set by an instruction: the flag, the counter, the cause and the error (R253, R256, R272). -/
def State.permOob (s : State) (n c : Nat) : State :=
  (((s.updCtx n c (fun x => x.orFlags Fp.flPermOob)).bump (pgVec n) Reg.vecOobCount 1).setCause
    (pgVec n) Reg.causeVecPermOob).err (pgVec n) 0x41 c

/-- EMPTY is set by an issue: the flag, the counter, the cause and the error (R251, R271, R272). -/
def State.emptyRed (s : State) (n c : Nat) : State :=
  (((s.updCtx n c (fun x => x.orFlags Fp.flEmpty)).bump (pgVec n) Reg.vecEmptyCount 1).setCause
    (pgVec n) Reg.causeVecEmpty).err (pgVec n) 0x42 c

/-- A group's flag word enters the tile's stoke flag summary (R232). -/
def State.sumFlags (s : State) (n fl : Nat) : State :=
  s.wr (pgVec n) Reg.vecStkFlags (s.rd (pgVec n) Reg.vecStkFlags ||| fl)

end Sys2Proof.Machine
end

