-- ==== Sys2Proof/Machine/Groups.lean ====
section
/-! DEFINITION. Thread groups: subgroups, joins, barriers, exits, tile exceptions, tile overrun, and
the frame every Yalzu instruction issues in (spec/03 R98 to R118, R132, R133, R753; spec/04 R139, R142). -/
namespace Sys2Proof.Machine

/-! ## Joins (R103, R104) -/

/-- Subgroups at the join address of an entry that belong to its mask. -/
def atJoin (join : Nat) (m : BitVec 32) (u : Sub) : Bool :=
  u.pc = join && (u.wait = .ready || u.wait = .join) && u.mask &&& m != 0

/-- Merge the subgroups that meet at a join into the first of them. -/
def mergeSubs (join : Nat) (m : BitVec 32) (l : List Sub) : List Sub :=
  let here := l.filter (atJoin join m)
  let rest := l.filter (fun u => !atJoin join m u)
  match here with
  | [] => rest
  | u :: us =>
    { pc := join, mask := us.foldl (fun a w => a ||| w.mask) u.mask,
      epoch := us.foldl (fun a w => max a w.epoch) u.epoch, wait := .ready } :: rest

/-- The split-stack entry on top of those that hold lanes of a subgroup. -/
def topEntry (live : BitVec 32) (st : List (Nat × BitVec 32)) (m : BitVec 32) : Option (Nat × BitVec 32) :=
  st.find? (fun e => e.2 &&& live &&& m != 0)

/-- A subgroup at the join address of its top entry waits there (R104). -/
def Sub.atTop (live : BitVec 32) (st : List (Nat × BitVec 32)) (u : Sub) : Sub :=
  if (u.wait = .ready ∨ u.wait = .join) ∧ (topEntry live st u.mask).any (fun e => decide (e.1 = u.pc)) then
    { u with wait := .join } else u

/-- Every live lane of an entry's mask waits at its join address. -/
def gathered (live : BitVec 32) (subs : List Sub) (e : Nat × BitVec 32) : Bool :=
  let here := subs.filter (fun u => decide (u.wait = .join) && atJoin e.1 (e.2 &&& live) u)
  e.2 &&& live &&& ~~~(here.foldl (fun a u => a ||| u.mask) 0) == 0

/-- Let subgroups wait at, and leave, the join addresses of the split stack (R104). A subgroup waits for the topmost entry
that holds its lanes, whatever other subgroups have pushed since, and an entry whose lanes have all come is popped wherever
it stands (notes/assumptions/65.md). -/
def settleAux : Nat → BitVec 32 → List Sub → List (Nat × BitVec 32) → List Sub × List (Nat × BitVec 32)
  | 0, _, subs, st => (subs, st)
  | k + 1, live, subs, st =>
    let subs1 := subs.map (Sub.atTop live st)
    match st.find? (gathered live subs1) with
    | none => (subs1, st)
    | some e => settleAux k live (mergeSubs e.1 (e.2 &&& live) subs1) (st.erase e)

def Ctx.settle (x : Ctx) : Ctx :=
  let r := settleAux (x.stack.length + 1) x.live x.subs x.stack
  { x with subs := r.1, stack := r.2 }

/-- Move the subgroup of a lane to an address. -/
def Ctx.goto (x : Ctx) (lane pc : Nat) : Ctx := (x.updSub lane (fun u => { u with pc := pc })).settle

/-- The subgroup of a lane goes past its instruction. -/
def Ctx.past (x : Ctx) (lane : Nat) : Ctx :=
  (x.updSub lane (fun u => { u with pc := u.pc + 8 })).settle

/-- The subgroup of a lane goes past its instruction and waits. -/
def Ctx.pastWait (x : Ctx) (lane : Nat) (w : Wait) : Ctx :=
  x.updSub lane (fun u => { u with pc := u.pc + 8, wait := w })

/-- Wake the subgroups that satisfy a test. -/
def Ctx.wakeIf (x : Ctx) (p : Wait → Bool) : Ctx :=
  (({ x with subs := x.subs.map (fun u => if p u.wait then { u with wait := .ready } else u) } : Ctx)).settle

/-! ## Overrun and exceptions (R99, R100, R132, R133) -/

/-- A tile stops: its groups are terminated, and kept aside for the rest of the cycle (R99, R100). -/
def Tile.halt (t : Tile) (cyc state : Nat) : Tile :=
  { stopTile t with
    overrun := true, stop := some { cyc := cyc, ctxs := t.ctxs, serials := t.serials, resident := t.resident, state := state } }

/-- The cycle in which the tile entered overrun has not ended. -/
def Tile.stopsAt (t : Tile) (cyc : Nat) : Bool :=
  t.overrun && (match t.stop with | some r => decide (r.cyc = cyc) | none => false)

/-- The tile enters overrun of a kind at a cycle; a kind of the same cycle that is higher replaces the
recorded one (R99, R100, R101, R135). -/
def State.overrunTile (s : State) (n kind entry cyc : Nat) : State :=
  if (s.tile n).overrun then
    if (s.tile n).stopsAt cyc ∧ s.rd (pgTil n) Reg.tilOvrKind < kind then
      s.wrs (pgTil n) [(Reg.tilOvrKind, kind), (Reg.tilOvrEntry, entry)]
    else s
  else
    ((s.wrs (pgTil n) [(Reg.tilOvrKind, kind), (Reg.tilOvrEntry, entry),
      (Reg.tilOvrCycCycle, cyc), (Reg.tilState, 3)]).updTile n
        (fun t => t.halt cyc (s.rd (pgTil n) Reg.tilState))).setCause (pgTil n) Reg.causeTilOverrun

/-- A command of a tile at a cycle. In the cycle in which the tile enters overrun its groups still issue and its control core
still checks, so that the highest kind and the lowest context of the cycle are recorded (R99, R133); the groups are put back
for the command and set aside again (R100: termination comes within 4 cy; notes/assumptions/59.md). -/
def State.inCycle (s : State) (n cyc : Nat) (f : State → State) : State :=
  let s := s.atCycle cyc
  match (s.tile n).stop with
  | some r =>
    if (s.tile n).stopsAt cyc then
      let s1 := f ((s.updTile n (fun t => { t with ctxs := r.ctxs, serials := r.serials, resident := r.resident })).wr (pgTil n)
        Reg.tilState r.state)
      (s1.updTile n (fun t => t.halt cyc r.state)).wr (pgTil n) Reg.tilState 3
    else f s
  | none => f s

/-- An exception is the one to capture: the first of the stoke, or that of a lower context in the cycle of the first (R133).
WL_BAD comes from no context: it is neither replaced nor replaces (notes/assumptions/59.md). -/
def State.capturesExc (s : State) (n c code cyc : Nat) : Bool :=
  !(s.tile n).excTaken || ((s.tile n).stopsAt cyc && decide (code ≠ 0x19) && decide (s.rd (pgTil n) Reg.tilExcCode ≠ 0x19) &&
    decide (c < s.rd (pgTil n) Reg.tilExcCtx))

/-- A tile exception (R132, R133): the first of the stoke is captured, the tile enters overrun of kind
4. The spec gives ERR_FIRST.DETAIL of these codes no value: it is free (notes/assumptions/2.md). -/
def State.raiseExc (s : State) (n c code : Nat) (lanes : BitVec 32) (pc entry cyc : Nat) : State :=
  let s1 := if !s.capturesExc n c code cyc then s else
    (s.wrs (pgTil n) [(Reg.tilExcValid, 1), (Reg.tilExcCode, code), (Reg.tilExcCtx, c),
      (Reg.tilExcPc, pc), (Reg.tilExcMaskLanes, lanes.toNat)]).updTile n
        (fun t => { t with excTaken := true })
  let s2 := (s1.err (pgTil n) code (s1.freeBits 16)).tookFree
  (s2.setCause (pgTil n) Reg.causeTilException).overrunTile n 4 entry cyc

/-! ## Barriers (R114 to R118) -/

/-- The lanes of a context that wait at a barrier. -/
def Ctx.atBar (x : Ctx) (launch : Bool) : BitVec 32 :=
  x.subs.foldl (fun m u => match u.wait with
    | .bar l _ => if l = launch then m ||| u.mask else m
    | _ => m) 0

/-- The id pending at a barrier scope of a context. -/
def Ctx.barId (x : Ctx) (launch : Bool) : Option Nat :=
  x.subs.findSome? (fun u => match u.wait with
    | .bar l id => if l = launch then some id else none
    | _ => none)

/-- Release the lanes of a context from a barrier: epoch + 1 (R116). -/
def Ctx.releaseBar (x : Ctx) (launch : Bool) : Ctx :=
  (({ x with subs := x.subs.map (fun u => match u.wait with
      | .bar l _ => if l = launch then { u with wait := .ready, epoch := u.epoch + 1 } else u
      | _ => u) } : Ctx)).settle

/-- The resident contexts of a launch. -/
def Tile.launchCtxs (t : Tile) (entry : Nat) : List (Nat × Ctx) :=
  t.ctxs.filter (fun e => e.2.entry = entry)

/-- BAR.G releases when every live lane of the group has arrived (R115, R116). -/
def Tile.tryBarG (t : Tile) (c : Nat) : Tile :=
  match SMap.find t.ctxs c with
  | none => t
  | some x =>
    if x.atBar false ≠ 0 ∧ x.live &&& ~~~(x.atBar false) = 0 then
      { t with ctxs := SMap.ins t.ctxs c (x.releaseBar false) }
    else t

/-- BAR.L releases when every live lane of every resident group of the launch has arrived. -/
def Tile.tryBarL (t : Tile) (entry : Nat) : Tile :=
  let l := t.launchCtxs entry
  if l.any (fun e => e.2.atBar true != 0) &&
     l.all (fun e => e.2.live &&& ~~~(e.2.atBar true) == 0) then
    { t with ctxs := t.ctxs.map (fun e => if e.2.entry = entry then (e.1, e.2.releaseBar true) else e) }
  else t

/-! ## Exit (R115, R169, R232) -/

/-- Remove a group whose lanes have all exited: its flags enter the summary, its launch may be complete. -/
def State.retireGroup (s : State) (n c cyc : Nat) : State :=
  match s.ctx n c with
  | none => s
  | some x =>
    if x.live ≠ 0 then s
    else
      let s1 := s.sumFlags n x.flags
      s1.updTile n (fun t =>
        let ctxs := SMap.del t.ctxs c
        { t with ctxs := ctxs, lastExit := max t.lastExit cyc,
                 resident := if ctxs.any (fun e => e.2.entry = x.entry) then t.resident
                   else t.resident.filter (fun e => e.1 ≠ x.entry) })

/-- Lanes of a context exit: they leave their subgroup, the split stack and every barrier count. -/
def Ctx.exitLanes (x : Ctx) (m : BitVec 32) : Ctx :=
  (({ x with live := x.live &&& ~~~m,
             subs := (x.subs.map (fun u => { u with mask := u.mask &&& ~~~m })).filter
               (fun u => u.mask != 0) } : Ctx)).settle

/-! ## Waking subgroups of a tile -/

def Tile.wakeIf (t : Tile) (p : Wait → Bool) : Tile :=
  { t with ctxs := t.ctxs.map (fun e => (e.1, e.2.wakeIf p)) }

/-- Set an event flag of a tile and release its waiters (R92, R752). -/
def State.setEvent (s : State) (n k : Nat) : State :=
  (s.wr (pgTil n) Reg.tilEvt (withBit (s.rd (pgTil n) Reg.tilEvt) k)).updTile n
    (fun t => t.wakeIf (fun w => w = .evt k))

/-- An operation completes its token: waiting subgroups whose operations are all done go on (R163). -/
def Tile.opDone (t : Tile) (op : Nat) : Tile :=
  let ops := t.ops.filter (fun e => e.1 ≠ op)
  ({ t with ops := ops }).wakeIf (fun w => match w with
    | .tok l => l.all (fun o => !ops.any (fun e => e.1 = o))
    | _ => false)

/-- Is an operation of a token still pending (R162)? -/
def Tile.tokBusy (t : Tile) (k : Nat) : Bool := t.ops.any (fun e => e.2 = k)

/-! ## The issue frame -/

/-- An execution of a V instruction with at least one enabled lane (spec/15 R521, R522). -/
def State.vIssue (s : State) (n : Nat) : State :=
  let stray := match s.plans.active with
    | some p => bitAt p.flags 0 && !bitAt p.flags 2
    | none => false
  let s1 := if stray then ({ s with record := { s.record with vstray := true } }).logFault 2 else s
  (s1.count (0x100 + n) 8 1).updTile n (fun t => { t with vIssues := t.vIssues + 1, vStray := t.vStray || stray })

/-- The subgroup that issues goes past its instruction. -/
def State.past (s : State) (i : Issue) : State :=
  s.updCtx i.tile i.ctx (fun x => x.past i.lane)

/-- Raise an exception from an issue. -/
def State.raiseAt (s : State) (i : Issue) (x : Ctx) (u : Sub) (code : Nat) (lanes : BitVec 32) : State :=
  s.raiseExc i.tile i.ctx code lanes u.pc x.entry i.cyc.toNat

/-! ## The instruction cache (R87, R89, R753) -/

/-- The cached line of an address, with its key. -/
def Tile.icFind (t : Tile) (a : Nat) : Option (Nat × IcLine) := t.icache.find? (fun e => decide (e.2.addr = a / 64 * 64))

/-- The way that a fill of a set takes: a free one, else the one used longest ago (notes/assumptions/60.md). -/
def Tile.icWay (t : Tile) (set : Nat) : Nat :=
  let keys := (List.range 4).map (4 * set + ·)
  let age := fun (k : Nat) => match SMap.find t.icache k with | some l => l.age + 1 | none => 0
  match keys.find? (fun k => age k = 0) with
  | some k => k
  | none => keys.foldl (fun b k => if age b < age k then k else b) (4 * set)

/-- A line becomes the youngest of its set. -/
def Tile.icUse (t : Tile) (k : Nat) (l : IcLine) : Tile :=
  let older : SMap IcLine := t.icache.map (fun e => if e.1 / 4 = k / 4 then (e.1, { e.2 with age := e.2.age + 1 }) else e)
  { t with icache := SMap.ins older k { l with age := 0 } }

/-- A fetch at an address of the code region: a hit, or a fill of the line with its poison (R89). -/
def State.fetch (s : State) (n a : Nat) : State :=
  s.updTile n (fun t => match t.icFind a with
    | some (k, l) => t.icUse k l
    | none =>
      let la := a / 64 * 64
      t.icUse (t.icWay (a / 64 % 128))
        { addr := la, bad := BitVec.ofNat 8 (maskOf ((List.range 8).filter (fun k => s.badAt (la + 8 * k)))), age := 0 })

/-- The word at an address is poisoned as a fetch finds it: in the cached line, or in the hearth (R753). -/
def State.fetchBad (s : State) (n a : Nat) : Bool :=
  match (s.tile n).icFind a with
  | some (_, l) => l.bad.getLsbD (a / 8 % 8)
  | none => s.badAt a

/-! ## Merging into issue slots (R109, R110) -/

/-- Two subgroups of different contexts meet the conditions of R109 that do not depend on the instruction at their PC. -/
def canMerge (x y : Ctx) : Bool :=
  decide (x.entry = y.entry) && !x.frag && !y.frag && x.subs.any (fun u => y.subs.any (fun w =>
    decide (u.pc = w.pc) && decide (u.epoch = w.epoch) && decide (u.mask &&& w.mask = 0) && decide (u.wait = .ready) &&
    decide (w.wait = .ready)))

/-- A sequencer may hold a merged slot: repacking is on and some of its subgroups can merge. -/
def State.mayMerge (s : State) (n q : Nat) : Bool :=
  let held := (List.range 4).filterMap (fun c => (SMap.find (s.tile n).ctxs (4 * q + c)).map (fun x => (c, x)))
  s.flag (pgSeq n q) Reg.seqCtrlRepackEn && held.any (fun a => held.any (fun b => decide (a.1 < b.1) && canMerge a.2 b.2))

/-- Merges are timing: when one may have happened at an issue, SEQ_MERGE is no longer known to be 0 (notes/assumptions/2.md). -/
def State.noteMerge (s : State) (n c : Nat) : State :=
  if s.mayMerge n (c / 4) then s.wr (pgSeq n (c / 4)) Reg.seqMergeMerges 1 else s

/-- What a fetch of a word that issues leaves. -/
def State.fetched (s : State) (i : Issue) (u : Sub) : State := (s.noteMerge i.tile i.ctx).fetch i.tile u.pc

/-! ## The frame -/

/-- An exception of the enabled lanes; with none enabled the instruction goes past (R142; notes/assumptions/4.md). -/
def State.raiseIllegal (s : State) (i : Issue) (x : Ctx) (u : Sub) : State :=
  if enabledMask x u i = 0 then s.past i else s.raiseAt i x u 0x10 (enabledMask x u i)

/-- The frame of every Yalzu instruction. The command has no effect when its context, its subgroup or
the subgroup's readiness is missing, or when its word names another instruction (notes/assumptions/3.md). A PC outside the
code region raises ADDR (R171); a poisoned word is not issued and puts the tile in overrun of kind 7 (R753); a word whose FMT
and OP name no instruction, and an encoding that is not valid, raise ILLEGAL in the enabled lanes, and do nothing with none
enabled (R139, R142; notes/assumptions/4.md). Otherwise `body` runs with the context, the subgroup and the enabled lanes. -/
def State.issueAs (s : State) (c : Instr) (i : Issue) (legal : Ctx → Bool)
    (body : State → Ctx → Sub → BitVec 32 → State) : State :=
  if i.listed && !i.spells c then s
  else s.inCycle i.tile i.cyc.toNat (fun s =>
    match s.ctx i.tile i.ctx with
    | none => s
    | some x =>
      match x.subOf i.lane with
      | none => s
      | some u =>
        if u.wait ≠ .ready then s
        else if !s.inCode u.pc 8 then s.raiseAt i x u 0x12 (u.mask &&& x.live)
        else if s.fetchBad i.tile u.pc then ((s.fetch i.tile u.pc).consumeAt i.tile).overrunTile i.tile 7 x.entry i.cyc.toNat
        else
          let s := s.fetched i u
          if !i.listed || !legal x then s.raiseIllegal i x u
          else body (s.count (0x100 + i.tile) 1 1) x u (enabledMask x u i))

/-- A second residue mismatch, or a register parity mismatch, poisons every result and consumes an
uncorrectable error; a first one executes the instruction again (spec/14 R493, R496, R497; spec/16 R550). -/
def issueSpoils (i : Issue) : Bool := decide (2 ≤ i.residue) || i.parity

def State.spoil (s : State) (i : Issue) : State :=
  let s1 := if i.residue = 0 then s else s.logFault 6
  if 2 ≤ i.residue ∨ i.parity then s1.consumeAt i.tile else s1

end Sys2Proof.Machine
end

