-- ==== Sys2Proof/Machine/VecFn.lean ====
section
/-! DEFINITION. The bound of VEC.FN (spec/06 R228): each function as a dyadic number correct to far more than binary32 holds, and the
test that a result lies within 1 ulp of it. The algorithm itself is a free value (notes/assumptions/5.md). -/
namespace Sys2Proof.Fn

/-- Fraction bits of the fixed-point numbers below. -/
def fine : Nat := 160
def unit : Nat := 2 ^ fine

/-- A signed dyadic number (−1)^neg × mag × 2^exp. -/
structure Dyad where
  neg : Bool
  mag : Nat
  exp : Int
  deriving DecidableEq, Repr

/-- 1 / (m × 2^e). -/
def recip (m : Nat) (e : Int) : Dyad :=
  let k := bitLength m + 80
  ⟨false, 2 ^ k / m, -e - k⟩

/-- 1 / √(m × 2^e): the square root of the reciprocal, at an even exponent. -/
def recipSqrt (m : Nat) (e : Int) : Dyad :=
  let r := recip m e
  let q := 80 + (r.exp % 2).toNat
  ⟨false, Fp.isqrt (r.mag * 2 ^ q), (r.exp - q) / 2⟩

/-- The product of 2^(2^-i) over the set bits of a fraction of k bits; `c` is 2^(2^-1) and so on by square roots. -/
def powBits : Nat → Nat → Nat → Nat → Nat
  | 0, _, _, acc => acc
  | k + 1, fr, c, acc => powBits k fr (Fp.isqrt (c * unit)) (if bitAt fr k then acc * c / unit else acc)

/-- 2^x for x = v / 2^100. -/
def exp2 (v : Int) : Dyad :=
  ⟨false, powBits 100 (v % (2 ^ 100 : Int)).toNat (Fp.isqrt (2 * unit * unit)) unit, v / (2 ^ 100 : Int) - fine⟩

/-- Fraction bits of the logarithm of y / 2^fine in [1, 2), by squaring. -/
def logBits : Nat → Nat → Nat → Nat
  | 0, _, acc => acc
  | k + 1, y, acc =>
    let q := y * y / unit
    if 2 * unit ≤ q then logBits k (q / 2) (2 * acc + 1) else logBits k q (2 * acc)

/-- log2 of m × 2^e. -/
def log2 (m : Nat) (e : Int) : Dyad :=
  let b := bitLength m - 1
  let v : Int := (e + b) * (2 ^ 120 : Int) + logBits 120 (m * 2 ^ fine / 2 ^ b) 0
  ⟨decide (v < 0), v.natAbs, -120⟩

/-- Cosine and sine of π × 2^-i for i from 2 on, from those of i - 1. -/
def halfAngle (a : Nat × Nat) : Nat × Nat :=
  let c := Fp.isqrt ((unit + a.1) * unit / 2)
  (c, a.2 * unit / (2 * c))

/-- cos and sin of the sum of the angles π × 2^-i named by the low k bits of t, the highest naming `a`, with those of `z`. -/
def turnBits : Nat → Nat → Nat × Nat → Int × Int → Int × Int
  | 0, _, _, z => z
  | k + 1, t, a, z =>
    turnBits k t (halfAngle a) (if bitAt t k then
      ((z.1 * a.1 - z.2 * a.2) / unit, (z.1 * a.2 + z.2 * a.1) / unit) else z)

/-- cos and sin of π × t / 2^64, t below 2^65: the quarter turns are exact. -/
def turn (t : Nat) : Int × Int :=
  let z := turnBits 63 t (halfAngle (0, unit)) ((unit : Int), 0)
  let z := if bitAt t 63 then (-z.2, z.1) else z
  if bitAt t 64 then (-z.1, -z.2) else z

/-- The sine of π × 2^-40, whose ratio to 2^-40 is π but for 2^-78. -/
def smallSine : Nat := ((List.range 39).foldl (fun a _ => halfAngle a) (0, unit)).2

/-- A signed number of 2^fine. -/
def ofFixed (v : Int) : Dyad := ⟨decide (v < 0), v.natAbs, -fine⟩

/-- sin(π x) or cos(π x), x = (−1)^neg × m × 2^e. -/
def trig (cosine neg : Bool) (m : Nat) (e : Int) : Dyad :=
  if (bitLength m : Int) + e < -40 then
    if cosine then ⟨false, 1, 0⟩ else ⟨neg, m * smallSine, e + 40 - fine⟩
  else
    let v := Fp.signed neg (m * 2 ^ (e + 64).toNat)
    let z := turn (v % (2 ^ 65 : Int)).toNat
    ofFixed (if cosine then z.1 else z.2)

/-- A finite operand in units of 2^-100, for EXP2: what is smaller is 0 but for its sign, which no result shows. -/
def fixed100 (neg : Bool) (m : Nat) (e : Int) : Int :=
  Fp.signed neg (if 0 ≤ e + 100 then m * 2 ^ (e + 100).toNat else m / 2 ^ (-(e + 100)).toNat)

/-- The value of a function by its code: 0 EXP2, 1 LOG2, 2 RCP, 3 RSQRT, 4 SINPI, 5 COSPI. -/
def exact (f : Nat) (neg : Bool) (m : Nat) (e : Int) : Dyad :=
  match f with
  | 0 => if 9 < (bitLength m : Int) + e then ⟨false, 1, if neg then -1000 else 1000⟩ else exp2 (fixed100 neg m e)
  | 1 => log2 m e
  | 2 => { recip m e with neg := neg }
  | 3 => recipSqrt m e
  | 4 => trig false neg m e
  | _ => trig true neg m e

/-- The exponent of the last place of binary32 at a number; at 2^128 and above, that of the largest numbers. -/
def lastPlace (d : Dyad) : Int := max (-149) (min 104 ((bitLength d.mag : Int) - 24 + d.exp))

/-- A binary32 result lies within 1 ulp of a number; an infinity, and every number above, count as 2^128. -/
def within (y : Nat) (d : Dyad) : Bool :=
  let v : Option Dyad := match Fp.decode Fp.f32 y with
    | .nan _ => none
    | .inf n => some ⟨n, 1, 128⟩
    | .num n m e => some ⟨n, m, e⟩
  let d := if 128 < (bitLength d.mag : Int) + d.exp then { d with mag := 1, exp := 128 } else d
  match v with
  | none => false
  | some v =>
    let lo := min (-149) (min v.exp d.exp)
    let at_ (x : Dyad) : Int := Fp.signed x.neg (x.mag * 2 ^ (x.exp - lo).toNat)
    decide ((at_ v - at_ d).natAbs ≤ 2 ^ (lastPlace d - lo).toNat)

/-- A result of VEC.FN on an ordinary operand: the free value, where it lies within 1 ulp; else the number itself, rounded. -/
def result (f x : Nat) : Nat :=
  match Fp.decode Fp.f32 x with
  | .num neg m e =>
    let d := exact f neg m e
    let y := (Config.vecFn f (BitVec.ofNat 32 x)).toNat
    if within y d then y else (Fp.narrow Fp.f32 0 false d.neg d.mag d.exp).1
  | _ => 0

end Sys2Proof.Fn
end

