-- ==== Sys2Proof/Machine/Alu.lean ====
section
/-! DEFINITION. Arithmetic, logic, comparison, conversion and moves of formats R, I and K
(spec/04 R146, R149 to R151, R748, R749, R751; spec/06 R222 to R228, R744, R745). -/
namespace Sys2Proof.Machine

/-! ## Element functions: operands and result as codes of one element, with flags -/

/-- An integer operation on the exact values of a TYPE, wrapped or saturated (R146). -/
def intOp (t : Nat) (sat : Bool) (a b : Nat) (f : Int → Int → Int) : Nat × Nat :=
  let w := tyWidth t
  let v : Nat → Int := fun x => if tySigned t then toSigned w x else (x % 2 ^ w : Nat)
  Fp.wrapInt w (tySigned t) sat (f (v a) (v b))

/-- The exact value of an integer element. -/
def intVal (t x : Nat) : Int :=
  if tySigned t then toSigned (tyWidth t) x else ((x % 2 ^ tyWidth t : Nat) : Int)

def elAdd (t rnd : Nat) (sat : Bool) (a b : Nat) : Nat × Nat :=
  if tyInt t then intOp t sat a b (· + ·)
  else Fp.addVal (tyFmt t) rnd sat (Fp.decode (tyFmt t) a) (Fp.decode (tyFmt t) b)

def elSub (t rnd : Nat) (sat : Bool) (a b : Nat) : Nat × Nat :=
  if tyInt t then intOp t sat a b (· - ·)
  else Fp.addVal (tyFmt t) rnd sat (Fp.decode (tyFmt t) a) (Fp.negVal (Fp.decode (tyFmt t) b))

def elMul (t rnd : Nat) (sat : Bool) (a b : Nat) : Nat × Nat :=
  if tyInt t then intOp t sat a b (· * ·)
  else Fp.mulVal (tyFmt t) rnd sat (Fp.decode (tyFmt t) a) (Fp.decode (tyFmt t) b)

def elMulhi (t a b : Nat) : Nat × Nat :=
  (ofInt (tyWidth t) (intVal t a * intVal t b / ((2 ^ tyWidth t : Nat) : Int)), 0)

def elFma (t rnd a b c : Nat) : Nat × Nat :=
  if tyInt t then (ofInt (tyWidth t) (intVal t a * intVal t b + intVal t c), 0)
  else Fp.fmaVal (tyFmt t) rnd false (Fp.decode (tyFmt t) a) (Fp.decode (tyFmt t) b)
    (Fp.decode (tyFmt t) c)

/-- MIN (`mx` false) or MAX (R225). -/
def elMinMax (t : Nat) (mx : Bool) (a b : Nat) : Nat × Nat :=
  if tyInt t then ((if decide (intVal t a < intVal t b) != mx then a else b) % 2 ^ tyWidth t, 0)
  else Fp.minMax (tyFmt t) mx a b

def elShl (t a b : Nat) : Nat × Nat := (a * 2 ^ (b % tyWidth t) % 2 ^ tyWidth t, 0)
def elShr (t a b : Nat) : Nat × Nat :=
  (ofInt (tyWidth t) (intVal t a / ((2 ^ (b % tyWidth t) : Nat) : Int)), 0)

def elAbs (t a : Nat) : Nat × Nat :=
  let w := tyWidth t
  if tyInt t then (ofInt w (intVal t a).natAbs, 0) else (a % 2 ^ (w - 1), 0)

def elNeg (t a : Nat) : Nat × Nat :=
  let w := tyWidth t
  if tyInt t then (ofInt w (-(intVal t a)), 0) else ((a + 2 ^ (w - 1)) % 2 ^ w, 0)

/-- A comparison by MOD: the predicate and the flags (R150, R226). -/
def elCmp (t cc a b : Nat) : Bool × Nat :=
  if tyInt t then
    let x := intVal t a
    let y := intVal t b
    (match cc with
      | 0 => decide (x = y) | 1 => decide (x ≠ y) | 2 => decide (x < y)
      | 3 => decide (x ≤ y) | 4 => decide (y < x) | _ => decide (y ≤ x), 0)
  else Fp.cmpCode (tyFmt t) cc a b

/-- A conversion between TYPE codes 0 to 7 (R227, R745, R748). -/
def elCvt (src dst rnd : Nat) (sat : Bool) (a : Nat) : Nat × Nat :=
  if tyInt src then
    if tyInt dst then Fp.wrapInt (tyWidth dst) (tySigned dst) sat (intVal src a)
    else Fp.ofIntVal (tyFmt dst) rnd sat (intVal src a)
  else
    let v := Fp.decode (tyFmt src) a
    if tyInt dst then Fp.toIntVal (tyWidth dst) (tySigned dst) rnd sat v
    else Fp.cvtVal (tyFmt dst) rnd sat v

/-- VEC.FN's special results (R228): NaN operands give the canonical NaN. -/
def fnSpecial (f a : Nat) : Option (Nat × Nat) :=
  let inf := Fp.infCode Fp.f32 false
  let ninf := Fp.infCode Fp.f32 true
  match Fp.decode Fp.f32 a with
  | .nan sg => some (Fp.canonNan Fp.f32, if sg then Fp.flInvalid else 0)
  | .inf neg =>
    match f with
    | 0 => some (if neg then 0 else inf, 0)
    | 1 => if neg then some (Fp.canonNan Fp.f32, Fp.flInvalid) else some (inf, 0)
    | 2 => some (if neg then 0x80000000 else 0, 0)
    | 3 => if neg then some (Fp.canonNan Fp.f32, Fp.flInvalid) else some (0, 0)
    | _ => some (Fp.canonNan Fp.f32, Fp.flInvalid)
  | .num neg m _ =>
    match f with
    | 1 => if m = 0 then some (ninf, Fp.flDivzero)
           else if neg then some (Fp.canonNan Fp.f32, Fp.flInvalid) else none
    | 2 => if m = 0 then some (if neg then ninf else inf, Fp.flDivzero) else none
    | 3 => if m = 0 then some (if neg then ninf else inf, Fp.flDivzero)
           else if neg then some (Fp.canonNan Fp.f32, Fp.flInvalid) else none
    | _ => none

/-- VEC.FN on binary32: the special results, otherwise a free value within 1 ulp of the exact one (notes/assumptions/5.md). -/
def elFn (f a : Nat) : Nat × Nat :=
  match fnSpecial f a with
  | some r => r
  | none => (Fn.result f a, Config.vecFnFlags f (BitVec.ofNat 32 a) % 8)

/-! ## The frame of register arithmetic -/

/-- One register-to-register operation: the TYPE of its sources and of its result, the number of
sources it reads, whether packed types act on both halves, and its element function. -/
structure RegOp where
  srcT : Nat
  dstT : Nat
  nsrc : Nat
  halves : Bool
  f : Nat → Nat → Nat → Nat × Nat

/-- Apply an operation to whole register operands; packed types act on both halves (R145). -/
def RegOp.apply (o : RegOp) (a b c : Nat) : Nat × Nat :=
  if o.halves then
    let lo := o.f (a % 65536) (b % 65536) (c % 65536)
    let hi := o.f (a / 65536) (b / 65536) (c / 65536)
    (lo.1 + hi.1 * 65536, lo.2 ||| hi.2)
  else o.f (a % 2 ^ tyWidth o.srcT) (b % 2 ^ tyWidth o.srcT) (c % 2 ^ tyWidth o.srcT)

/-- The bytes of a source operand that an operation reads. -/
def RegOp.nb (o : RegOp) : Nat := if o.halves then 4 else tyWidth o.srcT / 8

/-- Source B of a lane: the register, or the immediate sign-extended to the operand width (R138). -/
def srcBVal (i : Issue) (x : Ctx) (t j : Nat) : Nat :=
  if i.imm then ofInt (regWidth t) i.immS else x.opVal (regWidth t) i.srcB j

/-- The value, flags and poison of an operation in one lane. -/
def regLane (o : RegOp) (i : Issue) (x : Ctx) (j : Nat) : Nat × Nat × Bool :=
  let w := regWidth o.srcT
  let r := o.apply (x.opVal w i.srcA j) (srcBVal i x o.srcT j) (x.opVal w i.srcC j)
  (r.1, r.2, (decide (1 ≤ o.nsrc) && x.opPois o.nb i.srcA j)
    || (decide (2 ≤ o.nsrc) && !i.imm && x.opPois o.nb i.srcB j)
    || (decide (3 ≤ o.nsrc) && x.opPois o.nb i.srcC j))

/-- A scalar operation's effect on its context (R143, R144, R145). -/
def regScalar (o : RegOp) (i : Issue) (x : Ctx) : Ctx :=
  let r := regLane o i x 0
  (x.putScalar o.dstT i.dst r.1 (r.2.2 || issueSpoils i)).orFlags r.2.1

/-- A vector operation's effect on its context: every enabled lane from the registers as they stood. -/
def regVector (o : RegOp) (i : Issue) (x : Ctx) (en : BitVec 32) : Ctx :=
  (lanesOf en).foldl (fun y j =>
    let r := regLane o i x j
    (y.putLane (regWidth o.dstT) i.dst j r.1 (r.2.2 || issueSpoils i)).orFlags r.2.1) x

/-- Run a register operation: nothing is written with no enabled lane. -/
def State.regRun (o : RegOp) (i : Issue) (s : State) (en : BitVec 32) : State :=
  if en = 0 then s.past i
  else ((s.spoil i).updCtx i.tile i.ctx (fun x =>
    if isScalar i.dst then regScalar o i x else regVector o i x en)).past i

/-- The operand rules of a register operation (R139, R140, R143, R145). -/
def regOperandsOk (o : RegOp) (i : Issue) : Bool :=
  i.resvR = 0 &&
  pairOk o.dstT i.dst && (o.nsrc < 1 || pairOk o.srcT i.srcA) &&
  (i.imm || o.nsrc < 2 || pairOk o.srcT i.srcB) && (o.nsrc < 3 || pairOk o.srcT i.srcC) &&
  (!isScalar i.dst ||
    ((o.nsrc < 1 || isScalar i.srcA) && (i.imm || o.nsrc < 2 || isScalar i.srcB) &&
      (o.nsrc < 3 || isScalar i.srcC)))

/-- TYPE, RND and SAT under the combinations table (R151): types of the scalar, vector and immediate
forms, whether RND is allowed for floating types, and where SAT is. -/
def comboOk (i : Issue) (scalarT vectorT immT : List Nat) (rnd : Bool) (satInt satFloat : Bool) : Bool :=
  (if isScalar i.dst then scalarT.contains i.type else vectorT.contains i.type) &&
  (!i.imm || immT.contains i.type) &&
  (i.rnd = 0 || (rnd && !tyInt i.type)) &&
  (!i.sat || (if tyInt i.type then satInt else satFloat))

/-- The frame of an arithmetic instruction with MOD = 0. -/
def State.arith (s : State) (c : Instr) (i : Issue) (o : RegOp) (ok : Bool) : State :=
  s.issueAs c i (fun _ => ok && i.mod = 0 && regOperandsOk o i) (fun s _ _ en => s.regRun o i en)

/-- A two-source operation of one TYPE. -/
def binOp (i : Issue) (f : Nat → Nat → Nat × Nat) : RegOp :=
  ⟨i.type, i.type, 2, tyPacked i.type, fun a b _ => f a b⟩
/-- A one-source operation of one TYPE. -/
def unOp (i : Issue) (f : Nat → Nat × Nat) : RegOp :=
  ⟨i.type, i.type, 1, tyPacked i.type, fun a _ _ => f a⟩

def ints4 : List Nat := [0, 1, 2, 3]
def types6 : List Nat := [0, 1, 2, 3, 4, 5]
def types8 : List Nat := [0, 1, 2, 3, 4, 5, 6, 7]

/-! ## Arithmetic and logic (R149, R151) -/

def execAdd (i : Issue) (s : State) : Host.Outcome State Fault Refusal :=
  answer (s.arith (.add i) i (binOp i (elAdd i.type i.rnd i.sat)) (comboOk i types6 types8 ints4 true true true))
def execSub (i : Issue) (s : State) : Host.Outcome State Fault Refusal :=
  answer (s.arith (.sub i) i (binOp i (elSub i.type i.rnd i.sat)) (comboOk i types6 types8 ints4 true true true))
def execMul (i : Issue) (s : State) : Host.Outcome State Fault Refusal :=
  answer (s.arith (.mul i) i (binOp i (elMul i.type i.rnd i.sat)) (comboOk i types6 types8 ints4 true true false))
def execMulhi (i : Issue) (s : State) : Host.Outcome State Fault Refusal :=
  answer (s.arith (.mulhi i) i (binOp i (elMulhi i.type)) (comboOk i ints4 ints4 ints4 false false false))
def execFma (i : Issue) (s : State) : Host.Outcome State Fault Refusal :=
  answer (s.arith (.fma i) i ⟨i.type, i.type, 3, tyPacked i.type, elFma i.type i.rnd⟩
    (!i.imm && comboOk i types6 types8 [] true false false))
def execMin (i : Issue) (s : State) : Host.Outcome State Fault Refusal :=
  answer (s.arith (.min i) i (binOp i (elMinMax i.type false)) (comboOk i types6 types8 ints4 true false false))
def execMax (i : Issue) (s : State) : Host.Outcome State Fault Refusal :=
  answer (s.arith (.max i) i (binOp i (elMinMax i.type true)) (comboOk i types6 types8 ints4 true false false))
def execAnd (i : Issue) (s : State) : Host.Outcome State Fault Refusal :=
  answer (s.arith (.and i) i (binOp i (fun a b => (a &&& b, 0))) (comboOk i ints4 ints4 ints4 false false false))
def execOr (i : Issue) (s : State) : Host.Outcome State Fault Refusal :=
  answer (s.arith (.or i) i (binOp i (fun a b => (a ||| b, 0))) (comboOk i ints4 ints4 ints4 false false false))
def execXor (i : Issue) (s : State) : Host.Outcome State Fault Refusal :=
  answer (s.arith (.xor i) i (binOp i (fun a b => (a ^^^ b, 0))) (comboOk i ints4 ints4 ints4 false false false))
def execShl (i : Issue) (s : State) : Host.Outcome State Fault Refusal :=
  answer (s.arith (.shl i) i (binOp i (elShl i.type)) (comboOk i ints4 ints4 ints4 false false false))
def execShr (i : Issue) (s : State) : Host.Outcome State Fault Refusal :=
  answer (s.arith (.shr i) i (binOp i (elShr i.type)) (comboOk i ints4 ints4 ints4 false false false))
def execAbs (i : Issue) (s : State) : Host.Outcome State Fault Refusal :=
  answer (s.arith (.abs i) i (unOp i (elAbs i.type)) (!i.imm && comboOk i types6 types8 [] false false false))
def execNeg (i : Issue) (s : State) : Host.Outcome State Fault Refusal :=
  answer (s.arith (.neg i) i (unOp i (elNeg i.type)) (!i.imm && comboOk i types6 types8 [] false false false))
def execPopc (i : Issue) (s : State) : Host.Outcome State Fault Refusal :=
  answer (s.arith (.popc i) i (unOp i (fun a => (popCount (tyWidth i.type) a, 0)))
    (!i.imm && comboOk i ints4 ints4 [] false false false))
def execClz (i : Issue) (s : State) : Host.Outcome State Fault Refusal :=
  answer (s.arith (.clz i) i (unOp i (fun a => (tyWidth i.type - bitLength a, 0)))
    (!i.imm && comboOk i ints4 ints4 [] false false false))
def execVecDiv (i : Issue) (s : State) : Host.Outcome State Fault Refusal :=
  answer (s.arith (.vecDiv i) i (binOp i (fun a b => Fp.divVal (tyFmt i.type) i.rnd (Fp.decode (tyFmt i.type) a)
      (Fp.decode (tyFmt i.type) b)))
    (!i.imm && comboOk i [] [4, 5] [] true false false))
def execVecSqrt (i : Issue) (s : State) : Host.Outcome State Fault Refusal :=
  answer (s.arith (.vecSqrt i) i (unOp i (fun a => Fp.sqrtVal (tyFmt i.type) i.rnd (Fp.decode (tyFmt i.type) a)))
    (!i.imm && comboOk i [] [4, 5] [] true false false))

/-- MOV: D := A, or the immediate in format I; bits move unchanged (R223). -/
def execMov (i : Issue) (s : State) : Host.Outcome State Fault Refusal :=
  answer (s.arith (.mov i) i
    (if i.imm then ⟨i.type, i.type, 0, false, fun _ b _ => (b, 0)⟩
     else ⟨i.type, i.type, 1, tyPacked i.type, fun a _ _ => (a, 0)⟩)
    (comboOk i types6 types8 ints4 false false false))

/-- VEC.FN (R228): TYPE 5, the function in MOD. -/
def execVecFn (i : Issue) (s : State) : Host.Outcome State Fault Refusal :=
  let o := unOp i (elFn i.mod)
  answer (s.issueAs (.vecFn i) i
    (fun _ => !i.imm && comboOk i [] [5] [] false false false && i.mod ≤ 5 && regOperandsOk o i)
    (fun s _ _ en => s.regRun o i en))

/-! ## Conversion (R748, R751) -/

/-- RND allowed, and SAT allowed, by the pair of types (R748). -/
def cvtCombo (a b : Nat) : Bool × Bool :=
  if tyInt a then
    if tyInt b then (false, !((a = 0 && b = 2) || (a = 1 && (b = 2 || b = 3))))
    else if b = 6 then (true, true)
    else if b = 4 && (a = 0 || a = 1) then (false, false)
    else (true, false)
  else if tyInt b then (true, true)
  else if a = 4 then (true, true)
  else if a = 5 then (if b = 4 then (false, false) else (true, true))
  else if b = 4 || b = 5 then (false, false)
  else if a = 7 then (true, true)
  else (true, false)

/-- CVT: both halves between F16 and BF16, otherwise the low element (R751). -/
def execCvt (i : Issue) (s : State) : Host.Outcome State Fault Refusal :=
  let o : RegOp := ⟨i.type, i.mod, 1, tyPacked i.type && tyPacked i.mod,
    fun a _ _ => elCvt i.type i.mod i.rnd i.sat a⟩
  let c := cvtCombo i.type i.mod
  let l := if isScalar i.dst then types6 else types8
  answer (s.issueAs (.cvt i) i
    (fun _ => !i.imm && l.contains i.type && l.contains i.mod && i.type != i.mod &&
      (i.rnd = 0 || c.1) && (!i.sat || c.2) && regOperandsOk o i)
    (fun s _ _ en => s.regRun o i en))

/-- The element format of PACK and UNPK, and its wide counterpart: F32, or I32 for I8. -/
def elPack (t rnd : Nat) (sat : Bool) (a : Nat) : Nat × Nat :=
  if t = 15 then Fp.wrapInt 8 true sat (toSigned 32 a)
  else Fp.cvtVal (tyFmt t) rnd sat (Fp.decode Fp.f32 a)

/-- VEC.PACK: A and B become bytes 2m and 2m+1 of D; the other bytes are kept, with their poison (R149, R151). -/
def packLane (i : Issue) (x y : Ctx) (j : Nat) : Ctx :=
  let ra := elPack i.type i.rnd i.sat (x.opVal 32 i.srcA j)
  let rb := elPack i.type i.rnd i.sat (x.opVal 32 i.srcB j)
  let m := i.mod % 2
  let old := x.vreg (opReg i.dst) j
  let new := withBits (withBits old (16 * m) 8 ra.1) (16 * m + 8) 8 rb.1
  let pa := b2n (x.opPois 4 i.srcA j || issueSpoils i)
  let pb := b2n (x.opPois 4 i.srcB j || issueSpoils i)
  let pois := withBits (x.vpois (opReg i.dst) j) (2 * m) 2 (pa + 2 * pb)
  (y.putV (opReg i.dst) j new pois).orFlags (ra.2 ||| rb.2)

def execVecPack (i : Issue) (s : State) : Host.Outcome State Fault Refusal :=
  answer (s.issueAs (.vecPack i) i
    (fun _ => !i.imm && !isScalar i.dst && [8, 9, 15].contains i.type && i.mod ≤ 1 && i.resvR = 0)
    (fun s _ _ en =>
      if en = 0 then s.past i
      else ((s.spoil i).updCtx i.tile i.ctx (fun x =>
        (lanesOf en).foldl (fun y j => packLane i x y j) x)).past i))

/-- VEC.UNPK: byte MOD[1:0] of A widened to F32, or to I32 for I8. -/
def unpkLane (i : Issue) (x y : Ctx) (j : Nat) : Ctx :=
  let k := i.mod % 4
  let b := bitsAt (x.opVal 32 i.srcA j) (8 * k) 8
  let r := if i.type = 15 then (ofInt 32 (toSigned 8 b), 0)
    else Fp.cvtVal Fp.f32 0 false (Fp.decode (tyFmt i.type) b)
  let bad := if isScalar i.srcA then bitAt (x.spois (opReg i.srcA)) k
    else bitAt (x.vpois (opReg i.srcA) j) k
  (y.putLane 32 i.dst j r.1 (bad || issueSpoils i)).orFlags r.2

def execVecUnpk (i : Issue) (s : State) : Host.Outcome State Fault Refusal :=
  answer (s.issueAs (.vecUnpk i) i
    (fun _ => !i.imm && !isScalar i.dst && [8, 9, 15].contains i.type && i.mod ≤ 3 && i.resvR = 0 &&
      i.rnd = 0 && !i.sat)
    (fun s _ _ en =>
      if en = 0 then s.past i
      else ((s.spoil i).updCtx i.tile i.ctx (fun x =>
        (lanesOf en).foldl (fun y j => unpkLane i x y j) x)).past i))

/-! ## Comparison and selection (R749, R751) -/

/-- CMP reads every source it names as a scalar. -/
def cmpScalar (i : Issue) : Bool := isScalar i.srcA && (i.imm || isScalar i.srcB)

def cmpLane (i : Issue) (x : Ctx) (j : Nat) : Bool × Nat :=
  elCmp i.type i.mod (x.opVal (regWidth i.type) i.srcA j % 2 ^ tyWidth i.type)
    (srcBVal i x i.type j % 2 ^ tyWidth i.type)

def cmpLegal (i : Issue) : Bool :=
  (if cmpScalar i then types6.contains i.type else types8.contains i.type) &&
  (!i.imm || ints4.contains i.type) && 1 ≤ i.dst && i.dst ≤ 7 && i.mod ≤ 7 &&
  (i.mod ≤ 5 || !tyInt i.type) && i.rnd = 0 && !i.sat && i.resvR = 0 &&
  pairOk i.type i.srcA && (i.imm || pairOk i.type i.srcB)

def execCmp (i : Issue) (s : State) : Host.Outcome State Fault Refusal :=
  answer (s.issueAs (.cmp i) i (fun _ => cmpLegal i)
    (fun s _ _ en =>
      if en = 0 then s.past i
      else ((s.spoil i).updCtx i.tile i.ctx (fun x =>
        (lanesOf en).foldl (fun y j =>
          let r := cmpLane i x (if cmpScalar i then 0 else j)
          (y.putQbit i.dst j r.1).orFlags r.2) x)).past i))

/-- VEC.SEL: D := A where Q[MOD[2:0]] holds, inverted by MOD[3], otherwise B. -/
def selLane (i : Issue) (x y : Ctx) (j : Nat) : Ctx :=
  let w := regWidth i.type
  let nb := w / 8
  let hold := ((x.qreg (i.mod % 8)).getLsbD j) != decide (8 ≤ i.mod)
  let o := if hold then i.srcA else i.srcB
  y.putLane w i.dst j (x.opVal w o j) (x.opPois nb i.srcA j || x.opPois nb i.srcB j || issueSpoils i)

def execVecSel (i : Issue) (s : State) : Host.Outcome State Fault Refusal :=
  answer (s.issueAs (.vecSel i) i
    (fun _ => !i.imm && !isScalar i.dst && types8.contains i.type && i.rnd = 0 && !i.sat &&
      i.resvR = 0 && pairOk i.type i.dst && pairOk i.type i.srcA && pairOk i.type i.srcB)
    (fun s _ _ en =>
      if en = 0 then s.past i
      else ((s.spoil i).updCtx i.tile i.ctx (fun x =>
        (lanesOf en).foldl (fun y j => selLane i x y j) x)).past i))

/-! ## Flags, cycle, constant -/

/-- SCL.FLAGS: the flag word, cleared after the read when MOD[0] = 1 (R229). -/
def execSclFlags (i : Issue) (s : State) : Host.Outcome State Fault Refusal :=
  answer (s.issueAs (.sclFlags i) i
    (fun _ => !i.imm && isScalar i.dst && i.type = 3 && i.mod ≤ 1 && i.rnd = 0 && !i.sat && i.resvR = 0)
    (fun s _ _ en =>
      if en = 0 then s.past i
      else (s.updCtx i.tile i.ctx (fun x =>
        let y := x.putS (opReg i.dst) x.flags 0
        if i.mod = 1 then { y with flags := 0 } else y)).past i))

/-- SCL.CYC: the tile's local cycle; a V instruction. -/
def execSclCyc (i : Issue) (s : State) : Host.Outcome State Fault Refusal :=
  answer (s.issueAs (.sclCyc i) i
    (fun _ => !i.imm && isScalar i.dst && i.type = 3 && i.mod = 0 && i.rnd = 0 && !i.sat && i.resvR = 0)
    (fun s _ _ en =>
      if en = 0 then s.past i
      else ((s.vIssue i.tile).updCtx i.tile i.ctx (fun x => x.putS (opReg i.dst) i.cyc.toNat 0)).past i))

/-- MOV.K (R138, R151): a 32-bit constant under HI. -/
def movKLegal (i : Issue) : Bool :=
  let d := i.bitsOf 37 7
  let hi := i.bitsOf 32 1 = 1
  i.bitsOf 33 4 = 0 &&
  (if isScalar d then types6.contains i.type && (!hi || (2 ≤ i.type))
   else [0, 1, 5].contains i.type && !hi)

def movKScalar (i : Issue) (x : Ctx) : Ctx :=
  let r := opReg (i.bitsOf 37 7)
  let k := i.bitsOf 0 32
  if i.bitsOf 32 1 = 1 then x.putS r (x.sreg r % 2 ^ 32 + k * 2 ^ 32) (x.spois r % 16)
  else x.putS r (if i.type = 0 ∨ i.type = 2 then ofInt 64 (toSigned 32 k) else k) 0

def execMovK (i : Issue) (s : State) : Host.Outcome State Fault Refusal :=
  answer (s.issueAs (.movK i) i (fun _ => movKLegal i)
    (fun s _ _ en =>
      if en = 0 then s.past i
      else (s.updCtx i.tile i.ctx (fun x =>
        if isScalar (i.bitsOf 37 7) then movKScalar i x
        else (lanesOf en).foldl (fun y j => y.putV (opReg (i.bitsOf 37 7)) j (i.bitsOf 0 32) 0) x)).past i))

end Sys2Proof.Machine
end

