-- ==== Sys2Proof/Machine/Hash.lean ====
section
/-! DEFINITION. Checks and hashes: CRC-32C (spec/14 R490), the CRC-64 of Kenka flits (spec/16 R533),
and SHA-384 (spec/13 R450; FIPS 180-4, which the spec names). -/
namespace Sys2Proof.Hash

/-- The bits of a byte list, low bit first. -/
def reflectedBits (l : List Byte) : List Bool := l.flatMap (fun b => (List.range 8).map (fun i => b.getLsbD i))

/-- One bit of CRC-32C, reflected polynomial 0x82F63B78. -/
def crcBit (c : Nat) (b : Bool) : Nat :=
  let x := (c % 2 = 1) != b
  if x then c / 2 ^^^ 0x82F63B78 else c / 2

/-- CRC-32C with initial value and final XOR of all ones (R490). -/
def crc32c (l : List Byte) : Nat := (reflectedBits l).foldl crcBit 0xFFFFFFFF ^^^ 0xFFFFFFFF

/-- One bit of the CRC-64 of R533, not reflected. -/
def crc64Bit (c : Nat) (b : Bool) : Nat :=
  let x := (c / 2 ^ 63 = 1) != b
  let d := c * 2 % 2 ^ 64
  if x then d ^^^ 0x42F0E1EBA9EA3693 else d

/-- The CRC-64 of R533 over bytes in ascending order, high bit first. -/
def crc64 (l : List Byte) : Nat :=
  (l.flatMap (fun b => (List.range 8).map (fun i => b.getLsbD (7 - i)))).foldl crc64Bit (2 ^ 64 - 1) ^^^ (2 ^ 64 - 1)

/-! ## SHA-384, on numbers below 2^64 -/

/-- The value of bytes with the highest first. -/
def beNat (l : List Byte) : Nat := leNat l.reverse
/-- The n bytes of a number, highest first. -/
def beBytes (n x : Nat) : List Byte := (leBytes n x).reverse

/-- The first 64 bits behind the point of the k-th root of p: the largest r below 2^69 with r^k ≤ p · 2^(64k), without its
whole part. -/
def rootBits (k p : Nat) : Nat :=
  (List.range 69).foldl (fun r i => let x := r + 2 ^ (68 - i); if x ^ k ≤ p * 2 ^ (64 * k) then x else r) 0 % 2 ^ 64

/-- The first 80 primes, 2 to 409. -/
def primes : List Nat := (List.range 410).filter (fun n => 2 ≤ n && (List.range 21).all (fun d => d < 2 || n ≤ d || n % d != 0))

/-- Round constants: the cube roots of the first 80 primes. -/
def roundKeys : List Nat := primes.map (rootBits 3)

/-- A rotation to the right by n. -/
def turn (n x : Nat) : Nat := x / 2 ^ n + x % 2 ^ n * 2 ^ (64 - n)

/-- A compression in progress: the last four values of each of the two registers that a round writes, newest first, and
the sixteen schedule words that come next. -/
structure Rounds where
  a : List Nat
  e : List Nat
  next : List Nat

/-- One round: both registers take a new value and the schedule one more word. -/
def Rounds.step (r : Rounds) (key : Nat) : Rounds :=
  match r.a, r.e, r.next with
  | [a1, a2, a3, a4], [e1, e2, e3, e4], w :: rest =>
    let t := key + w + e4 + (turn 14 e1 ^^^ turn 18 e1 ^^^ turn 41 e1) + (e3 ^^^ (e1 &&& (e2 ^^^ e3)))
    let u := (turn 28 a1 ^^^ turn 34 a1 ^^^ turn 39 a1) + ((a1 &&& a2) ||| (a3 &&& (a1 ||| a2)))
    let x := rest.getD 0 0
    let y := rest.getD 13 0
    let more := w + rest.getD 8 0 + (turn 1 x ^^^ turn 8 x ^^^ x / 2 ^ 7) + (turn 19 y ^^^ turn 61 y ^^^ y / 2 ^ 6)
    { a := [(t + u) % 2 ^ 64, a1, a2, a3], e := [(a4 + t) % 2 ^ 64, e1, e2, e3], next := rest ++ [more % 2 ^ 64] }
  | _, _, _ => r

/-- A block of 128 bytes is taken into the eight chaining values. -/
def takeBlock (keys h : List Nat) (block : List Byte) : List Nat :=
  let r := keys.foldl Rounds.step
    { a := h.take 4, e := h.drop 4, next := (List.range 16).map (fun i => beNat ((block.drop (8 * i)).take 8)) }
  List.zipWith (fun x y => (x + y) % 2 ^ 64) h (r.a ++ r.e)

/-- A message is padded to whole blocks: a 1 bit, 0 bits, and its length in bits. -/
def padded (l : List Byte) : List Byte :=
  l ++ 0x80 :: (List.replicate ((239 - l.length % 128) % 128) 0 ++ beBytes 16 (8 * l.length))

/-- SHA-384: 48 bytes. The chaining starts from the square roots of the 9th to the 16th prime. -/
def sha384 (l : List Byte) : List Byte :=
  let p := padded l
  let keys := roundKeys
  let h := (List.range (p.length / 128)).foldl (fun h i => takeBlock keys h ((p.drop (128 * i)).take 128))
    (((primes.drop 8).take 8).map (rootBits 2))
  (h.take 6).flatMap (beBytes 8)

/-- HMAC with SHA-384 (RFC 2104). -/
def hmac (key msg : List Byte) : List Byte :=
  let k := if 128 < key.length then sha384 key else key
  let pad := fun (x : Byte) => (k ++ List.replicate (128 - k.length) 0).map (fun b => b ^^^ x)
  sha384 (pad 0x5C ++ sha384 (pad 0x36 ++ msg))

end Sys2Proof.Hash
end

