-- ==== Sys2Proof/Machine/Gw80.lean ====
section
/-! DEFINITION. The guarded word GW80: check field, parity, decoding, poison (spec/14 R485 to R489, R491). -/
namespace Sys2Proof.Gw

/-- A guarded word: data in bits [63:0], the BCH check field in [78:64], the overall parity in bit 79 (R485). -/
abbrev Word80 := BitVec 80

/-! ## Encoding (R486, R487) -/

/-- The low 15 coefficients of g(x) = (x + 1) × m1(x) × m3(x): m1 = x⁷ + x³ + 1, and m3, the minimal polynomial of the cube of
its root, is x⁷ + x³ + x² + x + 1. -/
def gen : BitVec 15 := 0x4599

/-- One step of the division of R486 by a data bit. -/
def divStep (c : BitVec 15) (bit : Bool) : BitVec 15 :=
  if bit ^^ c.msb then (c <<< 1) ^^^ gen else c <<< 1

/-- The check field of data: bit 63 enters first. -/
def check (d : BitVec 64) : BitVec 15 :=
  (List.range 64).foldl (fun c i => divStep c (d.getLsbD (63 - i))) 0

/-- The parity of the bits of a word. -/
def parity {n : Nat} (w : BitVec n) : Bool := (List.range n).foldl (fun p i => p ^^ w.getLsbD i) false

/-- P makes the number of ones odd (R487). -/
def encode (d : BitVec 64) : Word80 :=
  let r : BitVec 79 := check d ++ d
  BitVec.ofBool (!parity r) ++ r

/-- The 16-bit field that is stored apart from the data: C in [14:0], P in [15] (R485). -/
def field (w : Word80) : BitVec 16 := w.extractLsb' 64 16
def data (w : Word80) : BitVec 64 := w.extractLsb' 0 64

/-- Relative to its codeword a poisoned word has bits [79:64] inverted (R489). -/
def poisonMask : Word80 := (0xFFFF : Word80) <<< 64

/-- The stored form of data, poisoned or not. -/
def stored (d : BitVec 64) (bad : Bool) : Word80 := if bad then encode d ^^^ poisonMask else encode d

/-! ## Decoding (R488) -/

/-- Elements of GF(2⁷), over the powers of α below 7. -/
abbrev Gf := BitVec 7

/-- Multiplication by α: α⁷ = α³ + 1. -/
def timesAlpha (x : Gf) : Gf := if x.msb then (x <<< 1) ^^^ 0b0001001 else x <<< 1

def gmul (x y : Gf) : Gf := (List.range 7).foldl (fun a i =>
  let b := timesAlpha a
  if y.getLsbD (6 - i) then b ^^^ x else b) 0

def gpow (x : Gf) : Nat → Gf
  | 0 => 1
  | k + 1 => gmul x (gpow x k)

/-- x⁻¹ = x¹²⁶ for x ≠ 0. -/
def ginv (x : Gf) : Gf := gpow x 126

def alphaPow : Nat → Gf
  | 0 => 1
  | k + 1 => timesAlpha (alphaPow k)

/-- The bit of a word that is the coefficient of xᵏ of r(x): C[k] for k = 0 to 14, D[k − 15] above (R486). -/
def bitOf (k : Nat) : Nat := if k < 15 then 64 + k else k - 15

structure Synd where
  s0 : Bool
  s1 : Gf
  s3 : Gf
  deriving DecidableEq, Repr

/-- S0 = r(1), S1 = r(α) and S3 = r(α³), the highest coefficient first. -/
def synd (w : Word80) : Synd :=
  (List.range 79).foldl (fun s i =>
    let b := w.getLsbD (bitOf (78 - i))
    let one : Gf := if b then 1 else 0
    { s0 := s.s0 ^^ b, s1 := timesAlpha s.s1 ^^^ one, s3 := timesAlpha (timesAlpha (timesAlpha s.s3)) ^^^ one })
    { s0 := false, s1 := 0, s3 := 0 }

def Synd.add (a b : Synd) : Synd := { s0 := a.s0 ^^ b.s0, s1 := a.s1 ^^^ b.s1, s3 := a.s3 ^^^ b.s3 }

/-- The syndrome of a single bit at coefficient k. -/
def single (k : Nat) : Synd := { s0 := true, s1 := alphaPow k, s3 := alphaPow (3 * k) }

def poisonSynd : Synd := synd poisonMask

/-- The outcome of a decoder: the bits it corrects, poison, or an error it cannot correct. -/
inductive Found where
  | clean
  | fixed (bits : List Nat)
  | poisoned
  | lost
  deriving DecidableEq, Repr

/-- The rows of R488 below the first: q is the parity of all 80 bits. -/
def classify (s : Synd) (q : Bool) : Found :=
  if s.s0 = false ∧ s.s1 = 0 ∧ s.s3 = 0 then if q then .clean else .fixed [79]
  else if s.s0 ∧ s.s3 = gpow s.s1 3 then
    match (List.range 79).find? (fun k => alphaPow k = s.s1) with
    | some k => .fixed (if q then [bitOf k, 79] else [bitOf k])
    | none => .lost
  else if s.s0 = false ∧ s.s1 ≠ 0 ∧ q then
    let c := gmul (gpow s.s1 3 ^^^ s.s3) (ginv s.s1)
    match (List.range 79).filter (fun k => gmul (alphaPow k) (alphaPow k) ^^^ gmul s.s1 (alphaPow k) ^^^ c = 0) with
    | [a, b] => .fixed [bitOf a, bitOf b]
    | _ => .lost
  else .lost

/-- The poison pattern, or the poison pattern with one bit of [78:0] in error. -/
def nearPoison (s : Synd) : Bool :=
  let d := s.add poisonSynd
  d == { s0 := false, s1 := 0, s3 := 0 } || (List.range 79).any (fun k => d == single k)

def decode (w : Word80) : Found :=
  let s := synd w
  if nearPoison s then .poisoned else classify s (parity w)

/-- The word with the bits that a decoder corrects. -/
def flipBits (w : Word80) (l : List Nat) : Word80 := l.foldl (fun w b => w ^^^ ((1 : Word80) <<< b)) w

/-- What a unit receives of a word: its data, poisoned or not, and the number of bits corrected (R488). -/
structure Heard where
  data : BitVec 64
  bad : Bool
  fixed : Nat
  lost : Bool
  deriving DecidableEq, Repr

def hear (w : Word80) : Heard :=
  match decode w with
  | .clean => { data := data w, bad := false, fixed := 0, lost := false }
  | .fixed l => { data := data (flipBits w l), bad := false, fixed := l.length, lost := false }
  | .poisoned => { data := data w, bad := true, fixed := 0, lost := false }
  | .lost => { data := data w, bad := true, fixed := 0, lost := true }

end Sys2Proof.Gw
end

