-- ==== Sys2Proof/Machine/Flues.lean ====
section
/-! DEFINITION. Flue ports: what each lane carries, transfers, lane counts, declared faults, sweeps, remap windows, port
states (spec/10). -/
namespace Sys2Proof.Machine

/-! ## Bundles and ports (R364 to R367) -/

/-- Bundles of a page. -/
def fluBundles (page : Nat) : Nat := if page < 256 then 162 else 195
/-- Ports of a page, and the port a bundle belongs to. -/
def fluPorts (page : Nat) : Nat := if page < 256 then 1 else 10
def fluPortOf (page b : Nat) : Nat := if page < 256 then 0 else if b < 180 then b / 20 else 9
/-- The bundles that carry rows down, from Firebox to Hearth or from Hearth to Ashpit (R366, R367). -/
def fluDown (page b : Nat) : Bool :=
  if page < 256 then b < 64 || (128 ≤ b && b < 143) || b = 158
  else (b < 180 && b % 20 < 10) || (180 ≤ b && b < 187)
/-- The bundles that carry rows up. -/
def fluUp (page b : Nat) : Bool :=
  if page < 256 then (64 ≤ b && b < 128) || (143 ≤ b && b < 158) || b = 160
  else (b < 180 && 10 ≤ b % 20) || (187 ≤ b && b < 194)
/-- The bundles of a tile flue port that carry the command and address, and the response and status. -/
def fluControl (page b : Nat) : Bool := page < 256 && (b = 159 || b = 161)

/-- What lane i of a bundle of a tile flue port carries of a row: a word and a bit of it, by the numbers of R485 (R366). -/
def laneCarries (b lane : Nat) : Option (Nat × Nat) :=
  if b < 128 then some (b % 64, lane)
  else if b < 158 then some (lane, 64 + (b - 128) % 15)
  else if b = 158 ∨ b = 160 then some (lane, 79)
  else none

/-- The pages of the stack. -/
def fluPages : List Nat := List.range 160 ++ (List.range 16).map (256 + ·)

def bundleKey (page b : Nat) : Nat := 256 * page + b
def laneKey (page b f : Nat) : Nat := 128 * bundleKey page b + f

/-- The fault mask of a bundle, and its faults. -/
def State.fluMask (s : State) (page b : Nat) : Nat := SMap.getD s.flues.masks (bundleKey page b) 0
def State.fluFaults (s : State) (page b : Nat) : Nat := popCount 68 (s.fluMask page b)
/-- The mode of a bundle (R369, R370): 0 full width, 1 half width, 2 failed. -/
def modeOf (faults : Nat) : Nat := if faults ≤ 4 then 0 else if faults ≤ 36 then 1 else 2

/-- A good flue that carries a lane (R369, R370). -/
def State.fluUsed (s : State) (page b f : Nat) : Bool :=
  let m := s.fluMask page b
  !bitAt m f && f < 68 && b < fluBundles page &&
  decide (((List.range f).filter (fun k => !bitAt m k)).length < (if s.fluFaults page b ≤ 4 then 64 else 32))

/-! ## Counting and declaring (R378, R379) -/

def State.updFlues (s : State) (f : Flues → Flues) : State := { s with flues := f s.flues }

/-- One corrected bit attributed to a flue. -/
def State.laneBit (s : State) (page b f : Nat) : State :=
  (s.updFlues (fun u => { u with counts := SMap.modD u.counts (laneKey page b f) 0 (fun c => min 255 (c + 1)) })).bump
    (pgFlu page) Reg.fluCorrCount 1

/-- A sweep of a port, or of every port of a page, is requested (R380, R381). -/
def State.askSweep (s : State) (page port : Nat) : State :=
  s.updFlues (fun u => { u with sweeps := SMap.ins u.sweeps (16 * page + port) true })
def State.askSweeps (s : State) (page : Nat) : State := (List.range (fluPorts page)).foldl (fun s port => s.askSweep page port) s

/-- FLU_SWEEP: a write of SWEEP to FLU_CMD. -/
def execFluSweep (page : Nat) (s : State) : Host.Outcome State Fault Refusal :=
  answer (if fluPages.contains page then s.askSweeps page else s)

/-- An uncorrectable word in transit: counted, reported, and a sweep of its port requested (R380). -/
def State.fluLost (s : State) (page port : Nat) : State :=
  (((s.bump (pgFlu page) Reg.fluUeCount 1).setCause (pgFlu page) Reg.causeFluUe).err (pgFlu page) 0x73 0).askSweep page port

/-! ## Transfers (R366 to R370, R378, R380, R390) -/

/-- The lane that a flue carries: at full width the lane of its place among the good flues, at half width that lane or, in the second
beat, the one 32 above. -/
def State.fluLane (s : State) (page b f : Nat) (second : Bool) : Option Nat :=
  let i := ((List.range f).filter (fun k => !bitAt (s.fluMask page b) k)).length
  if !s.fluUsed page b f then none
  else if s.fluFaults page b ≤ 4 then (if second then none else some i)
  else some (if second then i + 32 else i)

/-- A bundle takes part in a transfer over a port: commands and responses cross with every request. -/
def fluMoves (page port b : Nat) (up : Bool) : Bool :=
  fluPortOf page b = port && (fluControl page b || (if up then fluUp page b else fluDown page b))

/-- The word of the row and the bit of it that an upset inverts; none in a command or a response. -/
def State.upsetPlace (s : State) (u : FlueUpset) : Option (Nat × Nat) :=
  match s.fluLane u.page u.bundle u.flue u.second with
  | some i => if u.page < 256 then laneCarries u.bundle i else some (u.word.val, u.bit.val)
  | none => none

/-- The upsets that act in a transfer. A flue carries no two bits of one word in one transfer at full width (R368), so that a second
one that names the same flue, beat and word does not exist. -/
def State.acting (s : State) (page port : Nat) (up : Bool) : List FlueUpset → List FlueUpset
  | [] => []
  | u :: l =>
    let rest := s.acting page port up l
    if u.page = page ∧ fluMoves page port u.bundle up ∧ (s.fluLane page u.bundle u.flue u.second).isSome ∧
       !rest.any (fun v => v.bundle = u.bundle && v.flue = u.flue && v.second = u.second &&
         ((s.upsetPlace v).map (·.1)) == ((s.upsetPlace u).map (·.1))) then u :: rest
    else rest

/-- An armed FLU_FLIP inverts the bit that its flue carries in the flue's next transfer (R388, R390). -/
def State.flueFlip (s : State) (page port : Nat) (up : Bool) : List FlueUpset :=
  let p := pgFlu page
  let u : FlueUpset := { page := page, bundle := s.rd p Reg.fluFlipBundle, flue := s.rd p Reg.fluFlipFlue, second := false, word := 0, bit := 0 }
  if s.flag p Reg.fluFlipArm then s.acting page port up [u] else []

/-- The bits of each word of the row that a transfer inverts. -/
def State.rowErrs (s : State) (l : List FlueUpset) : SMap (BitVec 80) :=
  l.foldl (fun m u => match s.upsetPlace u with
    | some (w, b) => SMap.modD m w 0 (fun x => x ^^^ (1 : BitVec 80) <<< b)
    | none => m) []

/-- What the receiving port makes of a word of which the transfer inverted some bits: a word that the decoder would correct to
another word is lost as well (R368: it is uncorrectable; notes/assumptions/68.md). -/
def transitLost (bad : Bool) (m : BitVec 80) : Bool :=
  let h := Gw.hear (Gw.stored 0 bad ^^^ m)
  if bad then h.lost || !h.bad else h.lost || h.bad || h.data != 0

/-- A transfer of a row over a port, of which `bad` tells the poisoned words: corrected bits are counted against the flues that
carried them, a word corrected in two bits is logged (spec/16 R550), and the words that are lost are returned. Of a command or a response, whose check corrects one bit, a second
wrong bit counts as an uncorrectable word. -/
def State.transfer (s : State) (page port : Nat) (up : Bool) (l : List FlueUpset) (bad : Nat → Bool) : State × List Nat :=
  let flip := s.flueFlip page port up
  let us := s.acting page port up (flip ++ l)
  let errs := s.rowErrs us
  let lost := (errs.filter (fun e => transitLost (bad e.1) e.2)).map (fun e => e.1)
  let cmd := us.filter (fun u => (s.upsetPlace u).isNone)
  let seen := us.filter (fun u => match s.upsetPlace u with
    | some (w, _) => !lost.contains w && !bad w
    | none => decide (cmd.length = 1))
  let s1 := if flip.isEmpty then s else s.wr (pgFlu page) Reg.fluFlipArm 0
  let s2 := seen.foldl (fun s u => s.laneBit page u.bundle u.flue) s1
  let s3 := lost.foldl (fun s _ => s.fluLost page port) s2
  let two := errs.any (fun e => !lost.contains e.1 && !bad e.1 && decide ((Gw.hear (Gw.stored 0 false ^^^ e.2)).fixed = 2))
  let s4 := if two then s3.logFault 1 else s3
  (if 1 < cmd.length then s4.fluLost page port else s4, lost)

/-! ## Declared faults and sweeps (R379, R381) -/

/-- A flue is declared faulty: source 0 lane count, 1 sweep (R379, R381, R388, R389). -/
def State.declareFlue (s : State) (page b f src : Nat) : State :=
  if bitAt (s.fluMask page b) f || s.flues.declared.contains (page, b, f) || 68 ≤ f || fluBundles page ≤ b then s
  else
    let p := pgFlu page
    (((s.updFlues (fun u => { u with declared := u.declared ++ [(page, b, f)] })).wrs p
      [(Reg.fluLastValid, 1), (Reg.fluLastSource, src), (Reg.fluLastBundle, b), (Reg.fluLastFlue, f)]).setCause p
        Reg.causeFluLaneFault).err p 0x70 (256 * b + f)

/-- LANE_COUNT_MAX: a flue whose count has reached the limit is declared faulty (R379). -/
def execLaneCountMax (page bundle flue : Nat) (s : State) : Host.Outcome State Fault Refusal :=
  answer (if max 1 (s.rd (pgFlu page) Reg.fluCtrlLaneErrMax) ≤ SMap.getD s.flues.counts (laneKey page bundle flue) 0 then
    s.declareFlue page bundle flue 0 else s)

/-- LANE_COUNT_DECAY: each count of a page whose DECAY divides the device stoke number falls by one
(R378; notes/assumptions/17.md). -/
def execLaneCountDecay (s : State) : Host.Outcome State Fault Refusal :=
  answer (s.updFlues (fun u => { u with counts := (u.counts.map (fun e =>
    let d := s.rd (pgFlu (e.1 / 32768)) Reg.fluCtrlDecay
    if d ≠ 0 ∧ s.rd pgStk Reg.stkNum % d = 0 then (e.1, e.2 - 1) else e)).filter (fun e => e.2 ≠ 0) }))

/-! ## Remap windows (R382) -/

/-- Apply one fault to its bundle's mask. A spare comes in for a flue that carried a lane. -/
def State.applyFlue (s : State) (e : Nat × Nat × Nat) : State :=
  let p := pgFlu e.1
  let used := s.fluUsed e.1 e.2.1 e.2.2
  let s1 := s.updFlues (fun u => { u with
    masks := SMap.ins u.masks (bundleKey e.1 e.2.1) (withBit (s.fluMask e.1 e.2.1) e.2.2)
    declared := u.declared.filter (· ≠ e) })
  let s1 := { s1 with flash := { s1.flash with repFlues := s1.flash.repFlues ++ [e] } }
  let n := s1.fluFaults e.1 e.2.1
  if n ≤ 4 then (if used then s1.setCause p Reg.causeFluSpareUsed else s1)
  else if n = 5 then (s1.setCause p Reg.causeFluHalf).err p 0x71 (256 * e.2.1 + e.2.2)
  else s1

/-- REMAP_WINDOW, between the replay decision and the latch point: faults declared since the last window are applied, then
requested sweeps run and what they find is applied; `found` names the flues that fail a sweep (R381, R382). -/
def execRemapWindow (found : List (Nat × Nat × Nat)) (s : State) : Host.Outcome State Fault Refusal :=
  if !s.flag pgDev Reg.devStateReady || s.stoke.phase ≠ .decided then answer s
  else
    let s1 := s.flues.declared.foldl State.applyFlue s
    let ports := s.flues.sweeps.map (fun e => e.1)
    let s2 := (found.filter (fun e => ports.contains (16 * e.1 + fluPortOf e.1 e.2.1))).foldl
      (fun s e => s.declareFlue e.1 e.2.1 e.2.2 1) s1
    let s3 := s2.flues.declared.foldl State.applyFlue s2
    answer ((ports.foldl (fun s k => s.setCause (pgFlu (k / 16)) Reg.causeFluSweepDone) s3).updFlues (fun u => { u with sweeps := [] }))

/-! ## Port states at the latch point (R371, R384, R387) -/

/-- The state of a port from its bundles' masks. -/
def State.portState (s : State) (page port : Nat) : Nat :=
  modeOf (((List.range (fluBundles page)).filter (fun b => fluPortOf page b = port)).foldl
    (fun m b => max m (s.fluFaults page b)) 0)

/-- The state of a port in effect. -/
def State.portNow (s : State) (page port : Nat) : Nat := SMap.getD s.flues.ports (16 * page + port) 0

/-- The hob group through whose service port a group's Ashpit-bound traffic goes: its own, or the next in service (R387). -/
def State.svcGroup (s : State) (k : Nat) : Nat :=
  (((List.range 16).map (fun d => (k + d) % 16)).find? (fun g => decide (s.portNow (256 + g) 9 ≠ 2))).getD k

/-- Pages with a fault mask. -/
def State.faultyPages (s : State) : List Nat := (s.flues.masks.map (fun e => e.1 / 256)).eraseDups

/-- Ports whose state changes at this latch point: page, port, new state. -/
def State.portChanges (s : State) : List (Nat × Nat × Nat) :=
  s.faultyPages.flatMap (fun page => (List.range (fluPorts page)).filterMap (fun port =>
    let n := s.portState page port
    if n = s.portNow page port then none else some (page, port, n)))

/-- A bundle of a failed port, for ERR_FIRST (R389). -/
def State.failedBundle (s : State) (page port : Nat) : Nat :=
  ((List.range (fluBundles page)).find? (fun b => fluPortOf page b = port && decide (36 < s.fluFaults page b))).getD 0

/-- Put a port's state into effect; a tile above a slow port is marked slow (R386). -/
def State.setPort (s : State) (e : Nat × Nat × Nat) : State :=
  let s1 := s.updFlues (fun u => { u with ports := SMap.setD u.ports (16 * e.1 + e.2.1) 0 e.2.2 })
  if e.2.2 = 1 ∧ e.1 < 160 then
    ((s1.wr (pgTil e.1) Reg.tilStateSlow 1).updTile e.1 (fun t => { t with slow := true })).setCause (pgTil e.1)
      Reg.causeTilSlowMark
  else if e.2.2 = 2 then
    (s1.setCause (pgFlu e.1) Reg.causeFluPortFail).err (pgFlu e.1) 0x72 (256 * s1.failedBundle e.1 e.2.1)
  else s1

end Sys2Proof.Machine
end

