-- ==== Sys2Proof/Machine/Traffic.lean ====
section
/-! DEFINITION. Traffic classes: the arbitration of a site, broken-guarantee records, guarantee monitors, bellows levels and
late marks (spec/12). -/
namespace Sys2Proof.Machine

/-- The rank broken by a guarantee miss, in the order of R442: pair consistency for TC0, ingest for TC1, shares for TC2 to TC4;
thrash breaks shares, whatever the class (R443). -/
def brokenRank (c cause : Nat) : Nat := if cause = 6 then 6 else if c = 0 then 3 else if c = 1 then 5 else 6

/-- The rank kept by a cause of R443; 0 for thrash (R445). -/
def keptRank (cause : Nat) : Nat :=
  match cause with
  | 1 => 3 | 2 => 1 | 3 => 4 | 4 => 5 | 5 => 5 | 7 => 3 | 8 => 2 | _ => 0

/-- Write a broken-guarantee record into the ring and the stoke's list (R445, R446). -/
def State.writeBgr (s : State) (kept broken cls cause site inst cycle owed granted : Nat) : State :=
  let r : BgRecord :=
    { w0 := kept * 2 ^ 28 + broken * 2 ^ 24 + cls * 2 ^ 21 + cause * 2 ^ 16 + site * 2 ^ 12 + inst % 4096
      stk := s.rd pgStk Reg.stkNum % 2 ^ 32
      cycle := cycle % 2 ^ 32
      slots := min owed 0xFFFF * 2 ^ 16 + min granted 0xFFFF }
  let n := s.rd pgTrf Reg.trfBgrSelCount
  let e := if n = 0 then 0 else (s.rd pgTrf Reg.trfBgrSelHead + 1) % 16
  let s1 := { s with hub := { s.hub with
    bgr := SMap.ins s.hub.bgr e r, bgrStoke := s.hub.bgrStoke ++ [r] } }
  let s2 := s1.wrs pgTrf [(Reg.trfBgrSelCount, min 16 (n + 1)), (Reg.trfBgrSelHead, e)]
  if n = 16 then (s2.setCause pgTrf Reg.causeTrfBgrOvf).err pgTrf 0xA2 0 else s2

/-- A guarantee miss of a class: cause, counter, error and record (R441, R448). -/
def State.guarMiss (s : State) (c cause site inst cycle owed granted : Nat) : State :=
  ((((s.bump pgTrf (Reg.trfMissCount c) 1).setCause pgTrf (Reg.causeTrfGuarMiss c)).err pgTrf 0xA0 c).writeBgr
    (keptRank cause) (brokenRank c cause) c cause site inst cycle owed granted)

/-- The cause that took the most owed slots, the lower code on a tie (R444). -/
def worstCause (taken : List Nat) : Nat :=
  (((List.range 5).map (fun k => (k + 1, taken.getD k 0))).foldl
    (fun (best : Nat × Nat) e => if best.2 < e.2 then e else best) (1, taken.getD 0 0)).1

/-- The guarantee of a class as it is checked: min(G, W) (R432). -/
def State.guarantee (s : State) (c : Nat) : Nat :=
  min (s.rd pgTrf (Reg.trfGuarG (c - 1))) (s.rd pgTrf (Reg.trfShareW (c - 1)))

/-- The slots a class was owed in a window with `free` free slots while it waited (R439). -/
def State.owed (s : State) (c free : Nat) : Nat := s.guarantee c * free / 64

/-- One class of one window (R439). -/
def State.judgeWindow (s : State) (site inst cycle : Nat) (o : GuarObs) : State :=
  if o.cls = 0 ∨ 4 < o.cls then s
  else
    let owed := s.owed o.cls o.free
    if s.rd pgTrf Reg.trfMonTol < owed - o.granted then
      s.guarMiss o.cls (worstCause o.taken) site inst cycle owed o.granted
    else s

/-- GUARANTEE_WINDOW_END: the classes of one site's window are judged (R439 to R441). -/
def execGuaranteeWindowEnd (site : Fin 8) (inst : BitVec 12) (cyc : BitVec 32) (obs : List GuarObs)
    (s : State) : Host.Outcome State Fault Refusal :=
  answer (obs.foldl (fun s o => s.judgeWindow site inst.toNat cyc.toNat o) s)

/-- TC0_WAIT_MISS: a TC0 request has waited more than 64 cy (R440); the monitor's slot counts come with it. -/
def execTc0WaitMiss (site : Fin 8) (inst : BitVec 12) (cyc : BitVec 32) (taken : List Nat)
    (owed granted : BitVec 16) (s : State) : Host.Outcome State Fault Refusal :=
  answer (s.guarMiss 0 (worstCause taken) site inst.toNat cyc.toNat owed.toNat granted.toNat)

/-! ## Bellows (R434) -/

/-- The threshold Tk of a master. -/
def State.blwT (s : State) (m k : Nat) : Nat :=
  s.rd pgTrf (if m = 0 then Reg.trfBlwT0 (k - 1) else Reg.trfBlwT1 (k - 1))

/-- The level after rises: the highest k whose threshold the fill has reached, not below the level. -/
def State.blwRise (s : State) (m f lvl : Nat) : Nat :=
  [1, 2, 3].foldl (fun l k => if s.blwT m k ≤ f ∧ l < k then k else l) lvl

/-- The level after falls: from k to k - 1 while f is below Tk - 1. -/
def State.blwFall (s : State) (m f : Nat) : Nat → Nat
  | 0 => 0
  | k + 1 => if f + 1 < s.blwT m (k + 1) then s.blwFall m f k else k + 1

/-- BELLOWS_LEVEL_CHANGE: a master's fill, in sixteenths, sets its level and the effective level;
`cycles` cy were spent at level 3 since the last change (R434, R447). -/
def execBellowsLevelChange (master : Fin 2) (fill : Nat) (cycles : BitVec 32) (s : State) :
    Host.Outcome State Fault Refusal :=
  let was := s.rd pgTrf Reg.trfBlwStateEff
  let s0 := if was = 3 then s.bump pgTrf Reg.trfBlwCritCycles cycles.toNat else s
  let lvl := s0.blwFall master fill (s0.blwRise master fill (s0.rd pgTrf (Reg.trfBlwLevel master)))
  let s1 : State := { s0.wr pgTrf (Reg.trfBlwLevel master) lvl with hub := { s0.hub with fills := SMap.setD s0.hub.fills master.val 0 fill } }
  let eff := max (s1.rd pgTrf (Reg.trfBlwLevel 0)) (s1.rd pgTrf (Reg.trfBlwLevel 1))
  let s2 := s1.wr pgTrf Reg.trfBlwStateEff eff
  answer (if eff = 3 ∧ was ≠ 3 then s2.setCause pgTrf Reg.causeTrfCrit else s2)

/-- A master's buffer is full: it takes no more (R436). -/
def State.blwFull (s : State) (master : Nat) : Bool := decide (16 ≤ SMap.getD s.hub.fills master 0)

/-- The effective weight of a class (R431, R434). -/
def State.effWeight (s : State) (c : Nat) : Nat :=
  let w := s.rd pgTrf (Reg.trfShareW (c - 1))
  if c = 1 then
    match s.rd pgTrf Reg.trfBlwStateEff with
    | 1 => 2 * w
    | 2 => 4 * w
    | _ => w
  else w

/-! ## Arbitration of free slots (R429, R430, R435) -/

/-- A waiting request as a site sees it: its class, and whether it is marked late. -/
structure Bid where
  tc : Nat
  late : Bool
  deriving DecidableEq, Repr

/-- The share arbiter among the classes with a request waiting: the class it grants, and the credits after (R430). -/
def shareGrant (weight : Nat → Nat) (waits : Nat → Bool) (credit : List Int) : Option Nat × List Int :=
  let b := [1, 2, 3, 4].filter waits
  let up := [1, 2, 3, 4].map (fun c => if waits c then credit.getD (c - 1) 0 + (weight c : Int) else 0)
  let best := b.foldl (fun (w : Option Nat) c => match w with
    | some d => if up.getD (d - 1) 0 < up.getD (c - 1) 0 then some c else w
    | none => some c) none
  match best with
  | none => (none, up)
  | some w => (some w, [1, 2, 3, 4].map (fun c =>
      if c = w then up.getD (c - 1) 0 - ((b.map weight).foldl (· + ·) 0 : Nat) else up.getD (c - 1) 0))

/-- The bid that a free slot goes to by steps 2 to 4 of R429 and by R435, none when it is the share arbiter's; `slot` is its number
in its run of 64. -/
def stepGrant (level slot : Nat) (bids : List Bid) : Option Bid :=
  let first := fun (p : Bid → Bool) => bids.find? p
  match first (fun b => b.tc = 0), first (fun b => b.tc = 2 && b.late) with
  | some b, _ => some b
  | none, some b => some b
  | none, none =>
    if level ≠ 3 then none
    else if slot = 31 then first (fun b => b.tc = 3)
    else if slot = 63 then first (fun b => b.tc = 4)
    else first (fun b => b.tc = 1)

/-- The share arbiter of a site, at first with no credits. -/
def State.share (s : State) (site inst : Nat) : List Int × Nat := SMap.getD s.hub.shares (4096 * site + inst) ([0, 0, 0, 0], 0)

/-- A free slot of a site passes: it counts in the run of 64. -/
def State.setShare (s : State) (site inst : Nat) (credit : List Int) (slot : Nat) : State :=
  { s with hub := { s.hub with shares := SMap.setD s.hub.shares (4096 * site + inst) ([0, 0, 0, 0], 0) (credit, (slot + 1) % 64) } }

/-- A free slot of a site, left by step 1 of R429: the bid that it goes to. -/
def State.arbitrate (s : State) (site inst : Nat) (bids : List Bid) : Option Bid × State :=
  let (credit, slot) := s.share site inst
  match stepGrant (s.rd pgTrf Reg.trfBlwStateEff) slot bids with
  | some b => (some b, s.setShare site inst credit slot)
  | none =>
    let g := shareGrant s.effWeight (fun c => bids.any (fun b => b.tc = c)) credit
    ((g.1.bind (fun c => bids.find? (fun b => b.tc = c))), s.setShare site inst g.2 slot)

/-- A free slot that step 1 of R429 takes. -/
def State.stepOne (s : State) (site inst : Nat) : State := let (credit, slot) := s.share site inst
  s.setShare site inst credit slot

end Sys2Proof.Machine
end

