-- ==== Sys2Proof/Machine/Hearth.lean ====
section
/-! DEFINITION. The hearth: partitions, requests, the shared cache (spec/09); guarded words of banks and devices, their slots, and
what a read makes of them (spec/11 R394, R395, R406; spec/14 R485 to R503). Cached data and the near memory beneath it are one
map of bytes (R319; notes/assumptions/9.md): the cache holds tags and marks, `bankErr` and `devErr` the bits that cells have wrong. -/
namespace Sys2Proof.Machine

/-! ## Homes (R306, R320, R398) -/

def isNear (a : Nat) : Bool := nearBase ≤ a && a < farBase
def isFar (a : Nat) : Bool := farBase ≤ a
def farSlot (a : Nat) : Nat := (a - farBase) / farStride

/-- The row number w of a near-memory address (R320). -/
def rowOf (a : Nat) : Nat := (a - nearBase) / 512

/-- The partition that maps or homes a hearth or near-memory address. -/
def State.partOf (s : State) (a : Nat) : Nat :=
  if isNear a then
    let w := rowOf a
    s.homeOf ((w % 160 + w / 160) % 160)
  else a / 2 ^ 24

/-- The channels in the map, ascending (R397): LIDX is not 0xFF. -/
def State.liveChans (s : State) : List Nat :=
  (List.range 144).filter (fun c => s.rd (pgGdc c) Reg.gdcStateLidx != 0xFF)

/-- The channel and slot of a near row (R398). -/
def State.chanOf (s : State) (a : Nat) : Nat :=
  let l := s.liveChans
  l.getD (rowOf a % l.length) 0
def State.slotOf (s : State) (a : Nat) : Nat := rowOf a / s.liveChans.length

/-! ## Device storage (spec/11 R394 to R396, R406 to R408) -/

/-- The key of the data block of a near address in the repair table. -/
def State.blockKey (s : State) (a : Nat) : Nat := s.chanOf a * 2 ^ 20 + s.slotOf a / 32

/-- The parts of a channel's slots (R395): data rows, the repair pool, the mirror journal. -/
inductive SlotUse where
  | data
  | pool (block : Nat)
  | journal (n : Nat)
  deriving DecidableEq, Repr

/-- The use of a slot; U is the number of data slots, and the device holds `slots`. -/
def slotUse (u slots slot : Nat) : Option SlotUse :=
  if slot < u then some .data
  else if slot < u + 65536 then some (.pool ((slot - u) / 32))
  else if slot < slots then some (.journal (slot - u - 65536))
  else none

/-- Slots of a device by the density code: D / 640 (R394, R396). -/
def deviceSlots (density : Nat) : Nat := (density + 2) * 2 ^ 30 / 640

/-- The data slots of a channel. -/
def State.usable (s : State) (c : Nat) : Nat := s.rd (pgGdc c) Reg.gdcRowsUsable

/-- The slot that holds a near row: its own, or that of the pool block which repairs its block (R407). -/
def State.slotNow (s : State) (a : Nat) : Nat :=
  match SMap.find s.hub.repairs (s.blockKey a) with
  | some pool => s.usable (s.chanOf a) + 32 * pool + s.slotOf a % 32
  | none => s.slotOf a

/-- The device bytes of word k of a slot: eight data bytes, and apart from them the two bytes of its check field (R394). -/
def dataPlace (slot k : Nat) : Nat := 640 * slot + 8 * k
def checkPlace (slot k : Nat) : Nat := 640 * slot + 512 + 2 * k

/-- The guarded word that a cell holds, in a hearth bank or in a device: that last written, with what faults have inverted. -/
def State.cell (s : State) (device : Bool) (a : Nat) : Gw.Word80 :=
  Gw.stored (BitVec.ofNat 64 (s.natAt (a / 8 * 8) 8)) (s.badAt a) ^^^
    SMap.getD (if device then s.hub.devErr else s.hub.bankErr) (a / 8) 0

/-- The byte at a place of the device that holds a near row (R394). -/
def State.slotByte (s : State) (a off : Nat) : Byte :=
  let row := a / 512 * 512
  if off < 512 then BitVec.ofNat 8 (bitsAt (Gw.data (s.cell true (row + off))).toNat (8 * (off % 8)) 8)
  else BitVec.ofNat 8 (bitsAt (Gw.field (s.cell true (row + (off - 512) / 2 * 8))).toNat (8 * (off % 2)) 8)

/-! ## Hashes of writes -/

/-- The hash accumulator a write of the stoke's work enters (R329, R543): the home partition's, or a
channel hash for a far-tier address. -/
def State.hashSlot (s : State) (a : Nat) : Nat :=
  if isFar a then a / 512 % 144 else 144 + s.partOf a

/-- A write performed at a partition adds a term with bm 0xFF for each word written (R543). -/
def State.hashWords (s : State) (a : Nat) (n : Nat) : State :=
  (List.range n).foldl (fun s i =>
    let w := a / 8 * 8 + 8 * i
    (s.noteWork w).addHash (s.hashSlot w) (hashTerm s.hashK (w / 8) (s.natAt w 8) 0xFF (b2n (s.badAt w)))) s

/-! ## Flips and errors of stored words (R358, R360, R406, R421, R500 to R503) -/

/-- The bank of a partition that a hearth or near word is written to: its own, or the way that holds
the line. -/
def State.bankOf (s : State) (a : Nat) : Option Nat :=
  if isNear a then
    let set := rowOf a / 160 % 1024
    let base := (1024 * s.partOf a + set) * 32
    (s.hub.cache.find? (fun e => base ≤ e.1 && e.1 < base + 32 && e.2.row = rowOf a)).map (fun e => e.1 - base)
  else some (bitsAt a 19 5)

/-- Bits of a stored word are inverted. -/
def State.spoilCell (s : State) (device : Bool) (w : Nat) (m : BitVec 80) : State :=
  if device then { s with hub := { s.hub with devErr := SMap.modD s.hub.devErr w 0 (fun x => x ^^^ m) } }
  else { s with hub := { s.hub with bankErr := SMap.modD s.hub.bankErr w 0 (fun x => x ^^^ m) } }

/-- A cell has been written: it holds the word. -/
def State.freshCell (s : State) (device : Bool) (w : Nat) : State :=
  if device then { s with hub := { s.hub with devErr := SMap.del s.hub.devErr w } }
  else { s with hub := { s.hub with bankErr := SMap.del s.hub.bankErr w } }

/-- An armed HRT_FLIP inverts one bit of the next word written to its bank (R360). -/
def State.applyHrtFlip (s : State) (a : Nat) : State :=
  let p := pgHrt (s.partOf a)
  if s.flag p Reg.hrtFlipArm && decide (s.bankOf a = some (s.rd p Reg.hrtFlipBank)) &&
     decide (s.rd p Reg.hrtFlipBit < 80) && decide (s.rd p Reg.hrtFlipBank < 24) then
    (s.wr p Reg.hrtFlipArm 0).spoilCell false (a / 8) ((1 : BitVec 80) <<< s.rd p Reg.hrtFlipBit)
  else s

/-- An armed GDC_FLIP inverts one bit of the next word written to the device (spec/11 R421). -/
def State.applyGdcFlip (s : State) (c a : Nat) : State :=
  if s.flag (pgGdc c) Reg.gdcFlipArm && decide (s.rd (pgGdc c) Reg.gdcFlipBit < 80) then
    (s.wr (pgGdc c) Reg.gdcFlipArm 0).spoilCell true (a / 8) ((1 : BitVec 80) <<< s.rd (pgGdc c) Reg.gdcFlipBit)
  else s

/-- A write replaces what was stored, in the bank and, once the line is written back, in the device: earlier inverted bits are gone,
and a due correction is cancelled (R501). -/
def State.wroteWord (s : State) (a : Nat) : State :=
  let s1 := (s.freshCell false (a / 8)).freshCell true (a / 8)
  ({ s1 with hub := { s1.hub with corrections := s1.hub.corrections.filter (fun w => w ≠ a / 8) } }).applyHrtFlip a

/-- Every word of an extent has been written. -/
def State.wroteWords (s : State) (a n : Nat) : State :=
  (List.range (ceilDiv (a % 8 + n) 8)).foldl (fun s i => s.wroteWord (a / 8 * 8 + 8 * i)) s

/-- An error with an address register, captured together with ERR_FIRST. -/
def State.errWhere (s : State) (p : Page) (code detail : Nat) (f : Fld) (a : Nat) : State :=
  (if s.flag p Reg.errValid then s else s.wr p f a).err p code detail

/-- A partition is to be fenced at the next latch point (R358, R360). -/
def State.dropPart (s : State) (n : Nat) : State :=
  if s.hub.fenceParts.contains n ∨ s.flag (pgHrt n) Reg.statFenced then s
  else ({ s with hub := { s.hub with fenceParts := s.hub.fenceParts ++ [n] } }).setCause (pgHrt n) Reg.causeHrtFenced

/-- A bank's uncorrectable count reaches BANK_UE_MAX: it is drained, and retires at the next latch
point (R358, R361); with fewer than 16 banks left the partition is fenced then. -/
def State.retireBank (s : State) (n b : Nat) : State :=
  let mx := max 1 (s.rd (pgHrt n) Reg.hrtCtrlBankUeMax)
  if s.rd (pgHrtx n) (Reg.hrtBankUe b) < mx ∨ (24 * n + b) ∈ s.hub.retireBanks ∨
     s.rd (pgHrtx n) (Reg.hrtBankRole b) = 3 then s
  else
    let s1 := (({ s with hub := { s.hub with retireBanks := s.hub.retireBanks ++ [24 * n + b] } }).setCause
      (pgHrt n) Reg.causeHrtBankRetire).err (pgHrt n) 0x64 b
    let s2 := if s1.rd (pgHrtx n) (Reg.hrtBankRole b) = 0 then
        (s1.wr (pgHrtx n) (Reg.hrtBankRole b) 2).wr (pgHrt n) Reg.hrtStateDrain 1
      else s1
    let left := 24 - (s2.hub.retireBanks.filter (fun k => k / 24 = n)).length -
      popCount 24 (s2.rd (pgHrt n) Reg.hrtRetmaskRetired)
    if left < 16 then s2.dropPart n else s2

/-- An uncorrectable word of a pinned bank or a dirty sector: poisoned and counted (R358, R361). -/
def State.hearthUe (s : State) (a : Nat) : State :=
  let n := s.partOf a
  let b := (s.bankOf a).getD 0
  (((((s.setBad (a / 8) true).bump (pgHrt n) Reg.hrtUeCount 1).bump (pgHrtx n) (Reg.hrtBankUe b) 1).setCause
    (pgHrt n) Reg.causeHrtUe).errWhere (pgHrt n) 0x60 b Reg.hrtErrAddr a).retireBank n b

/-- A channel's uncorrectable accesses of this stoke reach UE_FENCE: Tender fences it at the next latch
point (R410). -/
def State.fenceChannel (s : State) (c : Nat) : State :=
  let lim := s.rd (pgGdc c) Reg.gdcCtrlUeFence
  if lim = 0 ∨ SMap.getD s.hub.chanUe c 0 < lim ∨ c ∈ s.hub.fenceChans then s
  else
    ((({ s with hub := { s.hub with fenceChans := s.hub.fenceChans ++ [c] } }).setCause
      (pgGdc c) Reg.causeGdcFenced).err (pgGdc c) 0x84 0)

/-- A block is repaired now, or waits for the repair that runs on its channel. -/
def State.repairDue (s : State) (k : Nat) : Bool :=
  s.hub.repairDue.contains k ||
    (match SMap.find s.hub.repairing (k / 2 ^ 20) with
    | some e => decide (e.1 = k % 2 ^ 20)
    | none => false)

/-- A repair of a block starts, into the lowest free pool block, while the table has a free entry; one at a time on a channel (R406, R407,
R409). A block that has been repaired before is repaired again, into another pool block (notes/assumptions/69.md). -/
def State.repairBlock (s : State) (k : Nat) : State :=
  let c := k / 2 ^ 20
  let used := s.rd (pgGdc c) Reg.gdcRepairUsed
  if s.repairDue k ∨ s.flag (pgGdc c) Reg.gdcRepairFull then s
  else if (SMap.find s.hub.repairing c).isSome then { s with hub := { s.hub with repairDue := s.hub.repairDue ++ [k] } }
  else
    ((({ s with hub := { s.hub with repairing := SMap.ins s.hub.repairing c (k % 2 ^ 20, used) } }).wr
      (pgGdc c) Reg.gdcStateRepairing 1).setCause (pgGdc c) Reg.causeGdcRepair).err (pgGdc c) 0x82 used
def State.startRepair (s : State) (a : Nat) : State := s.repairBlock (s.blockKey a)

/-- An uncorrectable access on a channel: the words are poisoned, counted, and a repair starts
(R405, R406, R410, R422). -/
def State.channelUe (s : State) (a : Nat) (code cause : Nat) : State :=
  let c := s.chanOf a
  let s1 := { s with hub := { s.hub with chanUe := SMap.modD s.hub.chanUe c 0 (· + 1) } }
  ((((s1.bump (pgGdc c) Reg.gdcErrcntUe 1).setCause (pgGdc c) cause).errWhere (pgGdc c) code 0
    Reg.gdcErrAddr (a / 512 * 512)).startRepair a).fenceChannel c

/-- The bucket is raised once when its level reaches LIMIT × 64 while armed (R503). -/
def State.bucketCheck (s : State) (c : Nat) : State :=
  let lim := s.rd (pgGdc c) Reg.gdcBucketLimit
  if lim ≠ 0 ∧ 64 * lim ≤ s.rd (pgGdc c) Reg.gdcBucketLevel ∧ !SMap.getD s.hub.disarmed c false then
    ({ s with hub := { s.hub with disarmed := SMap.setD s.hub.disarmed c false true } }).setCause
      (pgGdc c) Reg.causeGdcBucket
  else s

/-- A corrected word is counted in its block, and its correction is due (R500, R502). -/
def State.countBlockCe (s : State) (k a : Nat) : State :=
  { s with hub := { s.hub with
      blockCe := SMap.modD s.hub.blockCe k 0 (· + 1), corrections := s.hub.corrections.erase (a / 8) ++ [a / 8] } }

/-- A corrected word of a channel: counters, bucket, the block's count, the correction due
(R406, R500, R502, R503). -/
def State.channelCe (s : State) (a : Nat) : State :=
  let c := s.chanOf a
  let k := s.blockKey a
  let s1 := (((s.bump (pgGdc c) Reg.gdcErrcntCe 1).bump (pgGdc c) Reg.gdcBucketLevel 1).bucketCheck c).countBlockCe k a
  if max 1 (s1.rd (pgGdc c) Reg.gdcCtrlRepairCe) ≤ SMap.getD s1.hub.blockCe k 0 then s1.startRepair a else s1

/-- A corrected word of a hearth bank (R500, R502). -/
def State.hearthCe (s : State) (a : Nat) : State :=
  let s1 := s.bump (pgHrt (s.partOf a)) Reg.hrtCorrCount 1
  { s1 with
    therm := { s1.therm with ceNow := SMap.modD s1.therm.ceNow (s.partOf a) 0 (· + 1) }
    hub := { s1.hub with corrections := s1.hub.corrections.erase (a / 8) ++ [a / 8] } }

/-! ## The shared cache (R317 to R328, R438) -/

/-- The 8-bit mask of the sectors of an extent within one row. -/
def sectorMask (a n : Nat) : BitVec 8 :=
  let lo := a % 512 / 64
  let hi := (a % 512 + max 1 n - 1) / 64
  BitVec.ofNat 8 (maskOf ((List.range 8).filter (fun k => lo ≤ k && k ≤ hi)))

/-- The sectors that a byte mask of a row touches, and those that it covers whole (R325). -/
def touched (m : BitVec 512) : BitVec 8 :=
  BitVec.ofNat 8 (maskOf ((List.range 8).filter (fun k => m.extractLsb' (64 * k) 64 != 0)))
def covered (m : BitVec 512) : BitVec 8 :=
  BitVec.ofNat 8 (maskOf ((List.range 8).filter (fun k => m.extractLsb' (64 * k) 64 == BitVec.allOnes 64)))

/-- The byte mask of an extent within its row. -/
def rowMask (a n : Nat) : BitVec 512 := BitVec.ofNat 512 ((2 ^ n - 1) * 2 ^ (a % 512))

/-- The cache ways of a partition: banks with ROLE 0 (R317). -/
def State.cacheWays (s : State) (p : Nat) : List Nat :=
  (List.range 24).filter (fun b => s.rd (pgHrtx p) (Reg.hrtBankRole b) = 0)

def cacheKey (p set b : Nat) : Nat := (1024 * p + set) * 32 + b

/-- Raise every age of the ways by one. -/
def ageWays (cache : SMap CLine) (keys : List Nat) : SMap CLine :=
  keys.foldl (fun m k => match SMap.find m k with
    | some l => SMap.ins m k { l with age := min 3 (l.age + 1) }
    | none => m) cache

/-- The lowest-numbered way of age 3, after as many rises as it takes (R328). -/
def victimWay : Nat → SMap CLine → List Nat → Option Nat × SMap CLine
  | 0, c, _ => (none, c)
  | k + 1, c, keys =>
    match keys.find? (fun b => match SMap.find c b with | some l => l.age = 3 | none => false) with
    | some b => (some b, c)
    | none => if keys = [] then (none, c) else victimWay k (ageWays c keys) keys

/-- Push a row into the ghost list, which keeps 256 (R356). -/
def State.pushGhost (s : State) (p row : Nat) : State :=
  let l := SMap.getD s.hub.ghost p [] ++ [row]
  let l := l.drop (l.length - 256)
  ({ s with hub := { s.hub with ghost := SMap.ins s.hub.ghost p l } }).wr (pgHrtx p) Reg.hrtGhostEntries l.length

/-- A thrash miss of a class (R356, R357). -/
def State.thrashMiss (s : State) (p row tc : Nat) : State :=
  let l := SMap.getD s.hub.ghost p []
  if row ∈ l then
    let l := l.filter (· ≠ row)
    let s1 := (({ s with hub := { s.hub with ghost := SMap.ins s.hub.ghost p l } }).wr (pgHrtx p)
      Reg.hrtGhostEntries l.length).bump (pgHrtx p) (Reg.hrtThrCount tc) 1
    let lim := s1.rd (pgHrtx p) (Reg.hrtThrLimit tc)
    if lim ≠ 0 ∧ lim < s1.rd (pgHrtx p) (Reg.hrtThrCount tc) ∧
       !bitAt (SMap.getD s1.hub.thrashed p 0) tc then
      (({ s1 with hub := { s1.hub with
          thrashed := SMap.modD s1.hub.thrashed p 0 (fun m => withBit m tc) } }).setCause
        (pgHrt p) Reg.causeHrtThrash).guarMiss tc 6 1 p (s1.rd pgStk Reg.stkCycle) 0 0
    else s1
  else s

/-- The victim buffer's occupancy as HRT_STATE shows it. -/
def State.setVbuf (s : State) (p : Nat) (l : List VbLine) : State :=
  ({ s with hub := { s.hub with vbuf := SMap.setD s.hub.vbuf p [] l } }).wr (pgHrt p) Reg.hrtStateVbuf l.length

/-- Remove a line from its way: a dirty line or one under RP goes to the victim buffer, any other is
dropped (R328, R344). -/
def State.evictLine (s : State) (p key : Nat) : State :=
  match SMap.find s.hub.cache key with
  | none => s
  | some l =>
    let s1 := ({ s with hub := { s.hub with cache := SMap.del s.hub.cache key } }).pushGhost p l.row
    if l.dirty ≠ 0 ∨ l.rp ≠ 0 ∨ l.want ≠ 0 then
      s1.setVbuf p (SMap.getD s1.hub.vbuf p [] ++
        [{ row := l.row, valid := l.valid, dirty := l.dirty, rp := l.rp, want := l.want, sent := false, tc := l.tc }])
    else s1

/-- The keys of a set's ways a fill of a class may take its victim from (R438). -/
def State.victimKeys (s : State) (p set tc : Nat) : List Nat :=
  let keys := (s.cacheWays p).map (cacheKey p set)
  let own := keys.filter (fun k => match SMap.find s.hub.cache k with | some l => l.tc = tc | none => false)
  let cap := if tc = 3 then s.rd pgTrf (Reg.trfWaycapCap 0)
    else if tc = 4 then s.rd pgTrf (Reg.trfWaycapCap 1) else 0
  if cap ≠ 0 ∧ cap ≤ own.length then own else keys

/-- Take a way for a new line of a set: an invalid way, or a victim. None when the set has no way, or a
victim is needed while the victim buffer is full (R328). -/
def State.takeWay (s : State) (p set tc : Nat) : Option (Nat × State) :=
  let keys := s.victimKeys p set tc
  match keys.find? (fun k => (SMap.find s.hub.cache k).isNone) with
  | some k => some (k, s)
  | none =>
    match victimWay 5 s.hub.cache keys with
    | (none, _) => none
    | (some k, c) =>
      if 8 ≤ (SMap.getD s.hub.vbuf p []).length then none
      else some (k, ({ s with hub := { s.hub with cache := c } }).evictLine p k)

/-- Install or replace a cache line. -/
def State.putLine (s : State) (k : Nat) (l : CLine) : State :=
  { s with hub := { s.hub with cache := SMap.ins s.hub.cache k l } }

/-- The age a hint gives (R327). -/
def fillAge (hint : Nat) : Nat := if hint = 1 then 0 else if hint = 2 then 3 else 2
def hitAge (hint age : Nat) : Nat := if hint = 2 then age else 0

/-- The line of a near row in a partition: in its set, with its key. -/
def State.lineAt (s : State) (p row : Nat) : Option (Nat × CLine) :=
  s.hub.cache.find? (fun e => e.1 / 32 = 1024 * p + row / 160 % 1024 && e.2.row = row)

/-- The line of a near row in a partition's victim buffer. -/
def State.victimAt (s : State) (p row : Nat) : Option VbLine := (SMap.getD s.hub.vbuf p []).find? (fun l => l.row = row)

/-- A write touches sectors: those it covers whole, and valid ones, are dirty now; any other once its fill has come (R325). -/
def CLine.wrote (l : CLine) (need given : BitVec 8) : CLine :=
  { l with valid := l.valid ||| given, dirty := l.dirty ||| (need &&& (l.valid ||| given)), want := l.want ||| (need &&& ~~~(l.valid ||| given)) }
def VbLine.wrote (l : VbLine) (need given : BitVec 8) : VbLine :=
  { l with valid := l.valid ||| given, dirty := l.dirty ||| (need &&& (l.valid ||| given)), want := l.want ||| (need &&& ~~~(l.valid ||| given)) }

/-- The lookup of a near-memory request in its home partition: hit, miss with allocation, or service in
the victim buffer (R324, R325, R327, R328, R346). Sectors written whole become valid without a fill. `mask` is the byte mask of the
row that a write covers. -/
def State.lookup (s : State) (a n : Nat) (write : Bool) (mask : BitVec 512) (hint tc : Nat) : State :=
  let p := s.partOf a
  let row := rowOf a
  let need := if write then touched mask else sectorMask a n
  let given := if write then covered mask else 0
  let dirtied := if write then need else 0
  match s.victimAt p row with
  | some _ => s.setVbuf p ((SMap.getD s.hub.vbuf p []).map (fun m => if m.row = row then m.wrote dirtied given else m))
  | none =>
    match s.lineAt p row with
    | some (k, l) =>
      let miss := need &&& ~~~(l.valid ||| given) != 0
      (s.putLine k { l.wrote dirtied given with age := if miss then fillAge hint else hitAge hint l.age }).bump (pgHrt p)
        (if miss then Reg.hrtMissCount else Reg.hrtHitCount) 1
    | none =>
      let s1 := (s.bump (pgHrt p) Reg.hrtMissCount 1).thrashMiss p row tc
      match s1.takeWay p (row / 160 % 1024) tc with
      | none => s1
      | some (k, s2) => s2.putLine k
          (({ row := row, valid := 0, dirty := 0, age := fillAge hint, rp := 0, tc := tc, want := 0 } : CLine).wrote dirtied given)

/-- The sectors of a near row that its home partition holds. -/
def State.validAt (s : State) (a : Nat) : BitVec 8 :=
  match s.victimAt (s.partOf a) (rowOf a) with
  | some l => l.valid
  | none => match s.lineAt (s.partOf a) (rowOf a) with
    | some (_, l) => l.valid
    | none => 0

/-- A request for a near row waits: through a wipe, while the row's line is being written back, or when it needs a victim and the
victim buffer is full (R328, R346; spec/11 R411). -/
def State.blocked (s : State) (a tc : Nat) : Bool :=
  let p := s.partOf a
  let set := rowOf a / 160 % 1024
  isNear a && (s.hub.wiping ||
    (match s.victimAt p (rowOf a) with
    | some l => l.sent
    | none => (s.lineAt p (rowOf a)).isNone && !(s.victimKeys p set tc).isEmpty && (s.takeWay p set tc).isNone))

/-! ## Words found in error (spec/14 R488, R500 to R502; spec/09 R358; spec/11 R406) -/

/-- A stored word is read as data and poison that are not those last written: a decoder that corrects to another word. The cell keeps its
bits. -/
def State.misread (s : State) (device : Bool) (w : Nat) (d : BitVec 64) (bad : Bool) : State :=
  let was := s.cell device (8 * w)
  let v := s.natAt (8 * w) 8 ^^^ d.toNat
  let s1 := (if d = 0 then s else s.setBytes (8 * w) (leBytes 8 v)).setBad w bad
  (s1.freshCell device w).spoilCell device w (Gw.stored (BitVec.ofNat 64 v) bad ^^^ was)

/-- An uncorrectable word of a bank: in a clean cache sector, the sector is invalidated and filled again; otherwise poisoned (R358). -/
def State.bankLost (s : State) (a : Nat) : State :=
  let s := s.freshCell false (a / 8)
  if isNear a then
    match s.lineAt (s.partOf a) (rowOf a) with
    | some (k, l) =>
      if l.dirty &&& sectorMask a 8 = 0 then s.putLine k { l with valid := l.valid &&& ~~~(sectorMask a 8) } else s.hearthUe a
    | none => s.hearthUe a
  else s.hearthUe a

/-- An uncorrectable word of a device: it is read poisoned, until a write replaces it (R406, R409). -/
def State.deviceLost (s : State) (a : Nat) : State :=
  (if s.badAt a then s else (s.setBad (a / 8) true).spoilCell true (a / 8) Gw.poisonMask).channelUe a 0x80 Reg.causeGdcUe

/-- The decoder reads a word of a bank, or of a device: a corrected word is counted and its correction is due, one corrected in two
bits is logged (spec/14 R488, R500, R502; spec/16 R550). -/
def State.meet (s : State) (device : Bool) (w : Nat) : State :=
  let m := SMap.getD (if device then s.hub.devErr else s.hub.bankErr) w 0
  let bad := s.badAt (8 * w)
  if m = 0 then s
  else
    let h := Gw.hear (Gw.stored 0 bad ^^^ m)
    if h.lost then (if device then s.deviceLost (8 * w) else s.bankLost (8 * w))
    else
      let s1 := if h.data = 0 ∧ h.bad = bad then s else s.misread device w h.data h.bad
      let s2 := if h.fixed = 2 then s1.logFault 1 else s1
      if h.fixed = 0 then s2 else if device then s2.channelCe (8 * w) else s2.hearthCe (8 * w)

/-- Every word of an extent is read; of a near row in the cache, those of valid sectors. -/
def State.meetWords (s : State) (device : Bool) (a n : Nat) : State :=
  (List.range (ceilDiv (a % 8 + n) 8)).foldl (fun s i => s.meet device (a / 8 + i)) s

/-- An extent that is read whole, past the request path: each word in error is verified where its row is now, in a bank or in its
device (spec/14 R492). -/
def State.verifyExtent (s : State) (a n : Nat) : State :=
  let among := fun (m : SMap (BitVec 80)) => (m.map (fun e => e.1)).filter (fun w => decide (a / 8 ≤ w) && decide (8 * w < a + n))
  let s1 := (among s.hub.bankErr).foldl (fun s w => s.meet false w) s
  ((among s1.hub.devErr).filter (fun w => !(s1.validAt (8 * w)).getLsbD (w / 8 % 8))).foldl (fun s w => s.meet true w) s1

/-- A write that covers only some bytes of a word merges with the stored word once that has been verified (R325, R747). -/
def State.verifyPart (s : State) (a : Nat) (part : BitVec 8) : State :=
  if part = 0 ∨ part = 0xFF then s else s.meet false (a / 8)

/-- Faults change stored words of an extent. -/
def State.spoilCells (s : State) (device : Bool) (a n : Nat) (l : List CellFault) : State :=
  (l.filter (fun e => decide (a / 8 * 8 ≤ e.1.toNat) && decide (e.1.toNat < a + n))).foldl
    (fun s e => s.spoilCell device (e.1.toNat / 8) e.2) s

/-! ## Requests (R310, R319, R324, R325; spec/12 R429, R437; spec/10 R366) -/

/-- Lines of an extent that the host may hold are back-invalidated before an access of a requester other than the
host, whose class is TC3 (spec/17 R575, R576). -/
def State.askHost (s : State) (a n : Nat) : State :=
  (s.feed.filter.filter (fun l => decide (l < a + n) && decide (a < l + 64))).foldl
    (fun s l => s.emit (.hostRequest "BISnpInv" l 64)) s

/-- The host may hold a line of an extent (spec/17 R576). -/
def State.hostHolds (s : State) (a n : Nat) : Bool := s.feed.filter.any (fun l => decide (l < a + n) && decide (a < l + 64))

/-- A request of another requester waits while the host may hold a line of it (spec/17 R576). -/
def State.hostBars (s : State) (r : HearthReq) : Bool := decide (r.tc.val ≠ 3) && s.hostHolds r.addr.toNat r.len

/-- A request that is served at the partition that maps or homes its address: it is read or written there, words verified, and a near row
looked up (R319, R324, R325). -/
def State.serve (s : State) (r : HearthReq) : State :=
  let a := r.addr.toNat
  if isFar a then s
  else
    let s2 := if r.write then s
      else if isNear a then
        (List.range 64).foldl (fun (s : State) k =>
          let w := a / 512 * 64 + k
          if a / 8 ≤ w ∧ 8 * w < a + r.len ∧ (s.validAt a).getLsbD (k / 8) then s.meet false w else s) s
      else s.meetWords false a r.len
    if isNear a then
      let s3 := s2.lookup a r.len r.write r.mask r.hint r.tc
      if r.write then s3.applyHrtFlip a else s3
    else s2

/-- The bid of a waiting request. -/
def reqBid (r : HearthReq) : Bid := { tc := r.tc.val, late := r.late }

/-- One free slot of a partition's controller: a request that nothing holds back is served (spec/12 R428 to R430). -/
def State.grantOne (s : State) (p : Nat) : State :=
  let l := SMap.getD s.hub.waiting p []
  let able := l.filter (fun r => !s.blocked r.addr.toNat r.tc.val && !s.hostBars r)
  match s.arbitrate 1 p (able.map reqBid) with
  | (none, s1) => s1
  | (some b, s1) =>
    match able.find? (fun r => reqBid r = b) with
    | some r => ({ s1 with hub := { s1.hub with waiting := SMap.setD s1.hub.waiting p [] (l.erase r) } }).serve r
    | none => s1
def State.freeSlots (s : State) (p : Nat) : Nat → State
  | 0 => s
  | k + 1 => (s.grantOne p).freeSlots p k

/-- The partition that a request is for: that which maps or homes its address, and for the far tier the requester's own (R310, R318). -/
def State.reqPart (s : State) (r : HearthReq) : Nat :=
  if isFar r.addr.toNat then (match r.tile with | some n => n.val | none => 0) else s.partOf r.addr.toNat

/-- A request joins those that wait at its partition. -/
def State.enqueue (s : State) (r : HearthReq) : State :=
  let p := s.reqPart r
  { s with hub := { s.hub with waiting := SMap.modD s.hub.waiting p [] (fun l => l ++ [r]) } }

/-- A request that nothing keeps waiting any more is served: as many as wait may be. -/
def State.retry (s : State) (p : Nat) : State := s.freeSlots p (SMap.getD s.hub.waiting p []).length

/-- A tile's request is marked late within the deadline guard (spec/12 R437). -/
def State.lateTile (s : State) (n : Nat) : Bool :=
  s.flag pgTrf Reg.trfCtrlLateEn &&
  (s.tile n).resident.any (fun e => decide (e.2 ≤ s.now + 256 * s.rd pgTrf Reg.trfCtrlGuard))

/-- What the tile has sent, when it is its request that comes: extent, mask and hint are those of the access (spec/08 R287 to R289). -/
def State.asAsked (s : State) (n : Nat) (r : HearthReq) : HearthReq × State :=
  match (s.tile n).asked.find? (fun q => q.addr = r.addr.toNat && q.write = r.write) with
  | some q => ({ r with len := q.len, mask := q.mask, hint := Fin.ofNat 3 q.hint },
      s.updTile n (fun t => { t with asked := t.asked.erase q }))
  | none => (r, s)

/-- The words of a row that a request moves. -/
def reqWords (r : HearthReq) : Nat → Bool := fun k =>
  let w := r.addr.toNat / 512 * 64 + k
  if r.write then r.mask.extractLsb' (8 * k) 8 != 0
  else decide (r.addr.toNat / 8 ≤ w) && decide (8 * w < r.addr.toNat + r.len)

/-- A request crosses the flue port of its tile, or its group's service port; words lost in a write are stored poisoned, words lost in a
read reach the tile poisoned (R310; spec/10 R366, R367, R380, R387). -/
def State.cross (s : State) (r : HearthReq) : State :=
  let row := r.addr.toNat / 512 * 64
  let bad := fun k => s.badAt (8 * (row + k))
  let t := match r.tile with
    | some n => s.transfer n 0 (!r.write) r.flues bad
    | none => if r.tc.val = 2 then (s, []) else s.transfer (256 + s.svcGroup (s.reqPart r / 10)) 9 (!r.write) r.flues bad
  (t.2.filter (reqWords r)).foldl (fun s k =>
    if r.write then s.setBad (row + k) true
    else match r.tile with
      | some n => s.updTile n (fun t => { t with lostIn := (row + k) :: t.lostIn })
      | none => s) t.1

/-- A request reaches its partition. -/
def State.hearthArrive (s : State) (r : HearthReq) : State :=
  let (r, s) := match r.tile with
    | some n => s.asAsked n { r with late := r.tc = 2 && s.lateTile n }
    | none => (r, s)
  let s1 := if r.late && s.flag pgTrf Reg.trfCtrlLateEn then s.bump pgTrf Reg.trfLateCount 1 else s
  let s2 := if r.failed then s1.dropPart (s1.reqPart r) else s1
  let s3 := if s2.hostBars r then s2.askHost r.addr.toNat r.len else s2
  ((s3.cross r).spoilCells false r.addr.toNat r.len r.cells).enqueue r

/-- HEARTH_REQUEST: a request reaches the partition that maps or homes it, and the controller's free slots go to those that wait. -/
def execHearthRequest (r : HearthReq) (s : State) : Host.Outcome State Fault Refusal :=
  answer ((s.hearthArrive r).freeSlots (s.reqPart r) r.slots)

/-! ## Fills and write-backs (R324 to R326, R344, R346) -/

/-- The words of the sectors of a row. -/
def sectorWords (row : Nat) (sectors : BitVec 8) : List Nat :=
  ((List.range 64).filter (fun k => sectors.getLsbD (k / 8))).map (fun k => (nearBase + 512 * row) / 8 + k)

/-- A row crosses the port of its channel (spec/10 R367). -/
def State.crossChan (s : State) (c : Nat) (up : Bool) (row : Nat) : State :=
  (s.transfer (256 + c / 9) (c % 9) up [] (fun k => s.badAt (nearBase + 512 * row + 8 * k))).1

/-- HEARTH_FILL_RETURN: sectors filled from near memory are verified, cross the channel's port and are written to the bank, valid in their line from
then on; a sector that waited for its fill is dirty with what was merged (R324, R325). -/
def execHearthFillReturn (addr : BitVec 64) (sectors : BitVec 8) (cells : List CellFault) (s : State) :
    Host.Outcome State Fault Refusal :=
  let a := addr.toNat
  if !isNear a then answer s
  else
    let p := s.partOf a
    let row := rowOf a
    let ws := sectorWords row sectors
    let s0 := s.spoilCells true (a / 512 * 512) 512 cells
    let s1 := (ws.foldl (fun s w => s.meet true w) s0).crossChan (s.chanOf a) true row
    match s1.victimAt p row, s1.lineAt p row with
    | some _, _ => answer ((s1.setVbuf p ((SMap.getD s1.hub.vbuf p []).map (fun m => if m.row = row then
        { m with valid := m.valid ||| sectors, dirty := m.dirty ||| (m.want &&& sectors), want := m.want &&& ~~~sectors } else m))).bump
        (pgGdc (s1.chanOf a)) Reg.gdcFreeCount 1)
    | none, none => answer s1
    | none, some (k, l) =>
      let s2 := (ws.foldl (fun s w => s.freshCell false w) s1).putLine k
        { l with valid := l.valid ||| sectors, dirty := l.dirty ||| (l.want &&& sectors), want := l.want &&& ~~~sectors }
      answer ((s2.applyHrtFlip (8 * ws.headD 0)).bump (pgGdc (s2.chanOf a)) Reg.gdcFreeCount 1)

/-- VICTIM_WRITEBACK: the oldest victim-buffer line without RP is written back, its whole dirty sectors,
through the channel (R326, R346). -/
def execVictimWriteback (part : Fin 160) (s : State) : Host.Outcome State Fault Refusal :=
  let vb := SMap.getD s.hub.vbuf part []
  match vb.find? (fun l => !l.sent && l.rp = 0 && l.want = 0) with
  | none => answer s
  | some l =>
    let c := s.chanOf (nearBase + 512 * l.row)
    let ws := sectorWords l.row l.dirty
    let s1 := (s.setVbuf part (vb.map (fun m => if m.row = l.row then { m with sent := true } else m))).bump
      (pgHrt part) Reg.hrtEvictCount 1
    let s2 := ((ws.foldl (fun s w => (s.meet false w).freshCell false w) s1).crossChan c false l.row)
    let s3 := ws.foldl (fun s w => s.freshCell true w) s2
    answer ((if ws.isEmpty then s3 else s3.applyGdcFlip c (8 * ws.headD 0)).bump (pgGdc c) Reg.gdcFreeCount 1)

/-- WRITEBACK_ACK: the channel acknowledges the oldest issued write-back; requests that waited for the line, or for the room, go on as
misses (R328, R346). -/
def execWritebackAck (part : Fin 160) (s : State) : Host.Outcome State Fault Refusal :=
  let vb := SMap.getD s.hub.vbuf part []
  match vb.find? (fun l => l.sent) with
  | none => answer s
  | some l => answer ((s.setVbuf part (vb.filter (fun m => m.row ≠ l.row))).retry part)

/-- CORRECTION_WRITEBACK: a corrected word is rewritten, in a device with the whole of its slot, unless a newer write cancelled it
(R500, R501); it takes its slot before every other request (spec/12 R429). -/
def execCorrectionWriteback (addr : BitVec 64) (s : State) : Host.Outcome State Fault Refusal :=
  let a := addr.toNat
  let w := a / 8
  answer (if w ∈ s.hub.corrections then
      let s1 := { s with hub := { s.hub with corrections := s.hub.corrections.filter (· ≠ w) } }
      if (SMap.find s.hub.bankErr w).isSome then ((s1.freshCell false w).applyHrtFlip a).stepOne 1 (s.partOf a)
      else
        let row := rowOf a
        let s2 := (sectorWords row 0xFF).foldl (fun (s : State) v =>
          if (Gw.hear (Gw.stored 0 (s.badAt (8 * v)) ^^^ SMap.getD s.hub.devErr v 0)).lost then s else s.freshCell true v) s1
        (s2.applyGdcFlip (s.chanOf a) (nearBase + 512 * row)).stepOne 3 (s.chanOf a)
    else s)

/-- BANK_UE_RETIRE: a bank at BANK_UE_MAX is drained for retirement (R358). -/
def execBankUeRetire (part : Fin 160) (bank : Fin 24) (s : State) : Host.Outcome State Fault Refusal :=
  answer (s.retireBank part bank)

/-- PIN_DRAIN_DONE: the draining banks of a partition hold no dirty sector any more: their lines are
dropped (R315). -/
def execPinDrainDone (part : Fin 160) (s : State) : Host.Outcome State Fault Refusal :=
  let banks := (List.range 24).filter (fun b => s.rd (pgHrtx part) (Reg.hrtBankRole b) = 2)
  answer (({ s with
      hub := { s.hub with cache := s.hub.cache.filter (fun e =>
        !(e.1 / 32 / 1024 == part.val && banks.contains (e.1 % 32))) }
      plans := { s.plans with draining := s.plans.draining.filter (fun k => k / 32 ≠ part.val) } }).wr
    (pgHrt part) Reg.hrtStateDrain 0)

end Sys2Proof.Machine
end

