-- ==== Sys2Proof/Machine/Reductions.lean ====
section
/-! DEFINITION. The reduction units of the partitions: requests, acceptance, application, ordered adds
(spec/09 R329 to R346). -/
namespace Sys2Proof.Machine

/-! ## Acknowledgement -/

/-- The group that sent a request still occupies its context. -/
def State.sameGroup (s : State) (n c serial : Nat) : Bool :=
  (s.ctx n c).isSome && SMap.getD (s.tile n).serials c 0 = serial

/-- Subgroups in FENCE.H go on with every reduction of their group acknowledged; those in FENCE.X when
the tile's far writes are acknowledged too (R129, R130). -/
def Ctx.tryFence (farWrites : Nat) (x : Ctx) : Ctx :=
  if x.reds = 0 then x.wakeIf (fun w => w = .fence false || (w = .fence true && farWrites == 0)) else x

/-- A subgroup of a context waits in a fence. -/
def Ctx.fencing (x : Ctx) : Bool :=
  x.subs.any (fun u => match u.wait with
    | .fence _ => true
    | _ => false)

/-- What the L1 holds clean is invalid: also what was filled while a fence waited (R129, R131). -/
def Tile.dropStale (t : Tile) : Tile :=
  { t with l1 := (t.l1.filter (fun e => e.2.dirty != 0)).map (fun e => (e.1, { e.2 with valid := e.2.valid &&& e.2.dirty })) }

/-- The fences of a tile that nothing holds any more complete: its clean lines are invalidated (R129, R130). -/
def Tile.tryFences (t : Tile) : Tile :=
  let ctxs : SMap Ctx := t.ctxs.map (fun e => (e.1, e.2.tryFence t.farWrites))
  let t1 := { t with ctxs := ctxs }
  if t.ctxs.any (fun e => e.2.fencing && !(e.2.tryFence t.farWrites).fencing) then t1.dropStale else t1

/-- One contribution of a group is acknowledged. -/
def State.ackRed (s : State) (n c serial : Nat) : State :=
  if s.sameGroup n c serial then
    (s.updCtx n c (fun x => { x with reds := x.reds - 1 })).updTile n Tile.tryFences
  else s

/-- A request's old values have arrived: its subgroup goes on when none is left (R155). -/
def State.atomDone (s : State) (r : RedReq) : State :=
  if s.sameGroup r.tile r.ctx r.serial then
    s.updCtx r.tile r.ctx (fun x =>
      ({ x with subs := x.subs.map (fun u => match u.wait with
          | .atom l => { u with wait := .atom (l.filter (· ≠ r.id)) }
          | _ => u) } : Ctx).wakeIf (fun w => w = .atom []))
  else s

/-! ## RP locks (R343) -/

/-- Change the reduce-pending count of the line of a near address, in its way or the victim buffer. -/
def State.rpLine (s : State) (a : Nat) (f : Nat → Nat) : State :=
  if !isNear a then s
  else
    let p := s.partOf a
    let row := rowOf a
    match s.victimAt p row with
    | some _ => s.setVbuf p ((SMap.getD s.hub.vbuf p []).map (fun l => if l.row = row then { l with rp := f l.rp } else l))
    | none => match s.lineAt p row with
      | some (k, l) => s.putLine k { l with rp := f l.rp }
      | none => s

/-- An operation accepted on the line of an address has been applied or discarded (R343). -/
def State.rpDone (s : State) (a : Nat) : State := s.rpLine a (· - 1)

/-! ## One operation (R330, R334) -/

/-- The value an operation leaves in the word, none where CAS does not match, and its flags. -/
def redValue (op t old val new : Nat) : Option Nat × Nat :=
  let of := fun (r : Nat × Nat) => (some r.1, r.2)
  match op with
  | 0x03 => of (elAdd t 0 false old val)
  | 0x04 => of (elMinMax t false old val)
  | 0x05 => of (elMinMax t true old val)
  | 0x06 => (some (old &&& val), 0)
  | 0x07 => (some (old ||| val), 0)
  | 0x08 => (some (old ^^^ val), 0)
  | 0x09 => (some val, 0)
  | 0x0A => (if old = val then some new else none, 0)
  | 0x10 => of (elAdd t 0 false old val)
  | 0x11 => of (elMinMax t false old val)
  | 0x12 => of (elMinMax t true old val)
  | 0x14 => (some (old &&& val), 0)
  | 0x15 => (some (old ||| val), 0)
  | 0x16 => (some (old ^^^ val), 0)
  | _ => of (elAdd t 0 false old val)

/-- The flags of a unit's operation (R334). -/
def State.redFlags (s : State) (p fl : Nat) : State :=
  let s1 := s.wr (pgHrt p) Reg.hrtRedFlags (s.rd (pgHrt p) Reg.hrtRedFlags ||| fl % 32)
  if bitAt fl 4 || bitAt fl 2 then s1.setCause (pgHrt p) Reg.causeHrtRedFlag else s1

/-- Write a reduction's result: word, poison, checkpoint mark and hash (R329, R466, R543). -/
def State.redWrite (s : State) (a w v : Nat) (bad : Bool) : State :=
  (((s.store a (leBytes (w / 8) v) bad).wroteWord a).ckptWrite a).hashWords a 1

/-- Apply one operation to its word, once the stored word is verified; a poisoned operand or target is consumed (R496, R497). The old
value and the target's poison are returned. -/
def State.redApply (s : State) (op t : Nat) (o : RedOp) : State × Nat × Bool :=
  let s := s.meet false (o.addr / 8)
  let w := tyWidth t
  let old := s.natAt o.addr (w / 8)
  let tb := s.badAt o.addr
  let r := redValue op t old o.val o.new
  let s1 := if o.bad || tb then s.consumeError else s
  let s2 := s1.redFlags (s.partOf o.addr) r.2
  match r.1 with
  | some v => (s2.redWrite o.addr w v (o.bad || (tb && op != 9 && op != 10)), old, tb)
  | none => (s2, old, tb)

/-! ## Ordered adds (R335 to R342) -/

def State.ordEntries (s : State) (p : Nat) : List OrdEntry := SMap.getD s.hub.ordTab p []

/-- Contributions held in a partition's rank buffer. -/
def rankBuf (l : List OrdEntry) : Nat := (l.map (fun e => e.held.length)).foldl (· + ·) 0

/-- Write back a partition's table, with HRT_ORD. -/
def State.setOrd (s : State) (p : Nat) (l : List OrdEntry) : State :=
  ({ s with hub := { s.hub with ordTab := SMap.setD s.hub.ordTab p [] l } }).wrs (pgHrt p)
    [(Reg.hrtOrdOpen, l.length), (Reg.hrtOrdRankbuf, rankBuf l)]

/-- Poison a target word, its data kept (R341, R342, R489). -/
def State.poisonWord (s : State) (a : Nat) : State :=
  (((s.setBad (a / 8) true).wroteWord a).ckptWrite a).hashWords a 1

/-- Apply a held contribution and acknowledge it. -/
def State.ordOne (s : State) (a t : Nat) (h : OrdHeld) : State :=
  let o : RedOp := { lane := 0, addr := a, val := h.val, new := 0, bad := h.bad, reg := 0, rank := h.rank, count := 0 }
  ((s.redApply 0x13 t o).1.rpDone a).ackRed h.tile h.ctx h.serial

/-- Apply held contributions while the next rank is among them. -/
def State.ordDrain : Nat → State → OrdEntry → State × OrdEntry
  | 0, s, e => (s, e)
  | k + 1, s, e =>
    match e.held.find? (fun h => h.rank = e.next) with
    | none => (s, e)
    | some h => State.ordDrain k (s.ordOne e.addr e.type h)
        { e with next := e.next + 1, held := e.held.filter (fun g => g.rank ≠ e.next) }

/-- A contribution that is not valid: the target is poisoned, the entry closes, everything held for it is
discarded and acknowledged (R341). -/
def State.ordBad (s : State) (p a : Nat) (held : List OrdHeld) : State :=
  let s1 := ((s.poisonWord a).setCause (pgHrt p) Reg.causeHrtOrdBad).errWhere (pgHrt p) 0x61 0 Reg.hrtErrAddr a
  (held.foldl (fun s h => (s.rpDone a).ackRed h.tile h.ctx h.serial) s1).setOrd p
    ((s1.ordEntries p).filter (fun e => e.addr ≠ a))

/-- A refused contribution waits to be sent again (R339). -/
def State.ordRefuse (s : State) (r : RedReq) (o : RedOp) : State :=
  let s1 := (s.rpDone o.addr).bump (pgHrt r.part) Reg.hrtOrdRefuseCount 1
  { s1 with hub := { s1.hub with
      ordWait := s1.hub.ordWait ++ [{ r with id := s1.hub.nextReq, ops := [o] }]
      nextReq := s1.hub.nextReq + 1 } }

/-- One contribution at the unit (R336 to R341). -/
def State.ordContribution (s : State) (r : RedReq) (o : RedOp) : State :=
  let l := s.ordEntries r.part
  let h : OrdHeld := { rank := o.rank, val := o.val, bad := o.bad, tile := r.tile, ctx := r.ctx, serial := r.serial }
  match l.find? (fun e => e.addr = o.addr) with
  | none =>
    if o.count = 1 ∧ o.rank = 0 then s.ordOne o.addr r.type h
    else if 64 ≤ l.length then s.ordRefuse r o
    else if o.count ≤ o.rank then s.ordBad r.part o.addr [h]
    else if o.rank = 0 then
      (s.ordOne o.addr r.type h).setOrd r.part
        (l ++ [{ addr := o.addr, type := r.type, count := o.count, next := 1, held := [] }])
    else if 512 ≤ rankBuf l then s.ordRefuse r o
    else s.setOrd r.part
        (l ++ [{ addr := o.addr, type := r.type, count := o.count, next := 0, held := [h] }])
  | some e =>
    if e.count ≠ o.count ∨ o.count ≤ o.rank ∨ o.rank < e.next ∨ e.type ≠ r.type ∨
       e.held.any (fun g => g.rank = o.rank) then s.ordBad r.part o.addr (e.held ++ [h])
    else if o.rank = e.next then
      let d := State.ordDrain (e.held.length + 1) (s.ordOne e.addr e.type h) { e with next := e.next + 1 }
      d.1.setOrd r.part (if d.2.next = e.count then l.filter (fun g => g.addr ≠ e.addr)
        else l.map (fun g => if g.addr = e.addr then d.2 else g))
    else if 512 ≤ rankBuf l then s.ordRefuse r o
    else s.setOrd r.part (l.map (fun g => if g.addr = e.addr then { g with held := g.held ++ [h] } else g))

/-- The first address of a request. -/
def RedReq.addr (r : RedReq) : Nat := match r.ops with | o :: _ => o.addr | [] => 0

/-! ## Commands -/

/-- Accept a request: its line takes RP, filled first where its sector is not valid (R331, R333, R343). -/
def State.redAccept (s : State) (r : RedReq) : State :=
  let s1 := { s with hub := { s.hub with
    redSent := s.hub.redSent.filter (fun q => q.id ≠ r.id), redAcc := s.hub.redAcc ++ [r] } }
  let s2 := if isNear r.addr then s1.lookup r.addr 1 true (rowMask r.addr 1) r.hint 2 else s1
  s2.rpLine r.addr (· + r.ops.length)

/-- REDUCTION_ACCEPT: the unit accepts a request that a tile has sent; one for a line whose write-back is issued, or that needs a victim
while the victim buffer is full, waits, and so does one to near memory during a wipe (R328, R346; spec/11 R411). -/
def execReductionAccept (id : Nat) (s : State) : Host.Outcome State Fault Refusal :=
  match s.hub.redSent.find? (fun r => r.id = id) with
  | none => answer s
  | some r => answer (if s.hostHolds r.addr 8 then s.askHost r.addr 8 else if s.blocked r.addr 2 then s else s.redAccept r)

/-- One lane of a request: an ordered contribution, or an operation with its old value returned and its
acknowledgement. -/
def State.redLane (s : State) (r : RedReq) (o : RedOp) : State :=
  if r.op = 0x13 then s.ordContribution r o
  else
    let d := s.redApply r.op r.type o
    let s1 := (d.1.rpDone o.addr).ackRed r.tile r.ctx r.serial
    if r.op < 0x10 then
      if s1.sameGroup r.tile r.ctx r.serial then
        s1.updCtx r.tile r.ctx (fun x =>
          if o.lane = 32 then x.putScalar r.type o.reg d.2.1 d.2.2
          else x.putLane (regWidth r.type) o.reg o.lane d.2.1 d.2.2)
      else s1
    else s1

/-- Apply an accepted request, its lanes in ascending order (R157, R331). -/
def State.redRun (s : State) (r : RedReq) : State :=
  let s1 := { s with hub := { s.hub with redAcc := s.hub.redAcc.filter (fun q => q.id ≠ r.id) } }
  ((r.ops.foldl (fun s o => s.redLane r o) s1).atomDone r).count (0x200 + r.part) 5 1

/-- The sector of an accepted request is filled (R333): no part of its line waits for that. -/
def State.redFilled (s : State) (r : RedReq) : Bool :=
  let p := s.partOf r.addr
  !isNear r.addr ||
  (match s.victimAt p (rowOf r.addr) with
  | some l => l.want &&& sectorMask r.addr 1 = 0
  | none => match s.lineAt p (rowOf r.addr) with
    | some (_, l) => l.want &&& sectorMask r.addr 1 = 0
    | none => true)

/-- REDUCTION_APPLY: the partition's oldest accepted request whose sector is filled is applied and acknowledged (R331, R333). -/
def execReductionApply (part : Fin 160) (s : State) : Host.Outcome State Fault Refusal :=
  match s.hub.redAcc.find? (fun r => r.part = part.val && s.redFilled r) with
  | none => answer s
  | some r => answer (s.redRun r)

/-- ORD_RESEND: a refused contribution is sent again (R339). -/
def execOrdResend (id : Nat) (s : State) : Host.Outcome State Fault Refusal :=
  match s.hub.ordWait.find? (fun r => r.id = id) with
  | none => answer s
  | some r => answer { s with hub := { s.hub with
      ordWait := s.hub.ordWait.filter (fun q => q.id ≠ id), redSent := s.hub.redSent ++ [r] } }

/-! ## The drain and the gap fill of the boundary (R100, R342) -/

/-- Every request already sent is performed. -/
def State.drainReds : Nat → State → State
  | 0, s => s
  | k + 1, s =>
    match s.hub.redAcc with
    | r :: _ => State.drainReds k (s.redRun r)
    | [] => match s.hub.redSent with
      | r :: _ => State.drainReds k ((s.redAccept r).redRun r)
      | [] => s

/-- Contributions of an entry in ascending rank. -/
def byRank : List OrdHeld → List OrdHeld
  | [] => []
  | h :: l =>
    let r := byRank l
    r.takeWhile (fun g => g.rank < h.rank) ++ h :: r.dropWhile (fun g => g.rank < h.rank)

/-- The gap fill of one partition at B + 64 (R342). -/
def State.gapFill (s : State) (p : Nat) : State :=
  ((s.ordEntries p).foldl (fun s e =>
    ((((byRank e.held).foldl (fun s h => s.ordOne e.addr e.type h) s).setCause (pgHrt p) Reg.causeHrtOrdGap).errWhere
      (pgHrt p) 0x62 0 Reg.hrtErrAddr e.addr)) s).setOrd p []

/-- A contribution still waiting to be sent again at B is lost (R342, R443, R496). -/
def State.loseOrd (s : State) (r : RedReq) : State :=
  let s1 := (((s.poisonWord r.addr).setCause (pgHrt r.part) Reg.causeHrtOrdLost).errWhere
    (pgHrt r.part) 0x63 0 Reg.hrtErrAddr r.addr).consumeError
  s1.writeBgr 2 4 7 8 1 r.part (s1.rd pgStk Reg.stkCycle) 0 0

/-- The gap fill of every partition, then the lost contributions. -/
def State.ordClose (s : State) : State :=
  let lost := s.hub.ordWait
  let s1 := (List.range 160).foldl (fun s p => if s.ordEntries p = [] then s else s.gapFill p) s
  lost.foldl State.loseOrd { s1 with hub := { s1.hub with ordWait := [] } }

end Sys2Proof.Machine
end

