-- ==== Sys2Proof/Machine/NearFar.lean ====
section
/-! DEFINITION. GDDR7 channels and the far tier (spec/11). -/
namespace Sys2Proof.Machine

/-! ## Channels -/

/-- LINK_CRC_RETRY: a transfer that has been retried `retries` times fails again: retried up to 4 times,
then its words are poisoned and the access counts as uncorrectable (R405). -/
def execLinkCrcRetry (chan : Fin 144) (retries : Nat) (addr : BitVec 64) (len : Nat) (s : State) :
    Host.Outcome State Fault Refusal :=
  if retries < 4 then answer (s.bump (pgGdc chan) Reg.gdcRetryCount 1)
  else
    let a := addr.toNat
    let s1 := (List.range (ceilDiv (a % 8 + len) 8)).foldl (fun s i => s.setBad (a / 8 + i) true) s
    answer (s1.channelUe a 0x81 Reg.causeGdcCrcFail)

/-- The words of a data block whose device cells hold something else. -/
def State.blockErrs (s : State) (k : Nat) : List Nat :=
  (s.hub.devErr.map (fun e => e.1)).filter (fun w => decide (s.blockKey (8 * w) = k))

/-- The copy has read and written every slot of a block: each word corrected as it goes, one that cannot be poisoned, and no correction is
due in the block any more (R407). -/
def State.repairedBlock (s : State) (k : Nat) : State :=
  let ws := s.blockErrs k
  let s1 := ws.foldl (fun s w => (s.meet true w).freshCell true w) s
  { s1 with hub := { s1.hub with corrections := s1.hub.corrections.filter (fun w => !ws.contains w) } }

/-- REPAIR_COPY_DONE: the repair table maps the block to its pool block, and a repair that waits starts (R406 to R409). -/
def execRepairCopyDone (chan : Fin 144) (s : State) : Host.Outcome State Fault Refusal :=
  match SMap.find s.hub.repairing chan with
  | none => answer s
  | some (blk, pool) =>
    let k := chan.val * 2 ^ 20 + blk
    let used := s.rd (pgGdc chan) Reg.gdcRepairUsed + 1
    let s0 := s.repairedBlock k
    let s1 := { s0 with flash := { s0.flash with repGddr := SMap.ins s0.flash.repGddr k pool } }
    let s2 := ({ s1 with hub := { s1.hub with
        repairing := SMap.del s1.hub.repairing chan
        repairs := SMap.ins s1.hub.repairs k pool } }).wrs (pgGdc chan)
      [(Reg.gdcStateRepairing, 0), (Reg.gdcRepairUsed, used)]
    let s3 := if 2048 ≤ used then
        ((s2.wr (pgGdc chan) Reg.gdcRepairFull 1).setCause (pgGdc chan) Reg.causeGdcRepairFull).err (pgGdc chan) 0x83 0
      else s2
    let due := s3.hub.repairDue.filter (fun d => decide (d / 2 ^ 20 = chan.val))
    match due with
    | [] => answer s3
    | d :: _ =>
      let l := s3.hub.repairDue.filter (fun e => decide (e ≠ d) && (decide (e / 2 ^ 20 ≠ chan.val) || decide (used < 2048)))
      answer ({ s3 with hub := { s3.hub with repairDue := l } }.repairBlock d)

/-- CE_BUCKET_LIMIT: a level at its limit while armed raises BUCKET and disarms (R503). -/
def execCeBucketLimit (chan : Fin 144) (s : State) : Host.Outcome State Fault Refusal :=
  answer (s.bucketCheck chan)

/-- CHANNEL_UE_FENCE: UE_FENCE uncorrectable accesses in a stoke fence the channel at the next latch point (R410). -/
def execChannelUeFence (chan : Fin 144) (s : State) : Host.Outcome State Fault Refusal :=
  answer (s.fenceChannel chan)

/-- REFX2_CHANGE: the refresh rate a device requires (R401, R410, R421). -/
def execRefx2Change (chan : Fin 144) (doubled : Bool) (s : State) : Host.Outcome State Fault Refusal :=
  answer (if s.flag (pgGdc chan) Reg.gdcStateRefx2 = doubled then s
    else (s.wr (pgGdc chan) Reg.gdcStateRefx2 (b2n doubled)).setCause (pgGdc chan) Reg.causeGdcRefx2)

/-! ## The far tier (R416 to R418) -/

/-- A far line has arrived, or is abandoned, for an L1 fill. -/
def State.putFar (s : State) (a : Nat) (l : FarLine) : State :=
  { s with hub := { s.hub with farBuf := SMap.ins s.hub.farBuf a l } }

/-- A tile's far write is acknowledged or abandoned (R130, R417). -/
def State.farWriteDone (s : State) (n : Nat) : State :=
  s.updTile n (fun t => { t with farWrites := t.farWrites - 1 }.tryFences)

/-- A descriptor operation is complete: its flags enter the word of the group that issued it, and its token is signalled (spec/04
R163; spec/06 R230). -/
def State.closeOp (s : State) (n : Nat) (c : Closing) : State :=
  let s1 := if s.sameGroup n c.ctx c.serial then s.updCtx n c.ctx (fun x => x.orFlags c.flags) else s
  let s2 := if c.kind = .epi then s1.bump (pgVec n) Reg.vecEpiDoneCount 1 else s1
  s2.updTile n (fun t => { t with closing := t.closing.erase c }.opDone c.op)

/-- Operations of a kind that wait for far-tier writes only. -/
def Tile.closingOf (t : Tile) (k : OpKind) : Nat := (t.closing.filter (fun c => decide (c.kind = k))).length

/-- A descriptor operation has made its last write: it completes when its far-tier writes are acknowledged. -/
def State.finishOp (s : State) (n : Nat) (c : Closing) : State :=
  if SMap.getD (s.tile n).opWrites c.op 0 = 0 then s.closeOp n c
  else s.updTile n (fun t => { t with closing := t.closing ++ [c] })

/-- A far-tier write of a descriptor operation is acknowledged or abandoned. -/
def State.resultDone (s : State) (n op : Nat) : State :=
  let s1 := (s.farWriteDone n).updTile n (fun t => { t with opWrites := SMap.modD t.opWrites op 0 (fun k => k - 1) })
  if SMap.getD (s1.tile n).opWrites op 0 = 0 then
    match (s1.tile n).closing.find? (fun c => c.op = op) with
    | some c => s1.closeOp n c
    | none => s1
  else s1

/-- The data of a read that is abandoned: poisoned words, of values the spec does not give. -/
def State.lostLine (s : State) : FarLine := { data := BitVec.ofNat 512 (s.freeBits 512), bad := 0xFF }

/-- A read that returns poisoned words, or a write that is dropped as an uncorrectable error of its
stoke (R417, R418). -/
def State.farAbandon (s : State) (q : FarReq) : State :=
  if q.write then
    match q.owner with
    | .store n => (s.consumeAt n).farWriteDone n
    | .result n op => (s.consumeAt n).resultDone n op
    | _ => s.consumeError
  else
    match q.owner with
    | .fill _ => (s.putFar q.addr s.lostLine).tookFree
    | _ => s

/-- Send a request to the device of a slot; a slot that is not ready answers as an abandoned request (R418). -/
def State.farSend (s : State) (a : Nat) (data : List Byte) (bad : List Nat) (mask len : Nat) (write : Bool) (o : FarOwner) : State :=
  let q : FarReq := { id := s.hub.nextFar, slot := farSlot a, addr := a, len := len, write := write, owner := o }
  if s.rd (pgFar (farSlot a)) Reg.farState = 2 then
    ({ s with hub := { s.hub with farReqs := s.hub.farReqs ++ [q], nextFar := s.hub.nextFar + 1 } }).emit
      (.farRequest (farSlot a) a write data bad mask)
  else s.farAbandon q

/-- A device marks a response poisoned (R416, R425). -/
def State.farPoisoned (s : State) (slot : Nat) : State :=
  ((s.bump (pgFar slot) Reg.farErrcntPoison 1).setCause (pgFar slot) Reg.causeFarPoison).err (pgFar slot) 0x90 0

/-- Responses to the reads of an operation: each line with a byte that its device marks is one poisoned response (R416). -/
def State.farHeard (s : State) (far : FarBytes) : State :=
  ((far.filter (fun b => b.2.2 && isFar b.1.toNat)).map (fun b => b.1.toNat / 64 * 64)).eraseDups.foldl
    (fun s a => s.farPoisoned (farSlot a)) s

/-- FAR_COMPLETION: the device completes a request (R416). Poison is marked on every word of a response. -/
def execFarCompletion (id : Nat) (data : List (BitVec 8)) (poison : Bool) (s : State) :
    Host.Outcome State Fault Refusal :=
  match s.hub.farReqs.find? (fun q => q.id = id) with
  | none => answer s
  | some q =>
    let s0 := { s with hub := { s.hub with farReqs := s.hub.farReqs.filter (fun r => r.id ≠ id) } }
    if q.write then
      match q.owner with
      | .store n => answer (s0.farWriteDone n)
      | .result n op => answer (s0.resultDone n op)
      | _ => answer s0
    else
      let s1 := if poison then s0.farPoisoned q.slot else s0
      match q.owner with
      | .fill _ => answer (s1.putFar q.addr
          { data := BitVec.ofNat 512 (leNat data), bad := if poison then 0xFF else 0 })
      | _ => answer s1

/-- FAR_TIMEOUT: a request without completion is abandoned (R417). -/
def execFarTimeout (id : Nat) (s : State) : Host.Outcome State Fault Refusal :=
  match s.hub.farReqs.find? (fun q => q.id = id) with
  | none => answer s
  | some q =>
    let s0 := { s with hub := { s.hub with farReqs := s.hub.farReqs.filter (fun r => r.id ≠ id) } }
    let p := pgFar q.slot
    answer ((((s0.bump p Reg.farErrcntTimeout 1).setCause p Reg.causeFarTimeout).err p 0x91 0).farAbandon q)

/-- FAR_LINK_DOWN: a slot enters the removed state (R418). -/
def execFarLinkDown (slot : Fin 8) (s : State) : Host.Outcome State Fault Refusal :=
  answer (((s.wr (pgFar slot) Reg.farState 5).setCause (pgFar slot) Reg.causeFarRemoved).err (pgFar slot) 0x92 0)

end Sys2Proof.Machine
end

