-- ==== Sys2Proof/Machine/Shape.lean ====
section
/-! DEFINITION. The module's shape: live tiles and their logical numbers, the partition and channel maps,
and what fencing a tile, a partition or a channel does (spec/02 R65, R85; spec/09 R321, R358; spec/11 R397,
R399, R410, R411; spec/10 R387). -/
namespace Sys2Proof.Machine

/-- Add the numbers of a list as bytes. -/
def byteList (l : List Nat) : List Byte := l.map (fun n => BitVec.ofNat 8 n)

/-! ## Tiles (R84, R85) -/

/-- Physical tiles in the shape, ascending. -/
def State.liveTiles (s : State) : List Nat :=
  (List.range 160).filter (fun n => !s.flag (pgTil n) Reg.statFenced)

/-- The physical tile of a logical tile. -/
def State.physOf (s : State) (l : Nat) : Nat := s.rd pgDev (Reg.devL2pPhys l)

/-- Logical numbers follow the live tiles in ascending physical order (R84; spec/03 R87). -/
def State.renumber (s : State) : State :=
  let live := s.liveTiles
  let s1 := (List.range 160).foldl (fun s l => s.wr pgDev (Reg.devL2pPhys l) (live.getD l 0xFF)) s
  let s2 := (List.range 160).foldl (fun s n =>
    s.wr (pgTil n) Reg.tilLogicalLtile (if live.contains n then live.idxOf n else 0xFF)) s1
  s2.wrs pgDev [(Reg.devTilesLive, live.length),
    (Reg.devStateShapeOk, b2n (live.length = s.rd pgDev Reg.devTilesGradeTiles))]

/-- A page enters or leaves the fenced state (R65). -/
def State.setFenced (s : State) (p : Page) (b : Bool) : State := s.wr p Reg.statFenced (b2n b)

/-- Fence a tile's pages and empty the tile. -/
def State.closeTile (s : State) (n : Nat) : State :=
  ((tileWindow n).foldl (fun (s : State) p => s.setFenced p true) { s with tiles := SMap.del s.tiles n }).wr
    (pgTil n) Reg.tilState 4

/-- Fence tiles in service: counted beyond the factory map, renumbered, SHAPE_CHANGE (R84, R85). -/
def State.fenceTiles (s : State) (l : List Nat) : State :=
  match (l.eraseDups).filter (fun n => !s.flag (pgTil n) Reg.statFenced) with
  | [] => s
  | l => (((l.foldl State.closeTile s).bump pgDev Reg.devTilesFencedSvc l.length).renumber).setCause pgDev
      Reg.causeDevShapeChange

/-! ## Partitions (R321, R358) -/

/-- HOME as the 160 bytes the partition-map id covers. -/
def State.homeBytes (s : State) : List Byte := byteList ((List.range 160).map s.homeOf)

/-- The partition-map id (R321). -/
def State.pmapId (s : State) : Nat := Hash.crc32c s.homeBytes

/-- Mark the words of an extent poisoned. -/
def State.poisonWords (s : State) (a n : Nat) : State :=
  (List.range (n / 8)).foldl (fun s i => s.setBad (a / 8 + i) true) s

/-- The dirty sectors of a cached row that could not be written back are poisoned, those that wait for a fill as well (R358). -/
def State.loseSectors (s : State) (row : Nat) (dirty : BitVec 8) : State :=
  (List.range 8).foldl (fun s k =>
    if dirty.getLsbD k then s.poisonWords (nearBase + 512 * row + 64 * k) 64 else s) s
def State.loseLine (s : State) (l : CLine) : State := s.loseSectors l.row (l.dirty ||| l.want)

/-- The pages of a partition window and of a channel window (spec/02 R71). -/
def partPages (n : Nat) : List Page := [pgHrt n, pgHrtx n, pgSmkc (0x200 + n)]
def chanPages (c : Nat) : List Page := [pgGdc c, pgSmkc (0x300 + c)]

/-- The pages of a channel show that it is fenced (R65). -/
def State.closeChan (s : State) (c : Nat) : State := (chanPages c).foldl (fun (s : State) p => s.setFenced p true) s

/-- A partition is fenced: its pages, the tile above it, its cached lines and those in its victim buffer; the repair record keeps it
(R358, R359). A write-back that has been issued is performed. -/
def State.fencePart (s : State) (n : Nat) : State :=
  let own := s.hub.cache.filter (fun e => e.1 / 32768 = n)
  let s0 := own.foldl (fun s e => s.loseLine e.2) s
  let s1 := ((SMap.getD s0.hub.vbuf n []).filter (fun l => !l.sent)).foldl (fun s l => s.loseSectors l.row (l.dirty ||| l.want)) s0
  let s2 := { s1 with
    flash := { s1.flash with repParts := s1.flash.repParts ++ [n] }
    hub := { s1.hub with
    cache := s1.hub.cache.filter (fun e => e.1 / 32768 ≠ n)
    vbuf := SMap.del s1.hub.vbuf n
    waiting := SMap.del s1.hub.waiting n
    ghost := SMap.del s1.hub.ghost n } }
  (partPages n).foldl (fun (s : State) p => s.setFenced p true) s2

/-- A bank is retired: a cache way holds nothing more, a pinned bank's words read poisoned; the repair record keeps it
(R358, R359). -/
def State.retireNow (s : State) (k : Nat) : State :=
  let n := k / 24
  let b := k % 24
  let was := s.rd (pgHrtx n) (Reg.hrtBankRole b)
  let ret := withBit (s.rd (pgHrt n) Reg.hrtRetmaskRetired) b
  let s := { s with flash := { s.flash with repBanks := s.flash.repBanks ++ [k] } }
  let pins := withoutBit (s.rd (pgHrt n) Reg.hrtPinmaskPinned) b
  let drains := (List.range 24).any (fun c => decide (c ≠ b) && decide (s.rd (pgHrtx n) (Reg.hrtBankRole c) = 2))
  let s1 := (s.wr (pgHrtx n) (Reg.hrtBankRole b) 3).wrs (pgHrt n)
    [(Reg.hrtRetmaskRetired, ret), (Reg.hrtStateInservice, 24 - popCount 24 ret), (Reg.hrtPinmaskPinned, pins),
     (Reg.hrtStatePinned, popCount 24 pins), (Reg.hrtStateDrain, b2n drains)]
  if was = 1 then s1.poisonWords (2 ^ 24 * n + 2 ^ 19 * b) (2 ^ 19)
  else
    let own := s1.hub.cache.filter (fun e => e.1 % 32 = b ∧ e.1 / 32768 = n)
    let s2 := own.foldl (fun s e => s.loseLine e.2) s1
    { s2 with hub := { s2.hub with cache := s2.hub.cache.filter (fun e => ¬(e.1 % 32 = b ∧ e.1 / 32768 = n)) } }

/-! ## Channels (R397, R399, R411) -/

/-- CMAP as the 144 bytes the channel-map id covers (R397, R399). -/
def State.cmapBytes (s : State) : List Byte :=
  byteList ((List.range 144).map (fun i => s.liveChans.getD i 0xFF))

/-- The channel-map id (R399). -/
def State.cmapId (s : State) : Nat := Hash.crc32c s.cmapBytes

/-- Number the live channels in ascending order (R397); `live` tells which are live. -/
def State.relabel (s : State) (live : List Nat) : State :=
  (List.range 144).foldl (fun s c =>
    s.wr (pgGdc c) Reg.gdcStateLidx (if live.contains c then live.idxOf c else 0xFF)) s

/-- Near memory under a new map: cached lines are invalidated, the host's lines are invalidated by
back-invalidation, every data slot is written with zeros, and accesses wait for the wipe (R411, R578). The zeros are
writes: a checkpoint copy with blocks still to copy is void (R468; notes/assumptions/62.md). -/
def State.startWipe (s : State) : State :=
  let near := fun (k : Nat) => decide (nearBase ≤ k) && decide (k < farBase)
  let s0 := s.feed.filter.foldl (fun s a => s.emit (.hostRequest "BISnpInv" a 64)) s
  let s1 := s0.hub.repairing.foldl (fun (s : State) e => s.wr (pgGdc e.1) Reg.gdcStateRepairing 0)
    (s0.hub.vbuf.foldl (fun (s : State) e => s.wr (pgHrt e.1) Reg.hrtStateVbuf 0) s0)
  { s1 with
    mem := s1.mem.filter (fun e => !near e.1)
    memBad := s1.memBad.filter (fun e => !near (8 * e.1))
    vague := s1.vague.cut nearBase farBase
    plans := { s1.plans with ckpt := s1.plans.ckpt.map (fun c => { c with isVoid := c.isVoid || !c.todo.isEmpty }) }
    hub := { s1.hub with
      cache := [], vbuf := [], wiping := true, repairing := [], repairDue := [], blockCe := [], devErr := []
      bankErr := s1.hub.bankErr.filter (fun e => !near (8 * e.1))
      corrections := s1.hub.corrections.filter (fun w => !near (8 * w)) }
    feed := { s1.feed with filter := [] } }

/-- Channels leave the map at a latch point (R411; the mirror journal is cleared, spec/16 R545). -/
def State.fenceChans (s : State) (l : List Nat) : State :=
  match (l.eraseDups).filter (fun c => s.liveChans.contains c) with
  | [] => s
  | l =>
    let live := s.liveChans.filter (fun c => !l.contains c)
    let s1 := l.foldl (fun s c => ((s.wr (pgGdc c) Reg.gdcStatePstate 2).setCause (pgGdc c) Reg.causeGdcFenced).closeChan c) s
    let s2 := ((s1.relabel live).startWipe).setCause pgDev Reg.causeDevShapeChange
    { s2 with pair := { s2.pair with journal := [] } }

/-! ## Service ports (R387) -/

/-- A bit per hob group whose service port is in service. -/
def State.svcMap (s : State) : Nat :=
  maskOf ((List.range 16).filter (fun k => decide (s.portNow (256 + k) 9 ≠ 2)))

/-- The reduction-tree id of the shape (spec/07 R270). -/
def State.treeId (s : State) : Nat := 0x100 + s.rd pgDev Reg.devTilesLive

/-! ## The shape changes due at a latch point (R481 step 1) -/

/-- A port whose bundles have changed mode takes its new state; a failed one fences what it serves
(R384 to R387). -/
def State.portNext (s : State) (e : Nat × Nat × Nat) : State :=
  let s1 := s.setPort e
  if e.2.2 ≠ 2 then s1
  else if e.1 < 160 then s1.fenceTiles [e.1]
  else if e.2.1 < 9 then s1.fenceChans [9 * (e.1 - 256) + e.2.1]
  else s1

/-- Tiles asked to be fenced at the next latch point. -/
def State.tilesDue (s : State) : List Nat :=
  (s.tiles.filter (fun e => e.2.fencePending)).map (fun e => e.1)

/-- Apply every shape change that is due: retired banks, fenced partitions with the tiles above them,
fenced tiles, fenced channels, and port states. -/
def State.applyShape (s : State) : State :=
  let s1 := s.hub.retireBanks.foldl State.retireNow s
  let s2 := s1.hub.fenceParts.foldl State.fencePart s1
  let s3 := s2.fenceTiles (s2.hub.fenceParts ++ s2.tilesDue)
  let s4 := s3.fenceChans s3.hub.fenceChans
  let s5 := { s4 with hub := { s4.hub with retireBanks := [], fenceParts := [], fenceChans := [] } }
  s5.portChanges.foldl State.portNext s5

end Sys2Proof.Machine
end

