-- ==== Sys2Proof/Machine/DetRec.lean ====
section
/-! DEFINITION. The determinism record: its 160 bytes, how two records are compared, and how V issues are
counted (spec/15). -/
namespace Sys2Proof.Machine

/-- The fill value of a tile (R515). -/
def State.recFill (s : State) (n : Nat) : Nat := s.rd (pgVec n) Reg.vecFill

/-- FLAGS of the record: TAINT, PLAN, DET, VALLOW, FILL_MIXED. -/
def State.recFlags (s : State) : Nat :=
  let pf := match s.plans.active with
    | some p => 2 + 4 * b2n (bitAt p.flags 0) + 8 * b2n (bitAt p.flags 2)
    | none => 0
  let f0 := s.recFill (s.physOf 0)
  b2n s.record.taint + pf + 16 * b2n (s.liveTiles.any (fun n => decide (s.recFill n ≠ f0)))

/-- The compared part of the record, bytes 0 to 119 (R515). -/
def State.recCompared (s : State) : List Byte :=
  leBytes 2 1 ++ leBytes 1 (s.rd pgDev Reg.devIdGrade) ++
  leBytes 1 (match s.plans.active with | some p => p.slices | none => 8) ++
  leBytes 2 s.treeId ++ leBytes 1 1 ++ leBytes 1 s.recFlags ++
  leBytes 8 (s.recFill (s.physOf 0)) ++ leBytes 4 s.cmapId ++ leBytes 4 s.pmapId ++
  s.record.ucodeHash ++ (match s.plans.active with | some p => p.planHash | none => List.replicate 48 0)

/-- The record as it reads now, 160 bytes (R515). -/
def State.detrec (s : State) : List Byte :=
  let body := s.recCompared ++ leBytes 8 (s.rd pgDev Reg.devSerial) ++ leBytes 8 (s.rd pgStk Reg.stkWork) ++
    leBytes 8 s.record.vcount ++ leBytes 8 (s.record.vfirst.getD (2 ^ 64 - 1)) ++
    leBytes 1 (b2n s.record.vstray) ++ leBytes 3 0
  body ++ leBytes 4 (Hash.crc32c body)

/-- Bytes lo to lo+n-1 of a record. -/
def recPart (r : List Byte) (lo n : Nat) : List Byte := (r.drop lo).take n

/-- The fields of R518 that take a whole run of bytes: mask bit, first byte, bytes. -/
def recFields : List (Nat × Nat × Nat) :=
  [(0, 0, 2), (1, 2, 1), (2, 3, 1), (3, 4, 2), (4, 6, 1), (7, 8, 8), (8, 16, 4), (9, 20, 4), (10, 24, 48), (11, 72, 48)]

/-- The mismatch mask of two records (R518): 0 when their compared parts match. -/
def recMismatch (a b : List Byte) : Nat :=
  let fa := leNat (recPart a 7 1)
  let fb := leNat (recPart b 7 1)
  maskOf ((recFields.filter (fun f => decide (recPart a f.2.1 f.2.2 ≠ recPart b f.2.1 f.2.2))).map (fun f => f.1) ++
    (if bitAt fa 0 = bitAt fb 0 then [] else [5]) ++ (if fa / 2 = fb / 2 then [] else [12]))

/-- The CRC-32C of bytes 0 to 119 as they stood at the last latch point (spec/16 R537). -/
def State.recCrc (s : State) : Nat := Hash.crc32c s.record.atLatch

/-- Keep the compared part at a latch point (R516, R519). -/
def State.keepRecord (s : State) : State := { s with record := { s.record with atLatch := s.recCompared } }

/-- The V counts clear when a plan latches (R523). -/
def State.clearV (s : State) : State :=
  { s with record := { s.record with vcount := 0, vfirst := none, vstray := false } }

/-- Each boundary adds the tiles' V issues of the stoke (R521). -/
def State.addV (s : State) : State :=
  let n := (s.tiles.map (fun e => e.2.vIssues)).foldl (· + ·) 0
  let r := s.record
  let s1 := { s with record := { r with
    vcount := r.vcount + n
    vfirst := if r.vcount = 0 ∧ n ≠ 0 then some (s.rd pgStk Reg.stkWork) else r.vfirst } }
  { s1 with tiles := s1.tiles.map (fun e => (e.1, { e.2 with vIssues := 0, vStray := false })) }

end Sys2Proof.Machine
end

