-- ==== Sys2Proof/Machine/Fec.lean ====
section
/-! DEFINITION. The forward error correction of the Kenka link: RS(852, 820) over GF(2¹⁰) and the dealing of symbols to lanes
(spec/16 R531). The order of the bits in a symbol, of the symbols in a codeword, and the lane that a stream begins on are the
model's choice (notes/assumptions/70.md). -/
namespace Sys2Proof.Fec

/-- A symbol: an element of GF(2¹⁰) = GF(2)[x]/(x¹⁰ + x³ + 1) over the powers of α below 10. -/
abbrev Sym := BitVec 10

def timesAlpha (x : Sym) : Sym := if x.msb then (x <<< 1) ^^^ 0b1001 else x <<< 1

def mul (x y : Sym) : Sym :=
  (List.range 10).foldl (fun a i => if y.getLsbD (9 - i) then timesAlpha a ^^^ x else timesAlpha a) 0

def alphaPow : Nat → Sym
  | 0 => 1
  | k + 1 => timesAlpha (alphaPow k)

/-- x⁻¹ = x¹⁰²² = x² x⁴ … x⁵¹² for x ≠ 0. -/
def inv (x : Sym) : Sym :=
  ((List.range 9).foldl (fun (p : Sym × Sym) _ => let q := mul p.1 p.1; (q, mul p.2 q)) (x, 1)).2

/-! ## Polynomials, the coefficient of the lowest power first -/

def eval (p : List Sym) (x : Sym) : Sym := p.foldr (fun c a => c ^^^ mul x a) 0

def add : List Sym → List Sym → List Sym
  | [], q => q
  | p, [] => p
  | a :: p, b :: q => (a ^^^ b) :: add p q

def scale (c : Sym) (p : List Sym) : List Sym := p.map (mul c)

def product (p q : List Sym) : List Sym := p.foldr (fun a r => add (scale a q) (0 :: r)) []

/-- The generator, whose roots are α⁰ to α³¹. -/
def gen : List Sym := (List.range 32).foldl (fun g j => product [alphaPow j, 1] g) [1]

/-! ## Encoding -/

/-- The remainder register after one more message symbol, its highest coefficient first. -/
def parityStep (taps r : List Sym) (m : Sym) : List Sym :=
  let fb := r.headD 0 ^^^ m
  (r.drop 1 ++ [0]).zipWith (fun a g => a ^^^ mul fb g) taps

/-- The 32 parity symbols: the remainder of m(x) x³² by the generator. -/
def parity (m : List Sym) : List Sym :=
  let taps := (gen.take 32).reverse
  m.foldl (parityStep taps) (List.replicate 32 0)

def encode (m : List Sym) : List Sym := m ++ parity m

/-! ## Decoding: up to 16 symbols

The syndromes of a codeword are 0, so those of a received block are those of its errors alone. -/

/-- Symbols of a block by number, with a value each. -/
abbrev Pattern := List (Nat × Sym)

/-- The locator of a symbol is α to this power: the first symbol is the coefficient of x⁸⁵¹. -/
def power (k : Nat) : Nat := 851 - k

/-- The values of a pattern's polynomial at α⁰ to α³¹. -/
def syndromes (e : Pattern) : List Sym :=
  (List.range 32).map (fun j => e.foldl (fun x h => x ^^^ mul h.2 (alphaPow (j * power h.1 % 1023))) 0)

/-- The register of the search for the shortest recurrence of the syndromes: the locator, the one before its last change of length,
that one's discrepancy, the steps since, and the length. -/
structure Search where
  loc : List Sym
  old : List Sym
  disc : Sym
  gap : Nat
  len : Nat

def search (syn : List Sym) : Search :=
  (List.range 32).foldl (fun s n =>
    let d := (s.loc.zipIdx).foldl (fun x e => if e.2 ≤ n then x ^^^ mul e.1 (syn.getD (n - e.2) 0) else x) 0
    if d = 0 then { s with gap := s.gap + 1 }
    else
      let next := add s.loc (List.replicate s.gap 0 ++ scale (mul d (inv s.disc)) s.old)
      if 2 * s.len ≤ n then { loc := next, old := s.loc, disc := d, gap := 1, len := n + 1 - s.len }
      else { s with loc := next, gap := s.gap + 1 })
    { loc := [1], old := [1], disc := 1, gap := 1, len := 0 }

/-- Numbers of the symbols in error: the inverses of their locators are the roots of the locator polynomial. -/
def places (loc : List Sym) : List Nat :=
  (List.range 852).filter (fun k => eval loc (alphaPow (1023 - power k)) == 0)

/-- The error at a symbol: X Ω(X⁻¹) / Λ'(X⁻¹). -/
def errorAt (syn loc : List Sym) (k : Nat) : Sym :=
  let xi := alphaPow (1023 - power k)
  let omega := (product syn loc).take 32
  let deriv := (loc.drop 1).zipIdx.map (fun e => if e.2 % 2 = 0 then e.1 else 0)
  mul (alphaPow (power k)) (mul (eval omega xi) (inv (eval deriv xi)))

/-- What the decoder adds to a block with these errors, one entry for each symbol that it corrects. A block further than 16 symbols from every
codeword is delivered as it came, and the CRC of its flits judges it. -/
def correction (errors : Pattern) : Pattern :=
  let syn := syndromes errors
  if syn.all (· == 0) then []
  else
    let r := search syn
    let found := (places r.loc).map (fun k => (k, errorAt syn r.loc k))
    if r.len ≤ 16 ∧ found.length = r.len ∧ syndromes found = syn then found else []

/-! ## Blocks and lanes -/

abbrev Flit := BitVec 2048

/-- The 820 message symbols of four flits: their bits in order, then 8 zero bits. -/
def symbols (f : List Flit) : List Sym :=
  let all : BitVec 8192 := f.getD 3 0 ++ (f.getD 2 0 ++ (f.getD 1 0 ++ f.getD 0 0))
  (List.range 820).map (fun k => all.extractLsb' (10 * k) 10)

/-- The bits of a flit of a block that a pattern inverts. -/
def flitMask (e : Pattern) (place : Nat) : Flit :=
  (e.filter (fun h => decide (h.1 < 820))).foldl (fun x h => x ^^^ BitVec.ofNat 2048 (h.2.toNat * 2 ^ (10 * h.1) / 2 ^ (2048 * place))) 0

/-- A flit of a block that was sent, as the decoder delivers it. -/
def delivered (sent : Flit) (errors : Pattern) (place : Nat) : Flit :=
  sent ^^^ flitMask errors place ^^^ flitMask (correction errors) place

/-- The symbols of a block on each lane in use, when the first goes to lane `turn`. -/
def deal (width turn : Nat) (w : List Sym) : List (List Sym) :=
  (List.range width).map (fun l => ((w.zipIdx).filter (fun e => (turn + e.2) % width = l)).map (fun e => e.1))

end Sys2Proof.Fec
end

