-- ==== Sys2Proof/Machine/Kenka.lean ====
section
/-! DEFINITION. The Kenka link: lanes, flits and go-back-N, credits, and the messages that go out
(spec/16 R529 to R537). -/
namespace Sys2Proof.Machine

/-- Change the pair logic's own state. -/
def State.updPair (s : State) (f : Pair → Pair) : State := { s with pair := f s.pair }

def State.knk (s : State) (f : Fld) : Nat := s.rd pgKnk f
def State.pairEn (s : State) : Bool := s.flag pgKnk Reg.knkCtrlPairEn

/-! ## Lanes (R530) -/

/-- The lane sets in the order training tries them: width and mask. -/
def laneSets : List (Nat × Nat) :=
  [(16, 0xFFFF), (8, 0x00FF), (8, 0xFF00), (4, 0x000F), (4, 0x00F0), (4, 0x0F00), (4, 0xF000)]

/-- The first set whose lanes are all good, as width and mask; width 0 when none trains. -/
def laneChoice (good : Nat) : Nat × Nat :=
  (laneSets.find? (fun e => e.2 &&& good = e.2)).getD (0, 0)

/-- The width KNK_CTRL.MIN_WIDTH asks for (R566). -/
def State.minWidth (s : State) : Nat := [4, 8, 16, 16].getD (s.knk Reg.knkCtrlMinWidth) 16

/-- The link carries what the pair logic needs (R530). -/
def State.linkGood (s : State) : Bool :=
  s.flag pgKnk Reg.knkStateLinkUp && decide (s.minWidth ≤ s.knk Reg.knkStateWidth)

/-! ## Flits as they are sent (R531 to R536) -/

/-- The code of a class, as a place in the credit list and in CCLASS: TC0, TC1 or TC4. -/
def cclassOf (tc : Nat) : Nat := if tc = 0 then 0 else if tc = 1 then 1 else 2

/-- A flit: header, 30 payload words and their CRC (R532, R533). -/
def flitBits (header : Nat) (words : List Nat) : Fec.Flit :=
  let body := header + 2 ^ 64 * ((List.range 30).foldl (fun a i => a + words.getD i 0 % 2 ^ 64 * 2 ^ (64 * i)) 0)
  BitVec.ofNat 2048 (body + 2 ^ 1984 * Hash.crc64 ((List.range 248).map (fun i => BitVec.ofNat 8 (body / 256 ^ i))))

/-- The credits a flit returns: eights of the first class that has eight freed; of TC1 none while the ingest buffer is full (R532;
spec/12 R436). -/
def State.creditReturn (s : State) : Nat × Nat :=
  match (List.range 3).find? (fun c => decide (8 ≤ s.pair.freed.getD c 0) && !(decide (c = 1) && s.blwFull 1)) with
  | some c => (c, min 63 (s.pair.freed.getD c 0 / 8))
  | none => (3, 0)

/-- One flit leaves: a data flit, or a null flit. It carries the last good sequence number, and credits. An armed KNK_FLIP inverts a bit of
a data flit after its CRC is computed (R532, R534, R536, R566, R568). -/
def State.flitOut (s : State) (nak : Bool) (d : Option KnkFlit) : State × Fec.Flit :=
  let cr := s.creditReturn
  let common := ((s.pair.rxSeq + 1023) % 1024) * 2 ^ 39 + b2n nak * 2 ^ 38 + cr.1 * 2 ^ 36 + cr.2 * 2 ^ 30
  let s1 := s.updPair (fun p => { p with freed := p.freed.set cr.1 (p.freed.getD cr.1 0 - 8 * cr.2) })
  match d with
  | none => (s1, flitBits common [])
  | some f =>
    let bits := flitBits (2 ^ 62 + f.tc * 2 ^ 59 + f.seq * 2 ^ 49 + common + f.poison) f.words
    let w := s1.knk Reg.knkFlipWord
    if s1.flag pgKnk Reg.knkFlipArm && decide (w < 30) then
      (s1.wr pgKnk Reg.knkFlipArm 0, bits ^^^ (1 : Fec.Flit) <<< (64 * (w + 1) + s1.knk Reg.knkFlipBit))
    else (s1, bits)

/-- Four flits form a block, whose symbols go to the lanes in use in rotation (R531). Null flits fill a block for which no other flit
waits (notes/assumptions/70.md). -/
def State.blockOut (s : State) (nak : Bool) (ds : List KnkFlit) : State :=
  let r := (List.range 4).foldl (fun (a : State × List Fec.Flit) i =>
    let o := a.1.flitOut (nak && decide (i = 0)) (ds[i]?)
    (o.1, a.2 ++ [o.2])) (s, [])
  let width := s.knk Reg.knkStateWidth
  (r.1.updPair (fun p => { p with txTurn := (p.txTurn + 852) % width })).emit
    (.kenkaBlock (Fec.deal width s.pair.txTurn (Fec.encode (Fec.symbols r.2))))

/-- Data flits leave in blocks. -/
def State.flitsOut (s : State) (ds : List KnkFlit) : State :=
  (List.range (ceilDiv ds.length 4)).foldl (fun s i => s.blockOut false ((ds.drop (4 * i)).take 4)) s

/-- A null flit carries an ACK or a NAK (R534, R536). -/
def State.ackOut (s : State) (seq : Nat) (nak : Bool) : State := (s.blockOut nak []).emit (.kenkaAck seq nak)

/-! ## Sending messages (R534, R536, R537, R568) -/

/-- The class of a message type (R537). -/
def classOfMsg (mt : Nat) : Nat := if mt = 0x10 then 1 else 0

/-- Flits that a message of n words after its header fills. -/
def flitsOf (n : Nat) : Nat := ceilDiv (n + 1) 30

/-- The header of a message: MTYPE, LEN, and for RS_ROWS the number of its rows (R537). -/
def msgHead (mt n : Nat) : Nat := mt * 2 ^ 56 + n * 2 ^ 40 + (if mt = 0x20 then n / 64 else 0)

/-- The data flits of a message before they are numbered; null words fill the last (R537). -/
def msgFlits (tc mt : Nat) (ws bad : List Nat) : List KnkFlit :=
  let all := msgHead mt ws.length :: ws
  (List.range (flitsOf ws.length)).map (fun i =>
    { tc := tc, seq := 0, words := (all.drop (30 * i)).take 30
      poison := maskOf ((List.range 30).filter (fun k => decide (0 < 30 * i + k) && bad.contains (30 * i + k - 1))) })

/-- The flits of a class that may leave now: credits, and room among the unacknowledged; none during a retrain (R534 to R536). -/
def State.flitRoom (s : State) (tc : Nat) : Nat :=
  if s.pair.retraining then 0 else min (s.pair.credits.getD (cclassOf tc) 0) (512 - s.pair.unacked.length)

/-- Put on the link as many flits of a message as may leave; the message waits with those that may not. -/
def State.sendMsg (s : State) (m : KnkMsg) : State :=
  let tc := classOfMsg m.mtype
  let n := min (flitsOf m.words.length - m.sent) (s.flitRoom tc)
  let fl := ((msgFlits tc m.mtype m.words m.bad).drop m.sent |>.take n).zipIdx.map
    (fun e => { e.1 with seq := (s.pair.txSeq + e.2) % 1024 })
  let s1 := (s.updPair (fun p => { p with
    unacked := p.unacked ++ fl
    txSeq := (p.txSeq + n) % 1024
    credits := p.credits.set (cclassOf tc) (p.credits.getD (cclassOf tc) 0 - n) })).flitsOut fl
  if m.sent + n < flitsOf m.words.length then s1.updPair (fun p => { p with held := p.held ++ [{ m with sent := m.sent + n }] })
  else s1.emit (.kenka m.mtype m.words m.bad)

/-- Send the messages that wait, in order within their class. -/
def State.pumpList (s : State) : List KnkMsg → State
  | [] => s
  | m :: l =>
    if s.pair.held.any (fun h => decide (classOfMsg h.mtype = classOfMsg m.mtype)) then
      (s.updPair (fun p => { p with held := p.held ++ [m] })).pumpList l
    else (s.sendMsg m).pumpList l

/-- TC0 goes before TC1 (spec/12 R429). -/
def State.pump (s : State) : State :=
  let h := s.pair.held
  (s.updPair (fun p => { p with held := [] })).pumpList
    (h.filter (fun m => classOfMsg m.mtype = 0) ++ h.filter (fun m => classOfMsg m.mtype ≠ 0))

/-- Send a message: heartbeats on any trained link, the others on one of MIN_WIDTH or more (R530). -/
def State.knkSend (s : State) (mt : Nat) (ws bad : List Nat) : State :=
  if s.flag pgKnk Reg.knkStateLinkUp && (decide (mt = 3) || s.linkGood) then
    (s.updPair (fun p => { p with held := p.held ++ [{ mtype := mt, words := ws, bad := bad, sent := 0 }] })).pump
  else s

/-- The 64-bit words of a byte list. -/
def wordsOf64 : Nat → List Byte → List Nat
  | 0, _ => []
  | n + 1, l => leNat (l.take 8) :: wordsOf64 n (l.drop 8)

/-- RECORD (0x04): the 160 bytes of the determinism record. -/
def State.sendRecord (s : State) : State := s.knkSend 0x04 (wordsOf64 20 s.detrec) []

/-! ## Retrain (R534, R535) -/

/-- The link retrains. -/
def State.knkRetrain (s : State) : State :=
  (s.updPair (fun p => { p with retraining := true, refused := 0 })).err pgKnk 0xB5 0

/-- KNK_RETRAIN: a write of RETRAIN to KNK_CMD (R566, R567). -/
def execKnkRetrain (s : State) : Host.Outcome State Fault Refusal := answer s.knkRetrain

/-- KENKA_RETRAIN_DONE: each transmitter sends again from the last ACK plus 1 (R535). -/
def execKenkaRetrainDone (s : State) : Host.Outcome State Fault Refusal :=
  answer (if s.pair.retraining then
    (((s.updPair (fun p => { p with retraining := false, rxWait := false })).bump pgKnk Reg.knkRetryCount
      s.pair.unacked.length).flitsOut s.pair.unacked).pump
    else s)

/-- A lost link discards the go-back-N state, held messages and partial messages (R535). -/
def State.dropLink (s : State) : State :=
  s.updPair (fun p => { p with
    unacked := [], held := [], txSeq := 0, txTurn := 0, rxSeq := 0, rxWait := false, refused := 0, rx := []
    credits := [256, 512, 128], freed := [0, 0, 0], retraining := false })

/-! ## Receiving flits (R531 to R536) -/

/-- The flits after ACK stay unacknowledged. -/
def ackTo (ack : Nat) (l : List KnkFlit) : List KnkFlit :=
  match l.findIdx? (fun f => decide (f.seq = ack)) with
  | some i => l.drop (i + 1)
  | none => l

/-- ACK, NAK and credits of a good flit. -/
def State.flitControl (s : State) (h : Nat) : State :=
  let left := ackTo (bitsAt h 39 10) s.pair.unacked
  let s1 := s.updPair (fun p => { p with unacked := left })
  let cc := bitsAt h 36 2
  let s2 := if cc = 3 then s1 else s1.updPair (fun p => { p with
    credits := p.credits.set cc (p.credits.getD cc 0 + 8 * bitsAt h 30 6) })
  let moved := decide (left.length < s.pair.unacked.length)
  if bitAt h 38 && decide (left ≠ []) then
    let s3 := s2.bump pgKnk Reg.knkRetryCount left.length
    let n := if moved then 1 else s3.pair.refused + 1
    if 8 ≤ n then s3.knkRetrain else (s3.updPair (fun p => { p with refused := n })).flitsOut left
  else if moved then s2.updPair (fun p => { p with refused := 0 })
  else s2

/-- Is the flit's header valid (R532)? -/
def flitValid (h : Nat) : Bool :=
  decide (bitsAt h 62 2 ≠ 3) && (decide (bitsAt h 62 2 ≠ 1) || [0, 1, 4].contains (bitsAt h 59 3))

/-- The 30 payload words of a flit with their poison. -/
def flitPayload (w : Nat → Nat) (h : Nat) : List (Nat × Bool) :=
  (List.range 30).map (fun i => (w (i + 1), bitAt h i))

/-- A message off the front of a class's words: null words are skipped (R537). None when the rest is not whole. -/
def takeMsg : List (Nat × Bool) → Option ((Nat × List (Nat × Bool)) × List (Nat × Bool))
  | [] => none
  | (0, _) :: l => takeMsg l
  | (h, _) :: l =>
    let n := bitsAt h 40 16
    if l.length < n then none else some ((h, l.take n), l.drop n)

/-- Every whole message of a class's words, and what is left, without the null words before it. -/
def takeMsgs : Nat → List (Nat × Bool) → List (Nat × List (Nat × Bool)) × List (Nat × Bool)
  | 0, l => ([], l)
  | k + 1, l =>
    match takeMsg l with
    | none => ([], l.dropWhile (fun e => decide (e.1 = 0)))
    | some (m, rest) => let r := takeMsgs k rest; (m :: r.1, r.2)

/-- A flit after FEC: the state of the link, and the messages that it completes (R531 to R537). -/
def State.flit (s : State) (corrected : Nat) (f : BitVec 2048) : State × List (Nat × List (Nat × Bool)) :=
  let s1 := s.bump pgKnk Reg.knkFecCount corrected
  let bytes := (List.range 248).map (fun i => f.extractLsb' (8 * i) 8)
  let h := (f.extractLsb' 0 64).toNat
  let last := (s1.pair.rxSeq + 1023) % 1024
  if Hash.crc64 bytes ≠ (f.extractLsb' 1984 64).toNat then
    let s2 := s1.bump pgKnk Reg.knkCrcerrCount 1
    if s2.pair.rxWait then (s2, [])
    else ((s2.updPair (fun p => { p with rxWait := true })).ackOut last true, [])
  else if !flitValid h then (s1, [])
  else
    let s2 := (s1.flitControl h).pump
    if bitsAt h 62 2 ≠ 1 ∨ bitsAt h 49 10 ≠ s2.pair.rxSeq then (s2, [])
    else
      let c := bitsAt h 59 3
      let ws := SMap.getD s2.pair.rx c [] ++ flitPayload (fun i => (f.extractLsb' (64 * i) 64).toNat) h
      let r := takeMsgs ws.length ws
      ((s2.updPair (fun p => { p with
        rxSeq := (p.rxSeq + 1) % 1024, rxWait := false, rx := SMap.setD p.rx c [] r.2
        freed := p.freed.set (cclassOf c) (p.freed.getD (cclassOf c) 0 + 1) })).ackOut s2.pair.rxSeq false, r.1)

end Sys2Proof.Machine
end

