-- ==== Sys2Proof/Machine/PairLogic.lean ====
section
/-! DEFINITION. The pair logic: roles, the state machine of R557, digests, SPLIT, hand-offs and reloads
(spec/16 R540 to R560, R755 to R757). -/
namespace Sys2Proof.Machine

def allOnes64 : Nat := 2 ^ 64 - 1

/-! ## Roles and the pair state (R540, R541, R557, R755) -/

/-- The pair state: 0 SOLO, 1 PAIRED, 2 UNCHECKED, 3 SPLIT, 4 SPENT, 5 RESYNC (R566). -/
def State.pstate (s : State) : Nat := s.knk Reg.knkStatePstate

/-- Enter a pair state; entering PAIRED, UNCHECKED or SPENT sets its cause. -/
def State.toPstate (s : State) (n : Nat) : State :=
  if s.pstate = n then s
  else
    let s1 := s.wr pgKnk Reg.knkStatePstate n
    if n = 1 then (s1.updPair (fun p => { p with
        promotedBy := none, ownSplit := none, partnerSplit := none, splitDone := false })).setCause pgKnk
          Reg.causeKnkPaired
    else if n = 2 then s1.setCause pgKnk Reg.causeKnkUnchecked
    else if n = 4 then s1.setCause pgKnk Reg.causeKnkDemoted
    else s1

/-- The coded role is LIT: the role held from the next latch point (R541, R755). -/
def State.codedLit (s : State) : Bool :=
  if s.pairEn then s.pair.rolePair.getD (s.shadowOf pgKnk Reg.knkCtrlRoleReq = 1) else true

/-- The role in effect is LIT. -/
def State.lit (s : State) : Bool := s.flag pgKnk Reg.knkStateRole

def State.setRole (s : State) (lit : Bool) : State := s.updPair (fun p => { p with rolePair := some lit })

/-- The role takes effect at a latch point, after the shadows; records are compared at a change (R45, R540,
R541, R519); a module that the pair logic made LIT sets PROMOTE (R557). -/
def State.latchRole (s : State) : State :=
  let new := if s.pairEn then s.pair.rolePair.getD (s.flag pgKnk Reg.knkCtrlRoleReq) else true
  if new = s.lit then s
  else
    let s1 := s.wr pgKnk Reg.knkStateRole (b2n new)
    let s2 := if new && s1.pair.rolePair == some true && s1.pairEn then s1.setCause pgKnk Reg.causeKnkPromote else s1
    if s2.pairEn then s2.sendRecord else s2

/-- HEARTBEAT (0x03): pair state, coded role, position; current work stoke (R537, R538). -/
def State.sendHeartbeat (s : State) : State :=
  s.knkSend 0x03 [s.pstate + 8 * b2n s.codedLit + 16 * s.knk Reg.knkCtrlPos, s.rd pgStk Reg.stkWork] []

/-- Enter SPENT: BANKED, quenched to HELD (R559). -/
def State.enterSpent (s : State) : State := ((s.setRole false).toPstate 4).quench 5 true

/-- The pair logic writes STK_RESUME and STK_CMD.RESUME (R553, R565). -/
def State.pairResume (s : State) (w : Nat) : State :=
  let s1 := s.wr pgStk Reg.stkResume w
  { s1 with stoke := { s1.stoke with resumeCmd := true } }

/-- RESYNC ends without success (R557, R564, R565): the sender resumes alone, the receiver is SPENT. -/
def State.resyncFail (s : State) : State :=
  let s1 := (((s.updPair (fun p => { p with resync := none })).setCause pgKnk Reg.causeKnkResyncFail).err pgKnk 0xB4 0)
  if s1.flag pgKnk Reg.knkStateDir then s1.enterSpent
  else (s1.toPstate 0).pairResume (s1.rd pgStk Reg.stkWork)

/-- The partner is lost; `handoff` names the work stoke of a HANDOFF (R557 first row). -/
def State.partnerLost (s : State) (handoff : Option Nat) : State :=
  let lost := fun (t : State) => (t.setCause pgKnk Reg.causeKnkPartnerLost).err pgKnk 0xB2 0
  if !s.pairEn then s
  else
    match s.pstate with
    | 1 | 2 =>
      let s1 := lost (s.toPstate 0)
      if s1.lit then s1
      else (s1.setRole true).updPair (fun p => { p with promotedBy := handoff })
    | 3 => ((lost (s.toPstate 0)).updPair (fun p => { p with
        ownSplit := none, partnerSplit := none, splitDone := false, readyOwn := none, readyTheirs := none
        readyCount := none })).setCause pgKnk Reg.causeKnkSplitHost
    | 5 => (lost s).resyncFail
    | _ => s

/-! ## Digest records (R537, R544 to R548) -/

/-- The payload of a DIGEST message. -/
def DigRec.words (d : DigRec) : List Nat :=
  [d.work] ++ d.dg ++ [d.run + 256 * b2n d.isVoid + 2 ^ 32 * d.crc, d.faults, d.devStk]

/-- The record a DIGEST message carries. -/
def digRecOf (ws : List Nat) : DigRec :=
  let x := ws.getD 5 0
  { chain := 0, work := ws.getD 0 0, dg := (List.range 4).map (fun i => ws.getD (i + 1) 0), run := bitsAt x 0 8,
    isVoid := bitAt x 8, crc := bitsAt x 32 32, faults := ws.getD 6 0, devStk := ws.getD 7 0, hashes := [] }

/-- Two records are equal: digests and DETREC CRCs (R546). -/
def DigRec.same (a b : DigRec) : Bool := a.dg == b.dg && a.crc == b.crc

/-- Own records of a work stoke that count: of the current chain, not void. -/
def State.ownRecs (s : State) (w : Nat) : List DigRec :=
  s.pair.journal.filter (fun d => d.chain = s.pair.chainNo && d.work = w && !d.isVoid)

/-- The fault summary after work stoke c is confirmed: events after its end (R550). -/
def State.dropFaults (s : State) (c : Nat) : State :=
  let m := s.pair.faultsBy.filter (fun e => decide (2 ^ 64 * s.pair.chainNo + c < e.1))
  (s.updPair (fun p => { p with faultsBy := m })).wr pgKnk Reg.knkFaults (m.foldl (fun x e => x ||| e.2) 0)

/-- KNK_CONF follows the confirmed work stokes of the chain (R547). -/
def State.advanceConf : Nat → State → State
  | 0, s => s
  | k + 1, s =>
    let n := (s.knk Reg.knkConfWork + 1) % 2 ^ 64
    if s.pair.confirmed.contains n then
      State.advanceConf k (((s.updPair (fun p => { p with confirmed := p.confirmed.filter (· ≠ n) })).wr pgKnk
        Reg.knkConfWork n).dropFaults n)
    else s

/-- Work stokes found equal (R547). -/
def State.confirm (s : State) (ws : List Nat) : State :=
  let s1 := s.updPair (fun p => { p with confirmed := (p.confirmed ++ ws).eraseDups })
  if s1.pair.chainOn then s1.advanceConf s1.pair.confirmed.length else s1

/-- START or RESUME acts: a chain starts at a work stoke (R547). -/
def State.startChain (s : State) (w : Nat) : State :=
  (s.updPair (fun p => { p with
    chainOn := true, chainNo := p.chainNo + 1, confirmed := [], awaited := [], fresh := [] })).wr pgKnk
      Reg.knkConfWork ((w + allOnes64) % 2 ^ 64)

/-! ## SPLIT (R550 to R556) -/

/-- Enter SPLIT at a work stoke: quench to HELD, send SPLIT (R551, R552); within REPEAT_WIN of a resumed work
stoke it is a repeat (R556). -/
def State.enterSplit (s : State) (w : Nat) : State :=
  let rep := match s.pair.resumed with
    | some r => decide (w ≤ r + s.knk Reg.knkCtrlRepeatWin)
    | none => false
  let own : SplitMsg := { work := w, faults := s.knk Reg.knkFaults, hashes := match (s.ownRecs w).getLast? with
    | some d => d.hashes
    | none => List.replicate 304 0 }
  let s1 := ((s.toPstate 3).setCause pgKnk Reg.causeKnkSplit).bump pgKnk Reg.knkStateSplits 1
  let s2 := s1.wrs pgKnk [(Reg.knkSplitValid, 1), (Reg.knkSplitOutcome, if rep then 4 else 0), (Reg.knkSplitLoc, 0x1FF),
    (Reg.knkSplitWork, w)]
  let s3 := (s2.updPair (fun p => { p with ownSplit := some own, splitDone := false, ckTheirs := none })).quench 5 true
  let s4 := s3.knkSend 0x06 ([w, own.faults] ++ own.hashes) []
  if rep then s4.setCause pgKnk Reg.causeKnkSplitHost else s4

/-- The lowest index at which two hash lists differ (R556). -/
def splitLoc (a b : List Nat) : Nat :=
  ((List.range 304).find? (fun i => decide (a.getD i 0 ≠ b.getD i 0))).getD 0x1FF

/-- The bytes of a checkpoint generation record (spec/13 R469). -/
def CkptRec.bytes (r : CkptRec) : List Byte :=
  let lo := leBytes 8 r.work ++ leBytes 2 r.state ++ leBytes 2 0
  lo ++ leBytes 4 (Hash.crc32c (r.planHash ++ lo)) ++ r.planHash

/-- The record that 64 bytes hold; one whose CRC is wrong is not complete. -/
def ckptRecOf (l : List Byte) : CkptRec :=
  let good := decide (Hash.crc32c (recPart l 16 48 ++ recPart l 0 12) = leNat (recPart l 12 4))
  { work := leNat (recPart l 0 8), state := if good then leNat (recPart l 8 2) else 0, planHash := recPart l 16 48 }

def CkptRec.none : CkptRec := { work := 0, state := 0, planHash := List.replicate 48 0 }

/-- The record of a generation as last written. -/
def State.ckRec (s : State) (g : Nat) : CkptRec := s.pair.ckRecs.getD g CkptRec.none

/-- CKPT (0x07): both generation records. -/
def State.sendCkpt (s : State) : State :=
  s.knkSend 0x07 (wordsOf64 16 ((s.ckRec 0).bytes ++ (s.ckRec 1).bytes)) []

/-- The plan hash of the plan that RESUME will run: the staged plan's, else the active one's (R519). -/
def State.resumeHash (s : State) : List Byte :=
  match s.plans.staging with
  | some st => if st.stage = 4 then (match st.plan with | some p => p.planHash | none => []) else
      (match s.plans.active with | some p => p.planHash | none => [])
  | none => match s.plans.active with | some p => p.planHash | none => []

/-- A generation complete on both modules with equal WORK and PLAN_HASH, of the plan to resume (R554, R519). -/
def State.ckCommon (s : State) (theirs : List CkptRec) (g : Nat) : Bool :=
  let a := s.ckRec g
  let b := theirs.getD g CkptRec.none
  a.state = 1 && b.state = 1 && a.work = b.work && a.planHash == b.planHash && a.planHash == s.resumeHash

/-- Select the newest common generation, once both CKPT messages are held (R554). -/
def State.selectReload (s : State) : State :=
  match s.pair.ckTheirs with
  | none => s
  | some theirs =>
    let l := [0, 1].filter (s.ckCommon theirs)
    match l with
    | [] => (s.wr pgKnk Reg.knkReloadLoValid 0).setCause pgKnk Reg.causeKnkSplitHost
    | g :: gs =>
      let best := gs.foldl (fun b h => if (s.ckRec b).work < (s.ckRec h).work then h else b) g
      s.wrs pgKnk [(Reg.knkReloadLoValid, 1), (Reg.knkReloadLoGen, best), (Reg.knkReloadHiWork, (s.ckRec best).work)]

/-- Both SPLIT messages are held and the stoke unit is HELD: the table of R553. -/
def State.judgeSplit (s : State) : State :=
  match s.pair.ownSplit, s.pair.partnerSplit with
  | some a, some b =>
    if s.pstate ≠ 3 ∨ s.pair.splitDone ∨ s.rd pgStk Reg.stkState ≠ 3 then s
    else
      let loc := splitLoc a.hashes b.hashes
      let s1 := ((s.wrs pgKnk [(Reg.knkSplitLoc, loc), (Reg.knkSplitPfaults, b.faults)]).err pgKnk 0xB0 loc).updPair
        (fun p => { p with splitDone := true })
      if s1.knk Reg.knkSplitOutcome = 4 then s1
      else if a.faults ≠ 0 ∧ b.faults = 0 then (s1.wr pgKnk Reg.knkSplitOutcome 2).enterSpent
      else if a.faults = 0 ∧ b.faults ≠ 0 then
        (((s1.wr pgKnk Reg.knkSplitOutcome 1).setRole true).toPstate 0).pairResume (s1.rd pgStk Reg.stkFailWork)
      else ((s1.wr pgKnk Reg.knkSplitOutcome 3).sendCkpt).selectReload
  | _, _ => s

/-- After a repeat this module becomes LIT and SOLO and resumes (R556). -/
def State.keep (s : State) : State :=
  if s.pairEn ∧ s.pstate = 3 ∧ s.knk Reg.knkSplitOutcome = 4 ∧ s.rd pgStk Reg.stkState = 3 then
    (((s.wr pgKnk Reg.knkSplitOutcome 1).setRole true).toPstate 0).pairResume (s.rd pgStk Reg.stkFailWork)
  else s.err pgKnk 0x03 (Reg.regOff Reg.knkCmdKeep)

/-- KNK_KEEP: a write of KEEP to KNK_CMD. -/
def execKnkKeep (s : State) : Host.Outcome State Fault Refusal := answer s.keep

/-! ## READY (R555, R565) -/

/-- READY (0x08): the work stoke to resume and 2 boundaries. -/
def State.sendReady (s : State) (w : Nat) : State :=
  (s.updPair (fun p => { p with readyOwn := some w, readyCount := none })).knkSend 0x08 [w, 2] []

/-- The later of the two READY messages counts the boundaries; unequal ones are captured (R555). -/
def State.readyMatch (s : State) (n : Nat) : State :=
  match s.pair.readyOwn, s.pair.readyTheirs with
  | some a, some b =>
    if a = b.1 then s.updPair (fun p => { p with readyCount := some n })
    else (s.updPair (fun p => { p with readyCount := none })).err pgStk 0x03 (Reg.regOff Reg.stkCmdResume)
  | _, _ => s

/-- STK_CMD.RESUME is written in SPLIT (R555). -/
def State.splitResume (s : State) : State := (s.sendReady (s.rd pgStk Reg.stkResume)).readyMatch 2

/-- A boundary's replay decision counts towards leaving HELD; at the last one RESUME acts and the pair is
PAIRED (R555, R556). -/
def State.readyTick (s : State) : State :=
  match s.pair.readyCount with
  | none => s
  | some k =>
    if 1 < k then s.updPair (fun p => { p with readyCount := some (k - 1) })
    else
      let s1 := s.updPair (fun p => { p with
        readyCount := none, readyOwn := none, readyTheirs := none
        resumed := if s.pstate = 3 then p.readyOwn else p.resumed })
      let s2 := { s1 with stoke := { s1.stoke with resumeCmd := true } }
      s2.toPstate 1

/-! ## Comparing (R546 to R548, R756) -/

/-- The comparison of the fresh records: work stokes equal, work stokes unequal, records still to compare. -/
def State.compareFresh (s : State) : List Nat × List Nat × List DigRec :=
  s.pair.fresh.foldl (fun r d =>
    let own := s.ownRecs d.work
    if d.isVoid then r
    else if own = [] then (if s.rd pgStk Reg.stkWork ≤ d.work then (r.1, r.2.1, r.2.2 ++ [d]) else r)
    else if own.all d.same then (r.1 ++ [d.work], r.2.1, r.2.2)
    else (r.1, r.2.1 ++ [d.work], r.2.2)) ([], [], [])

/-- The lag: the partner's latest work stoke minus the own one (R548). -/
def State.lag (s : State) : Int :=
  match s.pair.partnerWork with
  | some w => (w : Int) - (s.rd pgStk Reg.stkWork : Int)
  | none => 0

/-- LAG as KNK_STATE shows it: two's complement, saturating. -/
def lagField (i : Int) : Nat := ofInt 8 (max (-128) (min 127 i))

/-- Positions, heartbeat and records allow a pair (R557, R558). -/
def State.pairable (s : State) : Bool :=
  s.pairEn && s.linkGood && s.pair.matched && s.pair.hbSeen && decide (s.pair.partnerState ≠ 4) &&
  decide (b2n s.pair.partnerPos ≠ s.knk Reg.knkCtrlPos)

/-- In SOLO with the link up and records matching, a pair forms when both are IDLE; matching records hold
no plan on both then (R557, R515). -/
def State.tryPair (s : State) : State :=
  if s.pstate = 0 ∧ s.pairable ∧ s.rd pgStk Reg.stkState = 0 then s.toPstate 1 else s

/-- An unequal, overdue or lagging record of this comparison (R548, R557). -/
def State.judgeCompare (s : State) (bad : List Nat) (late : Bool) : State :=
  match bad with
  | w :: _ => if s.pstate = 1 ∨ s.pstate = 2 then s.enterSplit w else s
  | [] => if s.pstate = 1 ∧ (late ∨ (s.knk Reg.knkCtrlLagMax : Int) < s.lag ∨ s.lag < -(s.knk Reg.knkCtrlLagMax : Int)) then
      s.toPstate 2 else s

/-- DIGEST_COMPARE: the comparison at B+1,100 (R546 to R548); a pair forms on a common work stoke (R557). -/
def State.compareDigests (s : State) : State :=
  if !s.pairEn then s.updPair (fun p => { p with fresh := [], awaited := [] })
  else
    let r := s.compareFresh
    let wait := max 1 (s.knk Reg.knkCtrlDigWait)
    let due := s.pair.awaited.filter (fun e => decide (e.2 + wait ≤ s.rd pgStk Reg.stkNum))
    let s1 := s.updPair (fun p => { p with
      fresh := r.2.2, awaited := p.awaited.filter (fun e => decide (s.rd pgStk Reg.stkNum < e.2 + wait)) })
    let w := r.1.foldl max 0
    let s2 := if s1.pstate = 0 ∧ s1.pairable ∧ r.1 ≠ [] then
        ((((s1.updPair (fun p => { p with chainOn := true, confirmed := [], awaited := [] })).wr pgKnk Reg.knkConfWork
          w).dropFaults w).toPstate 1)
      else s1.confirm r.1
    s2.judgeCompare r.2.1 (due ≠ [])

/-- Work stokes c+1 to h, at most as many as the journal can hold. -/
def workRange (c h : Nat) : List Nat :=
  let a := (c + 1) % 2 ^ 64
  (List.range (h + 1 - a)).map (a + ·)

/-- In UNCHECKED, after the link is up again and the records match: the journals since KNK_CONF (R756). -/
def State.judgeJournals (s : State) : State :=
  match s.pair.partnerWork with
  | none => s
  | some pw =>
    let h := min (s.rd pgStk Reg.stkWork) pw
    let ws := if h = 0 then [] else workRange (s.knk Reg.knkConfWork) (h - 1)
    let theirs := fun (w : Nat) => s.pair.theirs.filter (fun d => d.work = w && !d.isVoid)
    let bad := ws.filter (fun w => (theirs w).any (fun d => (s.ownRecs w).any (fun o => !o.same d)))
    let gone := ws.any (fun w => (theirs w).isEmpty != (s.ownRecs w).isEmpty)
    match bad with
    | w :: _ => s.enterSplit w
    | [] =>
      if gone then (if s.lit then s.toPstate 0 else s.enterSpent)
      else
        ((s.updPair (fun p => { p with awaited := p.awaited.filter (fun e => !ws.contains e.1) })).confirm
          (ws.filter (fun w => !(theirs w).isEmpty))).toPstate 1

/-! ## Hand-offs (R557, R560, R757) -/

/-- Crossed hand-offs at a work stoke: SPLIT and HELD, the role of before, a reload (R560). -/
def State.crossed (s : State) (w : Nat) (role : Bool) : State :=
  let rep := match s.pair.resumed with
    | some r => decide ((w + 1) % 2 ^ 64 ≤ r + s.knk Reg.knkCtrlRepeatWin)
    | none => false
  let s1 := (((s.setRole role).toPstate 3).wrs pgKnk [(Reg.knkSplitValid, 1), (Reg.knkSplitOutcome, if rep then 4 else 3),
    (Reg.knkSplitLoc, 0x1FF), (Reg.knkSplitWork, (w + 1) % 2 ^ 64)]).setCause pgKnk Reg.causeKnkSplitHost
  let s2 := s1.updPair (fun p => { p with
    ownSplit := none, partnerSplit := none, splitDone := true, sentHandoff := none, promotedBy := none, ckTheirs := none })
  if rep then s2 else s2.sendCkpt.selectReload

/-- Send HANDOFF naming a work stoke (R537, R560). -/
def State.sendHandoff (s : State) (w : Nat) : State :=
  (s.updPair (fun p => { p with
    sentHandoff := some (w, s.lit), window := max 1 (s.knk Reg.knkHbLoss) })).knkSend 0x05 [w] []

/-- The own stoke unit enters HELD other than by the pair logic, or KNK_CMD.HANDOFF is written (R557, R757);
a module promoted by a HANDOFF crosses it when it is HELD before completing the next work stoke (R560). -/
def State.handOff (s : State) (held : Bool) : State :=
  if !s.pairEn then s
  else if s.pstate = 1 ∨ s.pstate = 2 then (s.sendHandoff (s.pair.lastClean.getD allOnes64)).enterSpent
  else if s.pstate = 0 ∧ held then
    match s.pair.promotedBy with
    | some w =>
      if s.pair.lastClean.getD 0 < (w + 1) % 2 ^ 64 ∨ s.pair.lastClean = none then (s.sendHandoff w).crossed w false
      else s
    | none => s
  else s

/-- KNK_HANDOFF: a write of HANDOFF to KNK_CMD (R557). -/
def execKnkHandoff (s : State) : Host.Outcome State Fault Refusal := answer (s.handOff false)

/-- HANDOFF received: hand-offs cross, or the partner is lost (R557, R560). -/
def State.gotHandoff (s : State) (w : Nat) : State :=
  if !s.pairEn then s
  else
    match s.pair.sentHandoff with
    | some (v, role) =>
      if v = w ∧ (0 < s.pair.window ∨ s.pair.partnerLit) ∧ (s.pstate = 0 ∨ s.pstate = 4) then s.crossed w role
      else s.partnerLost (some w)
    | none => s.partnerLost (some w)

/-- The pair logic goes off: SOLO (R566). -/
def State.pairOff (s : State) : State :=
  (s.wr pgKnk Reg.knkStatePstate 0).updPair (fun p => { p with
    rolePair := none, ownSplit := none, partnerSplit := none, splitDone := false, sentHandoff := none,
    promotedBy := none, readyOwn := none, readyTheirs := none, readyCount := none, resync := none, matched := false })

end Sys2Proof.Machine
end

