-- ==== Sys2Proof/Machine/FarTier.lean ====
section
/-! DEFINITION. The far tier: enumeration, rescan and sanitize (spec/11 R413 to R415, R418, R420, R424, R425). -/
namespace Sys2Proof.Machine

/-- Bytes that the other slots map. -/
def State.farMapped (s : State) (slot : Nat) : Nat :=
  (((List.range 8).filter (fun k => decide (k ≠ slot) && (decide (s.rd (pgFar k) Reg.farState = 2) || decide (s.rd (pgFar k) Reg.farState = 3)))).map
    (fun k => s.rd (pgFar k) Reg.farCap)).foldl (· + ·) 0

/-- FAR_CAP of a device: whole 256 MiB, at most 2 TiB, within 8 TiB in total (R415). -/
def State.farCapOf (s : State) (slot cap : Nat) : Nat :=
  min (min (cap / 2 ^ 28 * 2 ^ 28) (2 ^ 41)) ((2 ^ 43 - s.farMapped slot) / 2 ^ 28 * 2 ^ 28)

/-- Why a device is not mapped: FAILWHY of R424; 0 when it is. -/
def State.farWhy (s : State) (d : FarDev) : Nat :=
  if !d.type3 then 5
  else if d.cap.toNat < 128000000000 then 1
  else if s.farCapOf d.slot d.cap.toNat = 0 then 2
  else if !d.mediaReady then 3
  else if !d.committed then 4
  else 0

/-- Tender enumerates one slot (R414). -/
def State.farEnum (s : State) (d : FarDev) : State :=
  let p := pgFar d.slot
  let common := [(Reg.farStateDirect, b2n d.direct), (Reg.farStateVer, d.ver.val), (Reg.farStatePmem, b2n d.pmem),
    (Reg.farStatePort, if d.direct then 0xFF else d.slot.val), (Reg.farDevcap, d.cap.toNat)]
  if !d.isPresent then
    s.wrs p [(Reg.farState, 0), (Reg.farStateDirect, 0), (Reg.farStateVer, 0), (Reg.farStatePmem, 0), (Reg.farStateFailwhy, 0),
      (Reg.farStatePort, 0xFF), (Reg.farCap, 0), (Reg.farDevcap, 0)]
  else
    let why := s.farWhy d
    if why = 0 then
      (s.wrs p (common ++ [(Reg.farState, 2), (Reg.farStateFailwhy, 0), (Reg.farCap, s.farCapOf d.slot d.cap.toNat)])).setCause p
        Reg.causeFarReady
    else (s.wrs p (common ++ [(Reg.farState, 4), (Reg.farStateFailwhy, why), (Reg.farCap, 0)])).err p 0x94 why

/-- A device directly attached takes slot 0 (R413). -/
def farPlaced (d : FarDev) : Bool := !d.direct || decide (d.slot.val = 0)

/-- A rescan is accepted in IDLE or HELD for an empty, failed or removed slot (R418). -/
def State.rescanOk (s : State) (k : Nat) : Bool :=
  (decide (s.rd pgStk Reg.stkState = 0) || decide (s.rd pgStk Reg.stkState = 3)) &&
  [0, 4, 5].contains (s.rd (pgFar k) Reg.farState)

/-- A write of RESCAN: the slot enumerates; what the device answers comes with FAR_RESCAN (R418, R424). -/
def State.rescanWrite (s : State) (k : Nat) : State :=
  if s.rescanOk k then s.wr (pgFar k) Reg.farState 1 else s.err (pgFar k) 0x03 (Reg.regOff Reg.farCmdRescan)

/-- FAR_RESCAN: R414 for one slot: a rescan that is accepted, or the end of one that a register write has begun (R418). -/
def execFarRescan (d : FarDev) (s : State) : Host.Outcome State Fault Refusal :=
  answer (
    if (s.rescanOk d.slot || decide (s.rd (pgFar d.slot) Reg.farState = 1)) && farPlaced d then s.farEnum d
    else s.err (pgFar d.slot) 0x03 (Reg.regOff Reg.farCmdRescan))

/-- A directly attached device that can be sanitized, mapped or not. -/
def State.farDirect (s : State) (k : Nat) : Bool :=
  (decide (s.rd (pgFar k) Reg.farState = 2) || decide (s.rd (pgFar k) Reg.farState = 4)) && s.flag (pgFar k) Reg.farStateDirect

/-- The Sanitize command goes to the device (R420). -/
def State.startSanitize (s : State) (k : Nat) : State :=
  (s.wr (pgFar k) Reg.farState 3).emit (.response "CXP1 sanitize" (leBytes 1 k))

/-- FAR_SANITIZE: accepted for a directly attached device in IDLE (R420). -/
def State.sanitizeWrite (s : State) (k : Nat) : State :=
  if s.farDirect k ∧ s.rd pgStk Reg.stkState = 0 then s.startSanitize k
  else s.err (pgFar k) 0x03 (Reg.regOff Reg.farCmdSanitize)
def execFarSanitize (slot : Fin 8) (s : State) : Host.Outcome State Fault Refusal := answer (s.sanitizeWrite slot)

/-- A sanitize ends: 1 completed, 2 failed, 3 not supported (R420, R424, R425). -/
def State.endSanitize (s : State) (k result seconds : Nat) : State :=
  let p := pgFar k
  let s1 := s.wrs p [(Reg.farState, if s.flag p Reg.farStateFailwhy then 4 else 2), (Reg.farSanValid, 1), (Reg.farSanResult, result), (Reg.farSanSeconds, min 65535 seconds)]
  if result = 1 then s1.setCause p Reg.causeFarSanDone
  else (s1.setCause p Reg.causeFarSanFail).err p 0x93 0

/-- Slots behind a switch record result 4 at a life-cycle transition (R420). -/
def State.skipSanitize (s : State) : State :=
  ((List.range 8).filter (fun k => (decide (s.rd (pgFar k) Reg.farState = 2) || decide (s.rd (pgFar k) Reg.farState = 4)) && !s.flag (pgFar k) Reg.farStateDirect)).foldl
    (fun (s : State) k => s.wrs (pgFar k) [(Reg.farSanValid, 1), (Reg.farSanResult, 4)]) s

end Sys2Proof.Machine
end

