-- ==== Sys2Proof/Machine/Keys.lean ====
section
/-! DEFINITION. The key store: ECDSA on brainpoolP384r1 with SHA-384 (RFC 5639, RFC 6979) and the keys derived by HKDF
(spec/21 R686, R692 to R694). The curve and the algorithms are those of the standards that the spec names
(notes/assumptions/71.md). -/
namespace Sys2Proof.Keys

open Sys2Proof.Hash (beNat beBytes hmac sha384)

/-! ## The curve y² = x³ + ax + b over the integers modulo p, with a base point of prime order n -/

def p : Nat := 0x8CB91E82A3386D280F5D6F7E50E641DF152F7109ED5456B412B1DA197FB71123ACD3A729901D1A71874700133107EC53
def a : Nat := 0x7BC382C63D8C150C3C72080ACE05AFA0C2BEA28E4FB22787139165EFBA91F90F8AA5814A503AD4EB04A8C7DD22CE2826
def b : Nat := 0x04A8C7DD22CE28268B39B55416F0447C2FB77DE107DCD2A62E880EA53EEB62D57CB4390295DBC9943AB78696FA504C11
def gx : Nat := 0x1D1C64F068CF45FFA2A63A81B7C13F6B8847A3E77EF14FE3DB7FCAFE0CBD10E8E826E03436D646AAEF87B2E247D4AF1E
def gy : Nat := 0x8ABE1D7520F9C2A45CB1EB8E95CFD55262B70B29FEEC5864E19C054FF99129280E4646217791811142820341263C5315
def n : Nat := 0x8CB91E82A3386D280F5D6F7E50E641DF152F7109ED5456B31F166E6CAC0425A7CF3AB6AF6B7FC3103B883202E9046565

/-- x to the power e modulo m. -/
def powMod (m x e : Nat) : Nat :=
  (List.range 384).foldr (fun i r => r * r % m * (if e.testBit i then x else 1) % m) 1

/-- The inverse modulo a prime. -/
def inv (m x : Nat) : Nat := powMod m x (m - 2)

/-- x − y modulo p. -/
def minus (x y : Nat) : Nat := (x + p - y % p) % p

/-- A point (x / z², y / z³); the point at infinity has z = 0. -/
structure Point where
  x : Nat
  y : Nat
  z : Nat
  deriving DecidableEq, Repr

def Point.zero : Point := { x := 1, y := 1, z := 0 }
def Point.base : Point := { x := gx, y := gy, z := 1 }

/-- A point added to itself. -/
def Point.double (q : Point) : Point :=
  let yy := q.y * q.y % p
  let s := 4 * q.x * yy % p
  let m := (3 * q.x * q.x + a * (q.z * q.z % p) % p * (q.z * q.z % p)) % p
  let x := minus (m * m) (2 * s)
  { x := x, y := minus (m * minus s x) (8 * yy * yy), z := 2 * q.y * q.z % p }

/-- The sum of two points. -/
def Point.add (q r : Point) : Point :=
  if q.z = 0 then r
  else if r.z = 0 then q
  else
    let qz := q.z * q.z % p
    let rz := r.z * r.z % p
    let u := q.x * rz % p
    let v := r.x * qz % p
    let s := q.y * r.z % p * rz % p
    let t := r.y * q.z % p * qz % p
    if u = v then (if s = t then q.double else Point.zero)
    else
      let h := minus v u
      let k := minus t s
      let hh := h * h % p
      let x := minus (k * k) (hh * h + 2 * u * hh)
      { x := x, y := minus (k * minus (u * hh) x) (s * hh % p * h), z := h * q.z % p * r.z % p }

/-- A multiple of a point. -/
def Point.times (q : Point) (k : Nat) : Point :=
  (List.range 384).foldr (fun i r => let d := r.double; if k.testBit i then d.add q else d) Point.zero

/-- The coordinates of a point that is not at infinity. -/
def Point.affine (q : Point) : Nat × Nat :=
  let w := inv p q.z
  (q.x * (w * w % p) % p, q.y * (w * w % p * w % p) % p)

def onCurve (x y : Nat) : Bool := x < p && y < p && y * y % p == (x * x % p * x + a * x + b) % p

/-! ## ECDSA -/

/-- A signature (r then s) of a message verifies under a public key (x then y), 48 bytes each, high byte first (R686). -/
def verify (pub msg sig : List Byte) : Bool :=
  let x := beNat (pub.take 48)
  let y := beNat (pub.drop 48)
  let r := beNat (sig.take 48)
  let s := beNat (sig.drop 48)
  if pub.length ≠ 96 ∨ sig.length ≠ 96 ∨ !onCurve x y ∨ r = 0 ∨ n ≤ r ∨ s = 0 ∨ n ≤ s then false
  else
    let w := inv n s
    let q := (Point.base.times (beNat (sha384 msg) * w % n)).add (({ x := x, y := y, z := 1 } : Point).times (r * w % n))
    q.z != 0 && q.affine.1 % n == r

/-- The signature that one value of k gives, if it gives one. -/
def signWith (d h k : Nat) : Option (Nat × Nat) :=
  if k = 0 ∨ n ≤ k then none
  else
    let r := (Point.base.times k).affine.1 % n
    let s := inv n k * (h + r * d) % n
    if r = 0 ∨ s = 0 then none else some (r, s)

/-- The first value of k that serves, of those that RFC 6979 derives from its running key and value. -/
def signFrom (d h : Nat) : Nat → List Byte → List Byte → Nat × Nat
  | 0, _, _ => (0, 0)
  | f + 1, key, v =>
    let v1 := hmac key v
    match signWith d h (beNat v1) with
    | some sig => sig
    | none =>
      let key2 := hmac key (v1 ++ [0])
      signFrom d h f key2 (hmac key2 v1)

/-- The signature of a message with a private key, as r and s (R694). Of 256 values of k at least one serves, but for a
chance below 2^-256. -/
def sign (d : Nat) (msg : List Byte) : Nat × Nat :=
  let h := beNat (sha384 msg)
  let seed := beBytes 48 d ++ beBytes 48 (h % n)
  let v := List.replicate 48 0x01
  let key1 := hmac (List.replicate 48 0) (v ++ 0x00 :: seed)
  let v1 := hmac key1 v
  let key2 := hmac key1 (v1 ++ 0x01 :: seed)
  signFrom d h 256 key2 (hmac key2 v1)

/-- r then s, 48 bytes each. -/
def signature (d : Nat) (msg : List Byte) : List Byte :=
  let s := sign d msg
  beBytes 48 s.1 ++ beBytes 48 s.2

/-- The public key of a private key. -/
def publicKey (d : Nat) : List Byte :=
  let q := (Point.base.times d).affine
  beBytes 48 q.1 ++ beBytes 48 q.2

/-! ## Derived keys (R692) -/

/-- A private key from the device secret and a label: HKDF (RFC 5869) with no salt and the label as its information, 48
bytes of output, reduced modulo the group order, plus 1. -/
def derive (uds label : List Byte) : Nat :=
  beNat (hmac (hmac (List.replicate 48 0) uds) (label ++ [1])) % n + 1

/-- ASCII bytes of a label. -/
def ascii (s : String) : List Byte := s.toList.map (fun c => BitVec.ofNat 8 c.toNat)

/-- The device identity key. -/
def identity (uds : List Byte) : Nat := derive uds (ascii "CX4-DIK")
/-- The alias key of two measurements. -/
def alias_ (uds m0 m1 : List Byte) : Nat := derive uds (ascii "CX4-AK" ++ m0 ++ m1)

/-! ## The alias certificate (R693) -/

/-- A DER element: tag, definite length, contents. -/
def der (tag : Byte) (l : List Byte) : List Byte :=
  let m := l.length
  tag :: ((if m < 128 then [BitVec.ofNat 8 m] else if m < 256 then [0x81, BitVec.ofNat 8 m] else 0x82 :: beBytes 2 m) ++ l)

/-- A DER integer that is not negative and fits 48 bytes. -/
def derNat (x : Nat) : List Byte :=
  let l := (beBytes 48 x).dropWhile (fun b => b == 0)
  der 0x02 (if 128 ≤ (l.headD 0x80).toNat then 0 :: l else l)

/-- An X.509 certificate: the part to be signed, the algorithm (ECDSA with SHA-384), and the signature. -/
def certificate (d : Nat) (tbs : List Byte) : List Byte :=
  let s := sign d tbs
  der 0x30 (tbs ++ der 0x30 (der 0x06 [0x2A, 0x86, 0x48, 0xCE, 0x3D, 0x04, 0x03, 0x03]) ++
    der 0x03 (0 :: der 0x30 (derNat s.1 ++ derNat s.2)))

end Sys2Proof.Keys
end

