-- ==== Sys2Proof/Machine/Measure.lean ====
section
/-! DEFINITION. Measurements, the attestation log and injection entries (spec/21 R689 to R691; spec/14 R509, R510). -/
namespace Sys2Proof.Machine

def State.updSec (s : State) (f : Security → Security) : State := { s with sec := f s.sec }

/-- A measurement, 48 bytes (R689). -/
def State.meas (s : State) (i : Nat) : List Byte := s.sec.m.getD i []
def State.setMeas (s : State) (i : Nat) (l : List Byte) : State := s.updSec (fun x => { x with m := x.m.set i l })

/-- Append an entry to the attestation log; one that does not fit is dropped and counted (R690, R691). -/
def State.logAppend (s : State) (type : Nat) (body : List Byte) : State :=
  let l := s.sec.log ++ leBytes 1 type ++ leBytes 2 body.length ++ leBytes 1 0 ++ body
  if 65536 < l.length then s.bump pgSec Reg.secLogLost 1
  else (s.updSec (fun x => { x with log := l })).wr pgSec Reg.secLogLen l.length

/-- PAGE_ID of a page: TYPE, INSTANCE and VERSION 1 (spec/02 R53, R72). -/
def pageId (p : Page) : Nat := Reg.typeCode p.kind * 65536 + p.inst * 16 + 1

/-- ARM = 1 is written to a flip register: the page and the record are tainted, and an injection entry is logged
(R509, R510; spec/21 R703). -/
def State.inject (s : State) (p : Page) (off value : Nat) : State :=
  let s1 := s.wr p Reg.statTaint 1
  let s2 := { s1 with record := { s1.record with taint := true } }
  (s2.logAppend 0x01 (leBytes 4 (pageId p) ++ leBytes 2 off ++ leBytes 2 0 ++ leBytes 4 value ++
    leBytes 4 (s.rd pgStk Reg.stkNum))).setCause pgSec Reg.causeSecInject

/-- A plan latches: M3 is extended and the latch is logged (R689, R690). -/
def State.measurePlan (s : State) (planHash : List Byte) (work : Nat) : State :=
  (s.setMeas 3 (Hash.sha384 (s.meas 3 ++ planHash ++ leBytes 8 work))).logAppend 0x02 (leBytes 8 work ++ planHash)

end Sys2Proof.Machine
end

