-- ==== Sys2Proof/Machine/Images.lean ====
section
/-! DEFINITION. Signed images: headers, validity, and the choice of the slot to boot (spec/21 R685 to R687, R699). -/
namespace Sys2Proof.Machine

/-- The header fields of an image (R685). -/
def imgAt (img : List Byte) (off n : Nat) : Nat := leNat ((img.drop off).take n)
def imgKey (img : List Byte) : Nat := imgAt img 6 2
def imgSvn (img : List Byte) : Nat := imgAt img 8 1
def imgRevoke (img : List Byte) : Nat := imgAt img 9 1
def imgBuild (img : List Byte) : Nat := imgAt img 12 4
def imgLen (img : List Byte) : Nat := imgAt img 16 8
def imgBody (img : List Byte) : List Byte := (img.drop 320).take (imgLen img)
/-- The part of the header that is signed and measured. -/
def imgHead (img : List Byte) : List Byte := img.take 176

/-- Key slots accepted in a life-cycle state (R699). -/
def keyAccepted (lc k : Nat) : Bool := if lc = 0 then decide (k ≤ 3) else if lc = 3 then false else decide (k ≤ 2)

/-- MAGIC of a kind: 0 firmware, 1 microcode. -/
def imgMagic (kind : Nat) : Nat := if kind = 0 then 0x0C444657 else 0x0C445543

/-- The fused SVN of a kind. -/
def Fuses.svn (f : Fuses) (kind : Nat) : Nat := if kind = 0 then f.svnFw else f.svnUc

/-- The format: MAGIC, VERSION, reserved bytes, SVN and LENGTH in range, the whole body present (R685). -/
def imgFormatOk (kind : Nat) (img : List Byte) : Bool :=
  decide (imgAt img 0 4 = imgMagic kind) && decide (imgAt img 4 2 = 1) && decide (imgAt img 10 2 = 0) &&
  decide (imgAt img 24 8 = 0) && decide (imgAt img 272 48 = 0) && decide (imgAt img 9 1 < 16) && decide (imgKey img ≤ 3) &&
  decide (imgSvn img ≤ 64) && decide (imgLen img ≤ 2 ^ 23) && decide (320 + imgLen img ≤ img.length)

/-- A public key is that of a key slot, the slot is not revoked and is accepted (R686). -/
def keyOk (f : Fuses) (slot : Nat) (pub : List Byte) : Bool :=
  decide (f.keys[slot]? = some (Hash.sha384 pub)) && !bitAt f.revoked slot && keyAccepted f.lcState slot

/-- Why an image of a kind is not valid, as a STATUS of R697; 0 for a valid image (R686). -/
def imgStatus (f : Fuses) (kind : Nat) (img : List Byte) : Nat :=
  if !imgFormatOk kind img then 4
  else if bitAt f.revoked (imgKey img) || !keyAccepted f.lcState (imgKey img) then 6
  else if imgSvn img < f.svn kind then 5
  else if !keyOk f (imgKey img) ((img.drop 32).take 96) then 4
  else if !Keys.verify ((img.drop 32).take 96) (imgHead img) ((img.drop 176).take 96) then 4
  else if Hash.sha384 (imgBody img) ≠ (img.drop 128).take 48 then 4
  else 0

def imgValid (f : Fuses) (kind : Nat) (img : List Byte) : Bool := decide (imgStatus f kind img = 0)

/-- The bytes of a flash slot: 0 FWA, 1 FWB, 2 UCA, 3 UCB. -/
def State.slot (s : State) (k : Nat) : List Byte := s.flash.slots.getD k []
def State.setSlot (s : State) (k : Nat) (l : List Byte) : State :=
  { s with flash := { s.flash with slots := s.flash.slots.set k l } }

def State.slotValid (s : State) (k : Nat) : Bool := imgValid s.fuses (k / 2) (s.slot k)

/-- The slot of a kind to boot: the valid one of higher SVN, then BUILD, the first on a tie (R687). -/
def State.bootSlot (s : State) (kind : Nat) : Option Nat :=
  let a := 2 * kind
  let b := a + 1
  let key := fun k => imgSvn (s.slot k) * 2 ^ 32 + imgBuild (s.slot k)
  if s.slotValid a then (if s.slotValid b && decide (key a < key b) then some b else some a)
  else if s.slotValid b then some b else none

/-- A slot found invalid is captured (R687, R705). -/
def State.checkSlot (s : State) (k : Nat) : State := if s.slotValid k then s else s.err pgSec 0x20 k

end Sys2Proof.Machine
end

