-- ==== Sys2Proof/Machine/Hops.lean ====
section
/-! DEFINITION. The passage of data from one check to another (spec/14 R491, R492; spec/08 R296): the new check is computed from the data
as they come, before the old one is verified, and adjusted by what the verification corrects. -/
namespace Sys2Proof.Hop

/-- The eight bytes of a word. -/
def bytes (d : BitVec 64) : List Byte := (List.range 8).map (fun i => d.extractLsb' (8 * i) 8)

/-- Guarded words as a unit receives them: stored, with the bits that faults invert on the way. -/
def received (stored : List (BitVec 64 × Bool)) (faults : List (Nat × BitVec 80)) : List Gw.Word80 :=
  stored.zipIdx.map (fun e => faults.foldl (fun w f => if f.1 = e.2 then w ^^^ f.2 else w) (Gw.stored e.1.1 e.1.2))

/-- What verifying finds, word by word; a word that comes as it was stored needs no decoder. -/
def verified (stored : List (BitVec 64 × Bool)) (faults : List (Nat × BitVec 80)) : List Gw.Heard :=
  (stored.zip (received stored faults)).zipIdx.map (fun e =>
    if faults.any (fun f => decide (f.1 = e.2)) then Gw.hear e.1.2
    else { data := e.1.1.1, bad := e.1.1.2, fixed := 0, lost := false })

/-- The line CRC after the hop: that of the data as they come, adjusted by the contribution of the correction pattern. -/
def lineCheck (words : List Gw.Word80) (heard : List Gw.Heard) : Nat :=
  let came := words.map Gw.data
  let pattern := came.zipWith (fun d h => d ^^^ h.data) heard
  let crc := Hash.crc32c (came.flatMap bytes)
  if pattern.all (· == 0) then crc
  else crc ^^^ (Hash.crc32c (pattern.flatMap bytes) ^^^ Hash.crc32c (pattern.flatMap (fun _ => bytes 0)))

/-- The data that a hop hands on, the poison of its words, and how its new check differs from the CRC of that data. -/
def line (stored : List (BitVec 64 × Bool)) (faults : List (Nat × BitVec 80)) : List (BitVec 64 × Bool) × Nat :=
  let ws := received stored faults
  let hs := verified stored faults
  (hs.map (fun h => (h.data, h.bad)), lineCheck ws hs ^^^ Hash.crc32c (hs.flatMap (fun h => bytes h.data)))

/-- A word of a line is corrected in two bits (spec/14 R488; spec/16 R550). -/
def twoBits (bad : Nat → Bool) (faults : List (Nat × BitVec 80)) : Bool :=
  (faults.map (fun f => f.1)).eraseDups.any (fun k =>
    decide ((Gw.hear ((faults.filter (fun f => f.1 = k)).foldl (fun w f => w ^^^ f.2) (Gw.stored 0 (bad k)))).fixed = 2))

end Sys2Proof.Hop
end

