-- ==== Sys2Proof/Machine/TileMem.lean ====
section
/-! DEFINITION. Tile memory: the scratchpad, the L1 and their line checks (spec/08). -/
namespace Sys2Proof.Machine

/-! ## Places (R274, R275, R280) -/

def lineOf (a : Nat) : Nat := a / 64 * 64
def setOf (a : Nat) : Nat := bitsAt a 6 9
def State.split (s : State) (n : Nat) : Nat := s.rd (pgTlm n) Reg.tlmStateSplit
/-- Bytes of scratchpad under the split in effect. -/
def State.scratchSize (s : State) (n : Nat) : Nat := 262144 * s.split n
/-- Bank and line within the bank of a scratchpad address (R275). -/
def scratchBank (a : Nat) : Nat := 8 * (a / 2 ^ 18) + a / 64 % 8
def scratchIndex (a : Nat) : Nat := a / 512 % 512

/-- A set and way, or a scratchpad line, in the bad-line table. -/
def State.badLine (s : State) (n : Nat) (scr : Bool) (bank index : Nat) : Bool :=
  (List.range 16).any (fun i =>
    s.flag (pgTlm n) (Reg.tlmBadlineValid i) &&
    decide (s.rd (pgTlm n) (Reg.tlmBadlineScr i) = b2n scr) &&
    decide (s.rd (pgTlm n) (Reg.tlmBadlineBank i) = bank) &&
    decide (s.rd (pgTlm n) (Reg.tlmBadlineIndex i) = index))

/-- The ways of a set that are not retired, by bank. -/
def State.l1Ways (s : State) (n set : Nat) : List Nat :=
  (List.range 32).filter (fun b => 8 * s.split n ≤ b && !s.badLine n false b set && !(s.tile n).lostWays.contains (32 * set + b))

/-! ## Line CRCs (R296, R301)

A line carries a CRC-32C over its data. Since the CRC is linear, the state holds by how much it differs from the CRC of the data
as they stand: writing a line makes it 0, an inverted bit adds that bit's contribution. -/

def lineCrc (d : Line512) : BitVec 32 := BitVec.ofNat 32 (Hash.crc32c (leBytes 64 d.toNat))

/-- What an inverted bit of a line adds: a data bit its contribution to the CRC, a CRC bit itself. -/
def bitDiff (b : Nat) : BitVec 32 :=
  if b < 512 then lineCrc (1#512 <<< b) ^^^ lineCrc 0 else 1#32 <<< (b - 512)

def L1Line.sound (l : L1Line) : Bool := l.crcDiff == 0
def L1Line.flip (l : L1Line) (b : Nat) : L1Line :=
  { l with data := if b < 512 then l.data ^^^ (1#512 <<< b) else l.data, crcDiff := l.crcDiff ^^^ bitDiff b }

def Tile.scratchSound (t : Tile) (la : Nat) : Bool := SMap.getD t.scratchDiff la 0 == 0

/-! ## Bad-line table and mismatches (R296 to R301) -/

/-- Capture a mismatch in TLM_CRC_ERR unless one is held, and report it (R299, R300). -/
def State.crcCapture (s : State) (n kind bank index a code : Nat) : State :=
  let p := pgTlm n
  let s1 := if s.flag p Reg.tlmCrcErrValid then s
    else s.wrs p [(Reg.tlmCrcErrValid, 1), (Reg.tlmCrcErrKind, kind), (Reg.tlmCrcErrBank, bank),
      (Reg.tlmCrcErrIndex, index), (Reg.tlmCrcAddr, a)]
  s1.err p code (s1.rd p Reg.tlmCrcErrBank * 512 + s1.rd p Reg.tlmCrcErrIndex)

/-- Tender is to fence the tile at the next latch point (R297). -/
def State.askFence (s : State) (n : Nat) : State :=
  (s.updTile n (fun t => { t with fencePending := true })).err (pgTlm n) 0x54 0

/-- Enter a line in the bad-line table, or overflow it; a set and way that finds no room is retired all the same (R297, R300). -/
def State.addBadLine (s : State) (n : Nat) (scr : Bool) (bank index : Nat) : State :=
  let p := pgTlm n
  let k := s.rd p Reg.tlmStateBadlines
  if k < 16 then
    let s1 := s.wrs p [(Reg.tlmBadlineValid k, 1), (Reg.tlmBadlineScr k, b2n scr), (Reg.tlmBadlineBank k, bank),
      (Reg.tlmBadlineIndex k, index), (Reg.tlmStateBadlines, k + 1)]
    (s1.setCause p Reg.causeTlmBadline).err p 0x53
      (s1.rd p Reg.tlmCrcErrBank * 512 + s1.rd p Reg.tlmCrcErrIndex)
  else
    let s1 := if scr then s else s.updTile n (fun t => { t with lostWays := (32 * index + bank) :: t.lostWays })
    (s1.setCause p Reg.causeTlmBadlineFull).askFence n

/-- A scratchpad line mismatches: its words read poisoned until the boundary clears it (R297). -/
def State.scratchMismatch (s : State) (n a : Nat) : State :=
  let la := lineOf a
  let p := pgTlm n
  let known := s.badLine n true (scratchBank a) (scratchIndex a)
  let s1 := s.updTile n (fun t => { t with
    scratchDiff := SMap.del t.scratchDiff la, scratchStuck := la :: t.scratchStuck.filter (· ≠ la)
    scratchBad := (List.range 8).foldl (fun m k => SMap.ins m (la / 8 + k) true) t.scratchBad })
  let s2 := (((s1.bump p Reg.tlmErrcntScratch 1).setCause p Reg.causeTlmCrcScratch).crcCapture n
    (if known then 4 else 3) (scratchBank a) (scratchIndex a) la 0x52).consumeAt n
  if known then s2.askFence n else s2.addBadLine n true (scratchBank a) (scratchIndex a)

/-! ## Scratchpad bytes -/

def Tile.scratchByte (t : Tile) (a : Nat) : Byte := SMap.getD t.scratch a 0
def Tile.scratchNat (t : Tile) (a n : Nat) : Nat :=
  leNat ((List.range n).map (fun i => t.scratchByte (a + i)))
/-- Poison of any 8-byte word of an extent. -/
def Tile.scratchPois (t : Tile) (a n : Nat) : Bool :=
  (List.range (ceilDiv (a % 8 + n) 8)).any (fun i => SMap.getD t.scratchBad (a / 8 + i) false)

/-- Write bytes to the scratchpad. A write of a whole word replaces its poison, except in a line that
has mismatched; a partial write keeps it (R297, R747). -/
def Tile.scratchPut (t : Tile) (a : Nat) (bs : List Byte) (bad : Bool) : Tile :=
  let hi := a + bs.length
  let m := (List.range bs.length).foldl (fun m i => SMap.setD m (a + i) 0 (bs.getD i 0)) t.scratch
  let ws := (List.range (ceilDiv (a % 8 + bs.length) 8)).map (a / 8 + ·)
  { t with
    scratch := m
    scratchBad := ws.foldl (fun m w =>
      if t.scratchStuck.contains (8 * w / 64 * 64) then m
      else if a ≤ 8 * w ∧ 8 * w + 8 ≤ hi then SMap.setD m w false bad
      else if bad then SMap.ins m w true else m) t.scratchBad }

/-- Invert a stored bit of a scratchpad line. -/
def Tile.flipLine (t : Tile) (la b : Nat) : Tile :=
  { t with
    scratch := if b < 512 then SMap.setD t.scratch (la + b / 8) 0 (t.scratchByte (la + b / 8) ^^^ BitVec.ofNat 8 (2 ^ (b % 8)))
      else t.scratch
    scratchDiff := SMap.modD t.scratchDiff la 0 (fun d => d ^^^ bitDiff b) }

/-- An armed TLM_FLIP inverts one data bit of the scratchpad line just written (R299, R301). -/
def State.flipScratch (s : State) (n a : Nat) : State :=
  let p := pgTlm n
  if s.flag p Reg.tlmFlipArm && s.flag p Reg.tlmFlipTarget then
    (s.wr p Reg.tlmFlipArm 0).updTile n (fun t => t.flipLine (lineOf a) (s.rd p Reg.tlmFlipBit))
  else s

/-- The CRC check of one scratchpad line that is read (R297). -/
def State.checkScratch (s : State) (n la : Nat) : State :=
  if (s.tile n).scratchSound la then s else s.scratchMismatch n la

/-- A write to a line of the scratchpad: the new CRC is that of the merged line, then the old one is verified (R296). -/
def State.scratchStore (s : State) (n a : Nat) (bs : List Byte) (bad : Bool) : State :=
  ((s.checkScratch n (lineOf a)).updTile n (fun t => t.scratchPut a bs bad)).flipScratch n a

/-! ## L1 lines -/

/-- The line that holds an address, with its key. -/
def Tile.l1Find (t : Tile) (a : Nat) : Option (Nat × L1Line) :=
  t.l1.find? (fun e => e.2.addr = lineOf a)

def State.putL1 (s : State) (n k : Nat) (l : L1Line) : State :=
  s.updTile n (fun t => { t with l1 := SMap.ins t.l1 k l })
def State.delL1 (s : State) (n k : Nat) : State :=
  s.updTile n (fun t => { t with l1 := SMap.del t.l1 k })

/-- Dirty lines of the L1. -/
def Tile.dirtyCount (t : Tile) : Nat := (t.l1.filter (fun e => e.2.dirty != 0)).length

/-- The 8-bit mask of words with a byte of a mask. -/
def wordsOf (m : BitVec 64) : BitVec 8 :=
  BitVec.ofNat 8 (maskOf ((List.range 8).filter (fun k => m.extractLsb' (8 * k) 8 != 0)))

/-- A tile sends a request to the hearth, with the hint of the access that causes it (R287 to R289). -/
def State.ask (s : State) (n : Nat) (q : Ask) : State := s.updTile n (fun t => { t with asked := t.asked ++ [q] })

/-- A masked line performed where its address is homed: bytes, poison, hash and checkpoint marks; or
sent to the far device (R283, R318, R466, R543). A word written in part is verified before the merge (R747). -/
def State.homeLine (s : State) (n a : Nat) (data : Line512) (mask : BitVec 64) (pois : BitVec 8) (hash hint : Nat) :
    State :=
  let s1 := (s.addHash (s.hashSlot a) hash).ask n
    { addr := a, len := 64, write := true, mask := mask.setWidth 512 <<< (a % 512), hint := hint }
  if isFar a then
    (s1.updTile n (fun t => { t with farWrites := t.farWrites + 1 })).farSend a (leBytes 64 data.toNat)
      ((List.range 8).filter pois.getLsbD) mask.toNat 64 true (.store n)
  else
    let s2 := (List.range 8).foldl (fun s k => s.verifyPart (a + 8 * k) (mask.extractLsb' (8 * k) 8)) s1
    (((List.range 8).foldl (fun s k => if (mask.extractLsb' (8 * k) 8) = 0 then s else s.wroteWord (a + 8 * k))
      (s2.storeLine a data mask pois)).ckptWrite a).noteWork a

/-- A dirty line's CRC mismatches: its dirty words are poisoned and the stoke has an uncorrectable error (R297). -/
def State.dirtyMismatch (s : State) (n k : Nat) (l : L1Line) : State :=
  let p := pgTlm n
  ((((s.putL1 n k { l with poison := l.poison ||| wordsOf l.dirty, crcDiff := 0 }).bump p Reg.tlmErrcntDirty 1).setCause
    p Reg.causeTlmCrcDirty).crcCapture n 2 (k % 32) (k / 32) l.addr 0x51).consumeAt n

/-- Write a line back: clean afterwards, or gone (R283). -/
def State.writeBack (s : State) (n k : Nat) (keepIt : Bool) : State :=
  match SMap.find (s.tile n).l1 k with
  | none => s
  | some l0 =>
    let s0 := if l0.dirty != 0 && !l0.sound then s.dirtyMismatch n k l0 else s
    let l := (SMap.find (s0.tile n).l1 k).getD l0
    let s1 := if l.dirty = 0 then s0 else s0.homeLine n l.addr l.data l.dirty l.poison l.hash l.hint
    if keepIt then s1.putL1 n k { l with dirty := 0, hash := 0 } else s1.delL1 n k

/-- Write back every dirty line; the L1 is invalid afterwards, or only its clean lines are (R26, R129, R279). -/
def State.flushL1 (s : State) (n : Nat) : State :=
  (s.tile n).l1.foldl (fun s e => s.writeBack n e.1 false) s

/-- Invalidate the clean lines (R124). -/
def State.dropClean (s : State) (n : Nat) : State :=
  s.updTile n (fun t => { t with l1 := t.l1.filter (fun e => e.2.dirty != 0) })

/-- Bytes of an extent that a tile holds clean are valid no more: another agent has written them (R131). -/
def L1Line.dropIn (l : L1Line) (a n : Nat) : L1Line :=
  { l with valid := BitVec.ofNat 64 (maskOf ((List.range 64).filter (fun i =>
      l.valid.getLsbD i && (l.dirty.getLsbD i || decide (l.addr + i < a) || decide (a + n ≤ l.addr + i))))) }

/-- A planned transfer to an extent has ended: its event flag makes the data visible on the receiving tile without a fence
(R131). -/
def State.dropExtent (s : State) (n a len : Nat) : State :=
  s.updTile n (fun t => { t with l1 := (t.l1.map (fun e => (e.1, e.2.dropIn a len))).filter (fun e => e.2.valid != 0) })

/-- Write back and invalidate the line of an address (R155, R291). -/
def State.flushLine (s : State) (n a : Nat) : State :=
  match (s.tile n).l1Find a with
  | some (k, _) => s.writeBack n k false
  | none => s

/-! ## Ages, keep marks, victims (R284 to R286) -/

/-- Keep-marked lines of a set. -/
def Tile.kept (t : Tile) (set : Nat) : Nat :=
  (t.l1.filter (fun e => e.1 / 32 = set && e.2.keep)).length

/-- The keep limit of a set (R285). -/
def State.keepLimit (s : State) (n set : Nat) : Nat :=
  let w := 32 - 8 * s.split n
  let f := match s.rd (pgTlm n) Reg.tlmCtrlKeepLimit with
    | 0 => w / 4 | 1 => w / 2 | 2 => w * 3 / 4 | _ => w - 1
  f - (w - (s.l1Ways n set).length)

/-- A line after a fill or an allocating store, or after a hit (R284). -/
def State.hinted (s : State) (n : Nat) (l : L1Line) (hint : Nat) (hit : Bool) : L1Line :=
  let l := if hit then l else { l with hint := hint }
  if hint = 1 ∧ (l.keep ∨ (s.tile n).kept (setOf l.addr) < s.keepLimit n (setOf l.addr)) then
    { l with age := 0, keep := true }
  else if hint = 2 then (if hit then l else { l with age := 3 })
  else { l with age := if hit then 0 else 2 }

/-- Raise by one the ages of the ways that may be victims. -/
def Tile.ageSet (t : Tile) (keys : List Nat) : Tile :=
  { t with l1 := t.l1.map (fun e =>
      if keys.contains e.1 then (e.1, { e.2 with age := min 3 (e.2.age + 1) }) else e) }

/-- The victim of a set (R286): lowest way of age 3 that is neither retired nor keep-marked. -/
def Tile.l1Victim : Nat → Tile → List Nat → Option Nat × Tile
  | 0, t, _ => (none, t)
  | k + 1, t, keys =>
    if keys = [] then (none, t)
    else match keys.find? (fun k => match SMap.find t.l1 k with | some l => l.age = 3 | none => false) with
      | some b => (some b, t)
      | none => Tile.l1Victim k (t.ageSet keys) keys

/-- Make a way of a set free: an invalid way, or a victim written back first. None when no way can be
used: no L1 at this split, or every way of the set retired. -/
def State.l1Take (s : State) (n set : Nat) : Option Nat × State :=
  let keys := (s.l1Ways n set).map (fun b => 32 * set + b)
  match keys.find? (fun k => (SMap.find (s.tile n).l1 k).isNone) with
  | some k => (some k, s)
  | none =>
    let cand := keys.filter (fun k => match SMap.find (s.tile n).l1 k with | some l => !l.keep | none => false)
    let r := Tile.l1Victim 5 (s.tile n) cand
    match r.1 with
    | some k => (some k, (s.updTile n (fun _ => r.2)).writeBack n k false)
    | none => (none, s)

/-- A fresh line. -/
def freshLine (a : Nat) : L1Line :=
  { addr := a, valid := 0, dirty := 0, poison := 0, data := 0, age := 0, keep := false, hint := 0,
    hash := 0, crcDiff := 0 }

/-- An armed TLM_FLIP inverts one data bit of the L1 line just written (R299, R301). -/
def State.flipL1 (s : State) (n k : Nat) : State :=
  let p := pgTlm n
  if s.flag p Reg.tlmFlipArm && !s.flag p Reg.tlmFlipTarget then
    match SMap.find (s.tile n).l1 k with
    | some l => (s.wr p Reg.tlmFlipArm 0).putL1 n k (l.flip (s.rd p Reg.tlmFlipBit))
    | none => s
  else s

/-! ## Checks on a read (R297) -/

/-- A clean line mismatches: invalidated, to be filled again; a second time in the stoke its way retires. -/
def State.cleanMismatch (s : State) (n k : Nat) (l : L1Line) : State :=
  let p := pgTlm n
  let again := (s.tile n).refilled.contains k
  let s1 := ((((s.delL1 n k).updTile n (fun t => { t with refilled := k :: t.refilled })).bump
    p Reg.tlmErrcntClean 1).setCause p Reg.causeTlmCrcClean).crcCapture n (if again then 1 else 0)
      (k % 32) (k / 32) l.addr 0x50
  if again then s1.addBadLine n false (k % 32) (k / 32) else s1

/-- The CRC check of one L1 line that is read: a clean line goes, to be filled again, a dirty one is written back poisoned. -/
def State.checkL1 (s : State) (n la : Nat) : State :=
  match (s.tile n).l1Find la with
  | none => s
  | some (k, l) =>
    if l.sound then s
    else if l.dirty = 0 then s.cleanMismatch n k l else (s.dirtyMismatch n k l).writeBack n k true

/-- A fault inverts a stored bit of a line that the tile holds. -/
def State.upset (s : State) (n : Nat) (u : LineUpset) : State :=
  if u.glob then
    match (s.tile n).l1Find u.line with
    | some (k, l) => s.putL1 n k (l.flip u.bit)
    | none => s
  else s.updTile n (fun t => t.flipLine (lineOf u.line) u.bit)
def State.upsets (s : State) (n : Nat) (l : List LineUpset) : State := l.foldl (fun s u => s.upset n u) s

/-- The checks of every line touched, after the faults that have come by then. -/
def State.checkLines (s : State) (n : Nat) (glob : Bool) (ups : List LineUpset) (addrs : List Nat) : State :=
  (addrs.map lineOf).eraseDups.foldl (fun s la => if glob then s.checkL1 n la else s.checkScratch n la) (s.upsets n ups)

/-! ## Stores and loads through the L1 -/

/-- The byte mask of an access within its line. -/
def byteMask (a n : Nat) : BitVec 64 := BitVec.ofNat 64 ((2 ^ n - 1) * 2 ^ (a % 64))

/-- Put the low n bytes of a value into a line. -/
def putInLine (d : Line512) (a n v : Nat) : Line512 :=
  let sh := 8 * (a % 64)
  (d &&& ~~~(BitVec.ofNat 512 ((2 ^ (8 * n) - 1) * 2 ^ sh))) ||| BitVec.ofNat 512 (v % 2 ^ (8 * n) * 2 ^ sh)

/-- The low bits of a line at an address. -/
def getFromLine (d : Line512) (a n : Nat) : Nat := d.toNat / 2 ^ (8 * (a % 64)) % 2 ^ (8 * n)

/-- A word's poison mark after a store of n bytes of poison `bad` (R497, R747). -/
def storePois (p : BitVec 8) (a n : Nat) (bad : Bool) : BitVec 8 :=
  let m := BitVec.ofNat 8 (2 ^ (a % 64 / 8))
  if bad then p ||| m else if n = 8 then p &&& ~~~m else p

/-- The write-hash term of one lane's store (R542, R543). -/
def State.storeTerm (s : State) (a n v : Nat) (bad : Bool) : Nat :=
  hashTerm s.hashK (a / 8) (v % 2 ^ (8 * n) * 2 ^ (8 * (a % 8))) ((2 ^ n - 1) * 2 ^ (a % 8)) (b2n bad)

/-- One lane's store to a global address: into the L1, or at once where no way can hold it (R282, R287). `fresh` are the lines that
the L1 did not hold before the group access: the access allocates them, whatever lane comes first, and does not also hit them (R284). -/
def State.globalStore (s : State) (n : Nat) (fresh : List Nat) (a len v : Nat) (bad : Bool) (hint : Nat) : State :=
  let term := s.storeTerm a len v bad
  let m := byteMask a len
  match (s.tile n).l1Find a with
  | some (k, l) =>
    let l1 := { l with data := putInLine l.data a len v, valid := l.valid ||| m, dirty := l.dirty ||| m, crcDiff := 0,
                       poison := storePois l.poison a len bad, hash := (l.hash + term) % hashMod }
    (s.putL1 n k (if fresh.contains (lineOf a) then l1 else s.hinted n l1 hint true)).flipL1 n k
  | none =>
    match s.l1Take n (setOf a) with
    | (some k, s1) =>
      let l := { freshLine (lineOf a) with
        data := putInLine 0 a len v, valid := m, dirty := m, poison := storePois 0 a len bad, hash := term }
      (s1.putL1 n k (s1.hinted n l hint false)).flipL1 n k
    | (none, s1) =>
      s1.homeLine n (lineOf a) (putInLine 0 a len v) m (storePois 0 a len bad) term hint

/-- The lines of a group access that the L1 does not hold, and those that it holds. -/
def Tile.l1Fresh (t : Tile) (addrs : List Nat) : List Nat := ((addrs.map lineOf).eraseDups).filter (fun la => (t.l1Find la).isNone)
def Tile.l1Held (t : Tile) (addrs : List Nat) : List (Nat × L1Line) := ((addrs.map lineOf).eraseDups).filterMap t.l1Find

/-- Extra bank cycles of accesses to lines of the L1: lines in the busiest bank, which is the way, less one (R276, R299). -/
def Tile.l1Extra (t : Tile) (addrs : List Nat) : Nat :=
  let banks := (t.l1Held addrs).map (fun e => e.1 % 32)
  ((List.range 32).map (fun b => (banks.filter (fun x => decide (x = b))).length)).foldl max 1 - 1

/-- A load hits when every byte it reads is valid (R282). -/
def Tile.l1Hit (t : Tile) (a n : Nat) : Option (Nat × L1Line) :=
  match t.l1Find a with
  | some (k, l) => if byteMask a n &&& ~~~l.valid = 0 then some (k, l) else none
  | none => none

/-- Install a fill: only bytes that are not dirty are written, once the line they merge with has been verified (R282, R296). The line read is returned,
with no way to hold it the line of the fill alone. -/
def State.installFill (s : State) (n la : Nat) (data : Line512) (bad : BitVec 8) (diff : BitVec 32) (hint : Nat) : L1Line × State :=
  let merge := fun (l : L1Line) =>
    let bits := BitVec.ofNat 512 ((List.range 64).foldl
      (fun x i => if l.dirty.getLsbD i then x + 255 * 2 ^ (8 * i) else x) 0)
    let pois := BitVec.ofNat 8 (maskOf ((List.range 8).filter (fun k =>
      let d := l.dirty.extractLsb' (8 * k) 8
      (l.poison.getLsbD k && d != 0) || (bad.getLsbD k && d != 0xFF))))
    { l with data := (l.data &&& bits) ||| (data &&& ~~~bits), valid := BitVec.allOnes 64, poison := pois, crcDiff := diff }
  let s := s.checkL1 n la
  match (s.tile n).l1Find la with
  | some (k, l) =>
    let l' := s.hinted n (merge l) hint false
    (l', ((s.putL1 n k l').bump (pgTlm n) Reg.tlmMissCount 1).flipL1 n k)
  | none =>
    match s.l1Take n (setOf la) with
    | (some k, s1) =>
      let l' := s1.hinted n (merge (freshLine la)) hint false
      (l', ((s1.putL1 n k l').bump (pgTlm n) Reg.tlmMissCount 1).flipL1 n k)
    | (none, s1) => (merge (freshLine la), s1)

end Sys2Proof.Machine
end

