-- ==== Sys2Proof/Machine/MemInstr.lean ====
section
/-! DEFINITION. Loads, stores, atomics and hearth reductions (spec/04 R152 to R157; spec/08 R276,
R282 to R288, R293, R294; spec/14 R496, R497). -/
namespace Sys2Proof

/-! ## Fields of format M (R138) -/

def Issue.mData (i : Issue) : Nat := i.bitsOf 37 7
def Issue.mBase (i : Issue) : Nat := i.bitsOf 31 6
def Issue.mIndex (i : Issue) : Nat := i.bitsOf 24 7
def Issue.mHint (i : Issue) : Nat := i.bitsOf 22 2
def Issue.mGlob (i : Issue) : Bool := i.bitsOf 21 1 = 1
def Issue.mNoidx (i : Issue) : Bool := i.bitsOf 20 1 = 1
def Issue.mScale (i : Issue) : Nat := i.bitsOf 17 3
def Issue.mOff (i : Issue) : Int := toSigned 17 (i.bitsOf 0 17)

end Sys2Proof

namespace Sys2Proof.Machine

/-! ## Addresses and their checks (R152, R154) -/

/-- The index term of a lane. -/
def mIndexTerm (i : Issue) (x : Ctx) (j : Nat) : Int :=
  if i.mNoidx then 0
  else if isScalar i.mIndex then (x.sreg (opReg i.mIndex) : Int) * (2 ^ i.mScale : Nat)
  else toSigned 32 (x.vreg (opReg i.mIndex) j) * (2 ^ i.mScale : Nat)

/-- The address of a lane; `ord` for HRED.ADD.ORD, whose index term is 0. -/
def mAddr (i : Issue) (ord : Bool) (x : Ctx) (j : Nat) : Nat :=
  ofInt 64 ((x.sreg i.mBase : Int) + (if ord then 0 else mIndexTerm i x j) + i.mOff)

/-- An extent of scratchpad within the split, or of a mapped region (R154, R307, R456). -/
def State.reachable (s : State) (n : Nat) (glob : Bool) (a len : Nat) (write : Bool) : Bool :=
  if glob then
    if write then s.writable a len && !s.inCode a len else s.mapped a len
  else decide (a + len ≤ s.scratchSize n)

/-- The exception of a lane's access: MISALIGN, ADDR, or none. -/
def State.accessFault (s : State) (n : Nat) (glob : Bool) (a len : Nat) (write : Bool) : Option Nat :=
  if a % len ≠ 0 then some 0x11
  else if !s.reachable n glob a len write then some 0x12 else none

/-- The exception an instruction raises and the lanes that raise it: the lowest code (R148). -/
def worstOf (l : List (Nat × Option Nat)) : Option (Nat × BitVec 32) :=
  let codes := l.filterMap (fun e => e.2)
  match codes with
  | [] => none
  | c :: cs =>
    let k := cs.foldl min c
    some (k, maskLanes ((l.filter (fun e => e.2 = some k)).map (fun e => e.1)))

/-- The lanes that make an access: one access when DATA is a scalar (R144, R153). -/
def accessLanes (i : Issue) (en : BitVec 32) : List Nat :=
  if isScalar i.mData then (lanesOf en).take 1 else lanesOf en

/-- The lanes that raise a scalar access's exception are the enabled lanes. -/
def faultLanes (i : Issue) (en m : BitVec 32) : BitVec 32 := if isScalar i.mData then en else m

/-- Fields of format M every memory instruction checks (R138, R153). -/
def memLegal (i : Issue) : Bool :=
  i.mHint ≤ 2 && (!isScalar i.mData || i.mNoidx || isScalar i.mIndex)

/-- Extra bank cycles of a scratchpad access: lines in the busiest bank, less one (R276, R299). -/
def bankExtra (addrs : List Nat) : Nat :=
  let lines := (addrs.map lineOf).eraseDups
  ((List.range 32).map (fun b => (lines.filter (fun a => scratchBank a = b)).length)).foldl max 1 - 1

/-! ## Loads -/

/-- The bytes of a register a load of n bytes fills, as poison bits. -/
def loadPois (n : Nat) (bad : Bool) : Nat := if bad then 2 ^ n - 1 else 0

/-- Place loaded data: a scalar, a vector register or a pair, zero-extended (R153). -/
def Ctx.loaded (x : Ctx) (c : LoadAcc) (v : Nat) (bad : Bool) : Ctx :=
  let p := loadPois c.size bad
  if c.lane = 32 then x.putS c.reg v p
  else if c.size = 8 then
    (x.putV c.reg c.lane (v % 2 ^ 32) (p % 16)).putV (c.reg + 1) c.lane (v / 2 ^ 32) (p / 16)
  else x.putV c.reg c.lane v p

/-- Deliver one access's data to its context; a poisoned word placed in a register is consumed (R496). -/
def State.deliver (s : State) (n c : Nat) (acc : LoadAcc) (v : Nat) (bad : Bool) : State :=
  (if bad then s.consumeAt n else s).updCtx n c (fun x => x.loaded acc v bad)

def ldLegal (i : Issue) : Bool :=
  memLegal i && i.type ≤ 3 && (isScalar i.mData || i.type ≠ 3 || i.mData % 2 = 0)

/-- The accesses of a load. -/
def loadAccs (i : Issue) (x : Ctx) (en : BitVec 32) : List LoadAcc :=
  (accessLanes i en).map (fun j => { reg := opReg i.mData, lane := if isScalar i.mData then 32 else j, size := 2 ^ i.type, addr := mAddr i false x j })

/-- A scratchpad load. -/
def State.loadScratch (s : State) (i : Issue) (accs : List LoadAcc) : State :=
  let addrs := accs.map (fun a => a.addr)
  let s1 := (s.checkLines i.tile false i.ups addrs).bump (pgTlm i.tile) Reg.tlmConflictCycles (bankExtra addrs)
  accs.foldl (fun s a =>
    let t := s.tile i.tile
    s.deliver i.tile i.ctx a (t.scratchNat a.addr a.size) (t.scratchPois a.addr a.size || i.parity)) s1

/-- A global load: accesses that hit are served, the others wait for their fills (R282, R284). -/
def State.loadGlobal (s : State) (i : Issue) (hint : Nat) (accs : List LoadAcc) : State :=
  let s1 := s.checkLines i.tile true i.ups (accs.map (fun a => a.addr))
  let t := s1.tile i.tile
  let hits := accs.filter (fun a => (t.l1Hit a.addr a.size).isSome)
  let misses := accs.filter (fun a => (t.l1Hit a.addr a.size).isNone)
  let s2 := hits.foldl (fun s a =>
    match (s.tile i.tile).l1Hit a.addr a.size with
    | some (k, l) => (s.deliver i.tile i.ctx a (getFromLine l.data a.addr a.size)
        (l.poison.getLsbD (a.addr % 64 / 8) || i.parity)).putL1 i.tile k (s.hinted i.tile l hint true)
    | none => s) s1
  let s3 := (s2.bump (pgTlm i.tile) Reg.tlmHitCount ((hits.map (fun a => lineOf a.addr)).eraseDups.length)).bump (pgTlm i.tile)
    Reg.tlmConflictCycles (t.l1Extra (hits.map (fun a => a.addr)))
  if misses = [] then s3.past i
  else
    let s4 := (misses.map (fun a => lineOf a.addr)).eraseDups.foldl (fun s la =>
      let s1 := s.ask i.tile { addr := la, len := 64, write := false, mask := 0, hint := hint }
      if isFar la then s1.farSend la [] [] 0 64 false (.fill i.tile) else s1) s3
    s4.updCtx i.tile i.ctx (fun x => x.pastWait i.lane (.fill misses hint))

/-- The frame of a memory instruction after its legality: no access with no enabled lane; the
exception of its accesses (R148, R154); otherwise its effect. -/
def State.memIssue (s : State) (c : Instr) (i : Issue) (legal : Bool) (ord write : Bool) (len : Nat)
    (extra : Nat → Bool) (effect : State → Ctx → BitVec 32 → State) : State :=
  s.issueAs c i (fun _ => legal) (fun s x u en =>
    if en = 0 then s.past i
    else
      match worstOf ((accessLanes i en).map (fun j =>
        let a := mAddr i ord x j
        (j, if a % len ≠ 0 then some 0x11
            else if extra a then some 0x12
            else s.accessFault i.tile i.mGlob a len write))) with
      | some (code, m) => s.raiseAt i x u code (faultLanes i en m)
      | none => effect (s.spoil i) x en)

/-- LD (R149, R153, R282). -/
def execLd (i : Issue) (s : State) : Host.Outcome State Fault Refusal :=
  answer (s.memIssue (.ld i) i (ldLegal i) false false (2 ^ i.type) (fun _ => false) (fun s x en =>
    if i.mGlob then s.loadGlobal i i.mHint (loadAccs i x en)
    else (s.loadScratch i (loadAccs i x en)).past i))

/-- The hint of a load that waits for a line. -/
def Tile.waitsFor (t : Tile) (la : Nat) : Option Nat :=
  t.ctxs.findSome? (fun e => e.2.subs.findSome? (fun u => match u.wait with
    | .fill accs hint => if accs.any (fun a => lineOf a.addr = la) then some hint else none
    | _ => none))

/-- Complete the accesses of one context that wait for a line. -/
def State.fillCtx (s : State) (n c : Nat) (l : L1Line) : State :=
  match s.ctx n c with
  | none => s
  | some x =>
    let got := x.subs.flatMap (fun u => match u.wait with
      | .fill accs _ => accs.filter (fun a => lineOf a.addr = l.addr)
      | _ => [])
    let s1 := got.foldl (fun s a => s.deliver n c a (getFromLine l.data a.addr a.size)
      (l.poison.getLsbD (a.addr % 64 / 8))) s
    s1.updCtx n c (fun x => ({ x with subs := x.subs.map (fun u => match u.wait with
        | .fill accs h =>
          let r := accs.filter (fun a => lineOf a.addr ≠ l.addr)
          { u with wait := if r = [] then .ready else .fill r h }
        | _ => u) } : Ctx).settle)

/-- Words of a line that were lost on their way to the tile (spec/10 R380). -/
def Tile.lostWords (t : Tile) (la : Nat) : BitVec 8 :=
  BitVec.ofNat 8 (maskOf ((List.range 8).filter (fun k => t.lostIn.contains (la / 8 + k))))

/-- The line that arrives, from the hearth or a far line already received: its data, the poison of its words, and the difference of its
new line CRC. `faults` are bits of its words inverted on the way, `lost` words already lost (R296; spec/14 R491, R492). -/
def State.arriving (s : State) (la : Nat) (faults : List (Nat × BitVec 80)) (lost : BitVec 8) :
    Option (Line512 × BitVec 8 × BitVec 32) :=
  let got := if isFar la then (SMap.find s.hub.farBuf la).map (fun l => (l.data, l.bad))
    else if isNear la && s.hub.wiping then none
    else some (BitVec.ofNat 512 (s.natAt la 64),
      BitVec.ofNat 8 (maskOf ((List.range 8).filter (fun k => s.badAt (la + 8 * k)))))
  got.map (fun e =>
    let h := Hop.line ((List.range 8).map (fun k => (e.1.extractLsb' (64 * k) 64, e.2.getLsbD k || lost.getLsbD k))) faults
    (BitVec.ofNat 512 (leNat (h.1.flatMap (fun w => Hop.bytes w.1))),
      BitVec.ofNat 8 (maskOf ((List.range 8).filter (fun k => (h.1.getD k (0, false)).2))), BitVec.ofNat 32 h.2))

/-- L1_FILL_RETURN: a line a load waits for arrives; `words` are bits of its guarded words that are inverted after the partition
(R282, R296). During a near-memory wipe no near line arrives (R411). -/
def execL1FillReturn (tile : Fin 160) (addr : BitVec 64) (words : List (Fin 8 × BitVec 80)) (s : State) :
    Host.Outcome State Fault Refusal :=
  let la := lineOf addr.toNat
  match (s.tile tile).waitsFor la, s.arriving la (words.map (fun f => (f.1.val, f.2))) ((s.tile tile).lostWords la) with
  | some hint, some (d, bad, diff) =>
    let fs := words.map (fun f => (f.1.val, f.2))
    let s := if Hop.twoBits (fun k => s.badAt (la + 8 * k)) fs then s.logFault 1 else s
    let r := (s.updTile tile (fun t => { t with lostIn := t.lostIn.filter (fun w => decide (w / 8 ≠ la / 64)) })).installFill tile la d bad diff hint
    let s1 := { r.2 with hub := { r.2.hub with farBuf := SMap.del r.2.hub.farBuf la } }
    answer (((s1.tile tile).ctxs.map (fun e => e.1)).foldl (fun s c => s.fillCtx tile c r.1) s1)
  | _, _ => answer s

/-! ## Stores -/

def stLegal (i : Issue) : Bool := ldLegal i

/-- The value and poison a lane stores. -/
def storeVal (i : Issue) (x : Ctx) (j len : Nat) : Nat × Bool :=
  (x.opVal (if len = 8 then 64 else 32) i.mData j % 2 ^ (8 * len), x.opPois len i.mData j || i.parity)

/-- The lines a global store would make dirty. -/
def Tile.newDirty (t : Tile) (addrs : List Nat) : Nat :=
  ((addrs.map lineOf).eraseDups.filter (fun la => match t.l1Find la with
    | some (_, l) => l.dirty == 0 | none => true)).length

/-- The dirty-line limit (R293). -/
def State.dirtyLimit (s : State) (n : Nat) : Nat :=
  min (s.rd (pgTlm n) Reg.tlmCleanDirtyMax) (if (s.tile n).slow then 4096 else 8192)

/-- A store waits at the dirty-line limit (R293): the lines it would dirty do not fit under the limit.
A store that alone exceeds the limit issues once no line is dirty (notes/assumptions/13.md). -/
def State.dirtyWait (s : State) (n : Nat) (addrs : List Nat) : Bool :=
  let new := (s.tile n).newDirty addrs
  let cnt := (s.tile n).dirtyCount
  let lim := s.dirtyLimit n
  decide (new ≠ 0) && (decide (lim ≤ cnt) || (decide (lim < cnt + new) && decide (cnt ≠ 0)))

/-- A store waits: cycles counted, the cause shown (R293, R299). -/
def State.storeWaits (s : State) (n : Nat) : State :=
  (s.noteCycles (pgTlm n) Reg.tlmDirtyWaitCycles).setCause (pgTlm n) Reg.causeTlmDirtyLimit

/-- Lines that a store hits count as hits and take bank cycles (R276, R299). -/
def State.storeHits (s : State) (n : Nat) (addrs : List Nat) : State :=
  (s.bump (pgTlm n) Reg.tlmHitCount ((s.tile n).l1Held addrs).length).bump (pgTlm n) Reg.tlmConflictCycles ((s.tile n).l1Extra addrs)

/-- The lines that a store merges with are verified. A clean line that mismatches is filled again before the store merges into it
(R296, R297); a far line, or a near one during a wipe, has no data to fill at once, and the store allocates it afresh. -/
def State.checkStore (s : State) (n : Nat) (ups : List LineUpset) (addrs : List Nat) : State :=
  let s0 := s.upsets n ups
  let s1 := s0.checkLines n true [] addrs
  (((s0.tile n).l1Held addrs).filter (fun e => !e.2.sound && e.2.dirty == 0)).foldl (fun s e =>
    if isFar e.2.addr then s
    else match s.arriving e.2.addr [] 0 with
      | some (d, bad, diff) => (s.installFill n e.2.addr d bad diff e.2.hint).2
      | none => s) s1

/-- ST: lanes in ascending order, so the highest lane's value remains (R107, R149, R282, R287, R293). -/
def execSt (i : Issue) (s : State) : Host.Outcome State Fault Refusal :=
  let len := 2 ^ i.type
  answer (s.memIssue (.st i) i (stLegal i) false true len (fun _ => false) (fun s x en =>
    let lanes := accessLanes i en
    let addrs := lanes.map (mAddr i false x)
    if i.mGlob then
      let s1 := s.checkStore i.tile i.ups addrs
      if s1.split i.tile < 4 && s1.dirtyWait i.tile addrs then
        s1.storeWaits i.tile
      else (lanes.foldl (fun s j =>
        let v := storeVal i x j len
        s.globalStore i.tile ((s1.tile i.tile).l1Fresh addrs) (mAddr i false x j) len v.1 v.2 i.mHint) (s1.storeHits i.tile addrs)).past i
    else
      let s1 := (s.checkLines i.tile false i.ups addrs).bump (pgTlm i.tile) Reg.tlmConflictCycles (bankExtra addrs)
      (lanes.foldl (fun s j =>
        let v := storeVal i x j len
        s.scratchStore i.tile (mAddr i false x j) (leBytes len v.1) v.2) s1).past i))

/-- The next dirty lines the cleaner takes, from its pointer (R294). -/
def Tile.cleanNext (t : Tile) : List Nat :=
  let d := (t.l1.filter (fun e => e.2.dirty != 0)).map (fun e => e.1)
  ((d.filter (fun k => t.cleanPtr ≤ k / 32)) ++ (d.filter (fun k => k / 32 < t.cleanPtr))).take 8

/-- DIRTY_LINE_CLEANER: up to 8 dirty lines are written back and stay valid, while the dirty count is
at least CLEAN_AT (R294). -/
def execDirtyLineCleaner (tile : Fin 160) (s : State) : Host.Outcome State Fault Refusal :=
  if (s.tile tile).dirtyCount < s.rd (pgTlm tile) Reg.tlmCleanCleanAt then answer s
  else
    let ks := (s.tile tile).cleanNext
    answer ((ks.foldl (fun s k => s.writeBack tile k true) s).updTile tile (fun t =>
      { t with cleanPtr := match ks.getLast? with | some k => k / 32 | none => t.cleanPtr }))

/-! ## Atomics and hearth reductions (R155 to R157, R330, R335) -/

def atomSize (t : Nat) : Nat := tyWidth t / 8

/-- The register run of DATA for ATOM.CAS (R156). -/
def casLegal (i : Issue) : Bool :=
  if !isScalar i.mData && tyWide i.type then i.mData % 4 = 0 && opReg i.mData + 3 ≤ 63
  else opReg i.mData + 1 ≤ 63

def atomLegal (i : Issue) (top : Nat) : Bool :=
  memLegal i && i.type ≤ top && (isScalar i.mData || !tyWide i.type || i.mData % 2 = 0)

/-- The register of a CAS's new value. -/
def casNew (i : Issue) : Nat := i.mData + (if !isScalar i.mData && tyWide i.type then 2 else 1)

/-- One lane's operation. -/
def redOp (i : Issue) (op : Nat) (x : Ctx) (j : Nat) : RedOp :=
  let w := tyWidth i.type
  let o := if isScalar i.mIndex then x.sreg (opReg i.mIndex) else x.vreg (opReg i.mIndex) j
  { lane := if isScalar i.mData then 32 else j
    addr := mAddr i (op == 0x13) x j
    val := x.opVal w i.mData j
    new := if op = 0x0A then x.opVal w (casNew i) j else 0
    bad := x.opPois (w / 8) i.mData j || (op == 0x0A && x.opPois (w / 8) (casNew i) j) || i.parity
    reg := opReg i.mData
    rank := o % 2 ^ 16
    count := bitsAt o 16 16 + 1 }

/-- Send operations to their partitions, one request per 64-byte sector (R331), after the matching L1
lines are written back and invalidated (R155). -/
def State.sendReds (s : State) (i : Issue) (op : Nat) (ops : List RedOp) : State × List Nat :=
  let s0 := ops.foldl (fun s o => s.flushLine i.tile o.addr) s
  (ops.map (fun o => lineOf o.addr)).eraseDups.foldl (fun (r : State × List Nat) la =>
    let q : RedReq :=
      { id := r.1.hub.nextReq, part := r.1.partOf la, tile := i.tile, ctx := i.ctx
        serial := SMap.getD (r.1.tile i.tile).serials i.ctx 0, op := op, type := i.type, hint := i.mHint
        ops := ops.filter (fun o => lineOf o.addr = la) }
    ({ r.1 with hub := { r.1.hub with redSent := r.1.hub.redSent ++ [q], nextReq := r.1.hub.nextReq + 1 } },
      r.2 ++ [q.id])) (s0, [])

/-- An atomic on scratchpad, lane by lane (R157, R330). Its flags enter the context's word (R230). -/
def State.atomScratch (s : State) (i : Issue) (o : RedOp) (op : Nat) : State :=
  let w := tyWidth i.type
  let t := s.tile i.tile
  let old := t.scratchNat o.addr (w / 8)
  let tb := t.scratchPois o.addr (w / 8)
  let r := redValue op i.type old o.val o.new
  let s1 := if o.bad || tb then s.consumeAt i.tile else s
  let s2 := match r.1 with
    | some v => s1.scratchStore i.tile o.addr (leBytes (w / 8) v) (o.bad || (tb && op != 9 && op != 10))
    | none => s1
  s2.updCtx i.tile i.ctx (fun x =>
    (if o.lane = 32 then x.putScalar i.type o.reg old tb
     else x.putLane (regWidth i.type) o.reg o.lane old tb).orFlags (r.2 % 32))

/-- An ATOM of an OP code: on scratchpad at once; on a global word at its partition, the subgroup
waiting for the old values. A far-tier word has no partition: ADDR (notes/assumptions/14.md). -/
def State.atom (s : State) (c : Instr) (i : Issue) (op top : Nat) (legal : Bool) : State :=
  s.memIssue c i (atomLegal i top && legal) false true (atomSize i.type) (fun a => i.mGlob && isFar a) (fun s x en =>
    let ops := (accessLanes i en).map (redOp i op x)
    let s := s.vIssue i.tile
    if i.mGlob then
      let r := s.sendReds i op ops
      r.1.updCtx i.tile i.ctx (fun x =>
        (({ x with reds := x.reds + ops.length } : Ctx)).pastWait i.lane (.atom r.2))
    else
      (ops.foldl (fun s o => s.atomScratch i o op)
        ((s.checkLines i.tile false i.ups (ops.map (fun o => o.addr))).bump (pgTlm i.tile)
          Reg.tlmConflictCycles (bankExtra (ops.map (fun o => o.addr))))).past i)

def execAtomAdd (i : Issue) (s : State) : Host.Outcome State Fault Refusal := answer (s.atom (.atomAdd i) i 0x03 5 true)
def execAtomMin (i : Issue) (s : State) : Host.Outcome State Fault Refusal := answer (s.atom (.atomMin i) i 0x04 5 true)
def execAtomMax (i : Issue) (s : State) : Host.Outcome State Fault Refusal := answer (s.atom (.atomMax i) i 0x05 5 true)
def execAtomAnd (i : Issue) (s : State) : Host.Outcome State Fault Refusal := answer (s.atom (.atomAnd i) i 0x06 5 true)
def execAtomOr (i : Issue) (s : State) : Host.Outcome State Fault Refusal := answer (s.atom (.atomOr i) i 0x07 5 true)
def execAtomXor (i : Issue) (s : State) : Host.Outcome State Fault Refusal := answer (s.atom (.atomXor i) i 0x08 5 true)
def execAtomXchg (i : Issue) (s : State) : Host.Outcome State Fault Refusal := answer (s.atom (.atomXchg i) i 0x09 5 true)
def execAtomCas (i : Issue) (s : State) : Host.Outcome State Fault Refusal :=
  answer (s.atom (.atomCas i) i 0x0A 5 (casLegal i))

/-- An HRED of an OP code: sent to the partitions, acknowledged later (R157, R330). An unordered
floating add is a V instruction (R149). -/
def State.hred (s : State) (c : Instr) (i : Issue) (op top : Nat) (legal : Bool) : State :=
  s.memIssue c i (atomLegal i top && legal) (op == 0x13) true (atomSize i.type)
    (fun a => !i.mGlob || isFar a) (fun s x en =>
    let ops := (accessLanes i en).map (redOp i op x)
    let s := if op = 0x10 ∧ 4 ≤ i.type then s.vIssue i.tile else s
    ((s.sendReds i op ops).1.updCtx i.tile i.ctx (fun x => { x with reds := x.reds + ops.length })).past i)

def execHredAdd (i : Issue) (s : State) : Host.Outcome State Fault Refusal := answer (s.hred (.hredAdd i) i 0x10 5 true)
def execHredMin (i : Issue) (s : State) : Host.Outcome State Fault Refusal := answer (s.hred (.hredMin i) i 0x11 5 true)
def execHredMax (i : Issue) (s : State) : Host.Outcome State Fault Refusal := answer (s.hred (.hredMax i) i 0x12 5 true)
def execHredAnd (i : Issue) (s : State) : Host.Outcome State Fault Refusal := answer (s.hred (.hredAnd i) i 0x14 3 true)
def execHredOr (i : Issue) (s : State) : Host.Outcome State Fault Refusal := answer (s.hred (.hredOr i) i 0x15 3 true)
def execHredXor (i : Issue) (s : State) : Host.Outcome State Fault Refusal := answer (s.hred (.hredXor i) i 0x16 3 true)
/-- HRED.ADD.ORD: TYPE 4 or 5, NOIDX 0, SCALE 0; INDEX carries rank and count (R157, R335). -/
def execHredAddOrd (i : Issue) (s : State) : Host.Outcome State Fault Refusal :=
  answer (s.hred (.hredAddOrd i) i 0x13 5 (4 ≤ i.type && !i.mNoidx && i.mScale = 0))

end Sys2Proof.Machine
end

