-- ==== Sys2Proof/Machine/Desc.lean ====
section
/-! DEFINITION. What the descriptor-path operations share: reading a descriptor, extents, reading and
writing rows in any space (spec/04 R161 to R163; spec/08 R289, R291; spec/14 R495; spec/16 R543). -/
namespace Sys2Proof.Machine

/-! ## Rows in scratchpad and global memory -/

/-- A byte at an address of a space, with its poison; a word lost on its way to the tile is poisoned (spec/10 R380). -/
def State.readAt (s : State) (n : Nat) (glob : Bool) (far : FarBytes) (a : Nat) : Byte × Bool :=
  if !glob then ((s.tile n).scratchByte a, SMap.getD (s.tile n).scratchBad (a / 8) false)
  else if isFar a then
    match far.find? (fun e => e.1.toNat = a) with
    | some e => e.2
    | none => (0, true)
  else (s.byteAt a, s.badAt a || (s.tile n).lostIn.contains (a / 8))

/-- The bytes of an extent. -/
def State.readRow (s : State) (n : Nat) (glob : Bool) (far : FarBytes) (a len : Nat) : List (Byte × Bool) :=
  (List.range len).map (fun i => s.readAt n glob far (a + i))

/-- The number a row of bytes spells, and its poison. -/
def rowNat (l : List (Byte × Bool)) : Nat := leNat (l.map (fun b => b.1))
def rowBad (l : List (Byte × Bool)) : Bool := l.any (fun b => b.2)

/-- A read of scratchpad lines verifies their CRCs (R296, R297). -/
def State.checkExtent (s : State) (n : Nat) (glob : Bool) (a len : Nat) : State :=
  if glob then s
  else (((s.tile n).scratchDiff.map (fun e => e.1)).filter (fun la => a < la + 64 && la < a + len)).foldl
    (fun s la => s.checkScratch n la) s

/-- Write one whole word at its home: hash, checkpoint marks, poison (R466, R495, R543). -/
def State.homeWord (s : State) (a v : Nat) (bad : Bool) : State :=
  (((((s.setBytes a (leBytes 8 v)).setBad (a / 8) bad).wroteWord a).ckptWrite a).noteWork a).addHash (s.hashSlot a)
    (hashTerm s.hashK (a / 8) v 0xFF (b2n bad))

/-- Write a word that a descriptor-path operation, an epilogue or a copy writes: the tile first writes
back and invalidates its own line (R291); a far word is sent to its device (R543), and the operation's token waits for it. -/
def State.writeWordAt (s : State) (n op : Nat) (glob : Bool) (a v : Nat) (bad : Bool) : State :=
  if !glob then s.scratchStore n a (leBytes 8 v) bad
  else
    let s1 := s.flushLine n a
    if isFar a then
      ((s1.updTile n (fun t => { t with
          farWrites := t.farWrites + 1, opWrites := SMap.modD t.opWrites op 0 (fun k => k + 1) })).farSend a (leBytes 8 v) (if bad then [0] else []) 0xFF 8 true
        (.result n op)).addHash (s1.hashSlot a) (hashTerm s1.hashK (a / 8) v 0xFF (b2n bad))
    else s1.homeWord a v bad

/-- The parts of an extent that lie in one row each: first byte and length. -/
def rowPieces (a len : Nat) : List (Nat × Nat) :=
  (List.range (ceilDiv (a % 512 + len) 512)).map (fun i =>
    let lo := max a (a / 512 * 512 + 512 * i)
    (lo, min (a + len) (a / 512 * 512 + 512 * (i + 1)) - lo))

/-- Global rows are requested with the hint of their descriptor (R289). -/
def State.askRow (s : State) (n a len : Nat) (write : Bool) (hint : Nat) : State :=
  (rowPieces a len).foldl (fun s e =>
    s.ask n { addr := e.1, len := e.2, write := write, mask := if write then rowMask e.1 e.2 else 0, hint := hint }) s

/-- Write a row of bytes, whole words; a word with a poisoned byte is poisoned. -/
def State.writeRow (s : State) (n op : Nat) (glob : Bool) (hint a : Nat) (l : List (Byte × Bool)) : State :=
  (List.range (l.length / 8)).foldl (fun s k =>
    let w := (l.drop (8 * k)).take 8
    s.writeWordAt n op glob (a + 8 * k) (rowNat w) (rowBad w)) (if glob then s.askRow n a l.length true hint else s)

/-- Split a list of elements of es bytes into bytes with their poison. -/
def elemBytes (es : Nat) (l : List (Nat × Bool)) : List (Byte × Bool) :=
  l.flatMap (fun e => (leBytes es e.1).map (fun b => (b, e.2)))

/-! ## Descriptors (R161, R162) -/

/-- The descriptor's eight words. -/
def State.descWords (s : State) (n a : Nat) : List Nat :=
  (List.range 8).map (fun k => (s.tile n).scratchNat (a + 8 * k) 8)

/-- A field of a descriptor word. -/
def dfld (ws : List Nat) (k lo w : Nat) : Nat := bitsAt (ws.getD k 0) lo w

/-- Rows of an operand: first address, stride, rows, bytes per row; write or read; the hint of its requests. -/
structure Extent where
  glob : Bool
  addr : Nat
  stride : Nat
  rows : Nat
  len : Nat
  write : Bool
  hint : Nat
  deriving DecidableEq, Repr

/-- The rows of an operand in global memory are requested (R289). -/
def State.askReads (s : State) (n : Nat) (l : List Extent) : State :=
  (l.filter (fun e => e.glob && !e.write)).foldl (fun s e =>
    (List.range e.rows).foldl (fun s r => s.askRow n (e.addr + r * e.stride) e.len false e.hint) s) s

/-- The rows of an operation have been read: what was lost on their way counts no longer. -/
def Tile.gotRows (t : Tile) (l : List Extent) : Tile :=
  { t with lostIn := t.lostIn.filter (fun w => !l.any (fun e => e.glob && (List.range e.rows).any (fun r =>
      decide (e.addr + r * e.stride < 8 * w + 8) && decide (8 * w < e.addr + r * e.stride + e.len)))) }

/-- Every row of an extent is reachable (R154, R161). -/
def State.extentOk (s : State) (n : Nat) (e : Extent) : Bool :=
  (List.range e.rows).all (fun r => s.reachable n e.glob (e.addr + r * e.stride) e.len e.write)

/-- Two extents of one space share a byte (R184, R355). -/
def Extent.meets (a b : Extent) : Bool :=
  a.glob == b.glob && (List.range a.rows).any (fun i => (List.range b.rows).any (fun j =>
    decide (a.addr + i * a.stride < b.addr + j * b.stride + b.len) &&
    decide (b.addr + j * b.stride < a.addr + i * a.stride + a.len)))

/-- The address named by SDESC, and the token. -/
def sdesc (i : Issue) : Nat := i.bitsOf 38 6
def tokenOf (i : Issue) : Nat := i.bitsOf 34 4

/-- The frame of a format D instruction: reserved bits; a token still pending, or no room, keeps it from
issuing (R162, R185, R264); a misplaced descriptor; fields not valid; extents (R148, R161). -/
def State.descIssue (s : State) (c : Instr) (i : Issue) (legal : Bool) (room : Bool) (valid : List Nat → Bool)
    (extents : List Nat → List Extent) (start : State → Ctx → List Nat → Nat → State) : State :=
  s.issueAs c i (fun _ => legal && i.bitsOf 0 34 = 0) (fun s x u en =>
    if en = 0 then s.past i
    else if (s.tile i.tile).tokBusy (tokenOf i) || !room then s
    else
      let a := x.sreg (sdesc i)
      if a % 64 ≠ 0 then s.raiseAt i x u 0x11 en
      else if !s.reachable i.tile false a 64 false then s.raiseAt i x u 0x12 en
      else
        let s1 := s.checkLines i.tile false i.ups [a]
        let ws := s1.descWords i.tile a
        if !valid ws then s1.raiseAt i x u 0x10 en
        else if !(extents ws).all (s1.extentOk i.tile) then s1.raiseAt i x u 0x12 en
        else
          let op := (s1.tile i.tile).nextOp
          ((start ((s1.askReads i.tile (extents ws)).spoil i) x ws op).updTile i.tile (fun t =>
            { t with ops := t.ops ++ [(op, tokenOf i)], nextOp := op + 1 })).past i)

end Sys2Proof.Machine
end

