-- ==== Sys2Proof/Machine/Collect.lean ====
section
/-! DEFINITION. Collectives, permutations, reductions, scans and the ember generator
(spec/04 R164 to R167; spec/07 R248 to R256; spec/15 R524, R525). -/
namespace Sys2Proof.Machine

/-! ## Votes (R149, R150, R166) -/

def voteLegal (i : Issue) : Bool :=
  !i.imm && i.type = 1 && i.mod ≤ 2 && i.srcA ≤ 7 && i.resvR = 0 && i.rnd = 0 && !i.sat &&
  (if i.mod = 2 then isScalar i.dst else 1 ≤ i.dst && i.dst ≤ 7)

/-- ANY and ALL write every enabled lane's bit; BALLOT writes a scalar at every issue (R144, R166). -/
def voteCtx (i : Issue) (en : BitVec 32) (x : Ctx) : Ctx :=
  let q := x.qreg i.srcA &&& en
  if i.mod = 2 then x.putS (opReg i.dst) q.toNat 0
  else
    let b := if i.mod = 0 then q != 0 else decide (q = en)
    (lanesOf en).foldl (fun y j => y.putQbit i.dst j b) x

def execVecVote (i : Issue) (s : State) : Host.Outcome State Fault Refusal :=
  answer (s.issueAs (.vecVote i) i (fun _ => voteLegal i)
    (fun s _ _ en => (s.updCtx i.tile i.ctx (voteCtx i en)).past i))

/-! ## Permutations (R165, R253 to R256) -/

/-- The fill value of a TYPE (R256). -/
def State.fillOf (s : State) (n t : Nat) : Nat := s.rd (pgVec n) Reg.vecFill % 2 ^ regWidth t

/-- Write each enabled lane from the lane an index function names, or from the fill value. -/
def permCtx (i : Issue) (fill : Nat) (en : BitVec 32) (idx : Nat → Option Nat) (x : Ctx) : Ctx :=
  let w := regWidth i.type
  (lanesOf en).foldl (fun y j =>
    match idx j with
    | some k => y.putLane w i.dst j (x.opVal w i.srcA k)
        (x.opPois (w / 8) i.srcA k || (!i.imm && x.opPois (w / 8) i.srcB j) || issueSpoils i)
    | none => y.putLane w i.dst j fill
        ((!i.imm && x.opPois (w / 8) i.srcB j) || issueSpoils i)) x

def permLegal (i : Issue) : Bool :=
  !isScalar i.dst && (i.type = 1 || i.type = 3) && (!i.imm || i.type = 1) && i.rnd = 0 && !i.sat &&
  i.resvR = 0 && pairOk i.type i.dst && pairOk i.type i.srcA && (i.imm || pairOk i.type i.srcB)

/-- VEC.BCAST: lane B, a scalar register or the immediate (R254). -/
def execVecBcast (i : Issue) (s : State) : Host.Outcome State Fault Refusal :=
  answer (s.issueAs (.vecBcast i) i (fun _ => permLegal i && i.mod = 0 && (i.imm || isScalar i.srcB))
    (fun s x _ en =>
      if en = 0 then s.past i
      else
        let b := srcBVal i x i.type 0
        let s1 := (s.spoil i).updCtx i.tile i.ctx
          (permCtx i (s.fillOf i.tile i.type) en (fun _ => if b < 32 then some b else none))
        (if b < 32 then s1 else s1.permOob i.tile i.ctx).past i))

/-- The source lane of VEC.SHFL (R255). -/
def shflLane (i : Issue) (x : Ctx) (j : Nat) : Option Nat :=
  let b := srcBVal i x i.type j
  match i.mod with
  | 0 => if b ≤ j then some (j - b) else none
  | 1 => if j + b < 32 then some (j + b) else none
  | _ => if (j ^^^ b) < 32 then some (j ^^^ b) else none

def execVecShfl (i : Issue) (s : State) : Host.Outcome State Fault Refusal :=
  answer (s.issueAs (.vecShfl i) i (fun _ => permLegal i && i.mod ≤ 2)
    (fun s x _ en =>
      if en = 0 then s.past i
      else ((s.spoil i).updCtx i.tile i.ctx
        (permCtx i (s.fillOf i.tile i.type) en (shflLane i x))).past i))

/-- VEC.PERM: lane Vb[j] (R253). -/
def execVecPerm (i : Issue) (s : State) : Host.Outcome State Fault Refusal :=
  answer (s.issueAs (.vecPerm i) i (fun _ => !i.imm && permLegal i && i.mod = 0)
    (fun s x _ en =>
      if en = 0 then s.past i
      else
        let idx := fun j => x.opVal (regWidth i.type) i.srcB j
        let s1 := (s.spoil i).updCtx i.tile i.ctx
          (permCtx i (s.fillOf i.tile i.type) en (fun j => if idx j < 32 then some (idx j) else none))
        (if (lanesOf en).all (fun j => idx j < 32) then s1 else s1.permOob i.tile i.ctx).past i))

/-! ## The reduction tree (R248 to R252) -/

/-- A value in the tree with its flags and poison; none is an empty leaf. -/
abbrev Leaf := Option (Nat × Nat × Bool)

/-- One node: an empty input passes the other through (R248). -/
def combineLeaf (f : Nat → Nat → Nat × Nat) (l r : Leaf) : Leaf :=
  match l, r with
  | none, r => r
  | l, none => l
  | some (a, fa, pa), some (b, fb, pb) =>
    let v := f a b
    some (v.1, fa ||| fb ||| v.2, pa || pb)

/-- One level of the tree. -/
def treeLevel (f : Nat → Nat → Nat × Nat) : List Leaf → List Leaf
  | l :: r :: m => combineLeaf f l r :: treeLevel f m
  | [l] => [l]
  | [] => []

/-- The root of a tree with 2^levels leaves. -/
def treeRoot (f : Nat → Nat → Nat × Nat) : Nat → List Leaf → Leaf
  | 0, l => l.headD none
  | k + 1, l => treeRoot f k (treeLevel f l)

/-- The node operation by MOD (R249). -/
def redNode (op t rnd : Nat) (a b : Nat) : Nat × Nat :=
  match op with
  | 0 => elAdd t rnd false a b
  | 1 => elMinMax t false a b
  | 2 => elMinMax t true a b
  | 3 => (a &&& b, 0)
  | 4 => (a ||| b, 0)
  | _ => (a ^^^ b, 0)

/-- The identity of a reduction (R251). -/
def redIdentity (op t : Nat) : Nat :=
  let w := tyWidth t
  if tyInt t then
    match op with
    | 1 => ofInt w (Fp.intMax w (tySigned t))
    | 2 => ofInt w (Fp.intMin w (tySigned t))
    | 3 => 2 ^ w - 1
    | _ => 0
  else
    match op with
    | 1 => Fp.infCode (tyFmt t) false
    | 2 => Fp.infCode (tyFmt t) true
    | _ => 0

/-- The root as it is written: a NaN becomes canonical (R250). -/
def redResult (t v : Nat) : Nat :=
  if tyInt t then v
  else if Fp.isNan (Fp.decode (tyFmt t) v) then Fp.canonNan (tyFmt t) else v

/-- The leaf of an enabled lane; a signalling NaN sets INVALID (R250). -/
def redLeaf (i : Issue) (x : Ctx) (en : BitVec 32) (j : Nat) : Leaf :=
  if en.getLsbD j then
    let v := x.opVal (regWidth i.type) i.srcA j
    let fl := if tyInt i.type then 0 else Fp.sigFlag [Fp.decode (tyFmt i.type) v]
    some (v, fl, x.opPois (tyWidth i.type / 8) i.srcA j)
  else none

/-- The reduction over the enabled lanes: lane j at leaf 2j, leaf 2j+1 empty. -/
def reduceLanes (i : Issue) (x : Ctx) (en : BitVec 32) : Leaf :=
  treeRoot (redNode i.mod i.type i.rnd) 6
    ((List.range 32).flatMap (fun j => [redLeaf i x en j, none]))

def redLegal (i : Issue) : Bool :=
  !i.imm && types6.contains i.type && i.mod ≤ 5 && (i.mod ≤ 2 || tyInt i.type) && !i.sat &&
  i.resvR = 0 && (i.rnd = 0 || (i.mod = 0 && !tyInt i.type)) && pairOk i.type i.srcA

/-- The operands of VEC.RED: a scalar destination and a vector source (R143, R149). -/
def redOperands (i : Issue) : Bool := isScalar i.dst && !isScalar i.srcA

/-- VEC.RED writes its scalar at every issue, the identity with no enabled lane (R251). -/
def execVecRed (i : Issue) (s : State) : Host.Outcome State Fault Refusal :=
  answer (s.issueAs (.vecRed i) i (fun _ => redLegal i && redOperands i)
    (fun s x _ en =>
      match reduceLanes i x en with
      | none => ((s.updCtx i.tile i.ctx (fun x =>
          x.putScalar i.type i.dst (redIdentity i.mod i.type) false)).emptyRed i.tile i.ctx).past i
      | some (v, fl, p) => ((s.spoil i).updCtx i.tile i.ctx (fun x =>
          (x.putScalar i.type i.dst (redResult i.type v) (p || issueSpoils i)).orFlags fl)).past i))

/-- The lanes of a mask up to lane j. -/
def upTo (en : BitVec 32) (j : Nat) : BitVec 32 := en &&& BitVec.ofNat 32 (2 ^ (j + 1) - 1)

def scanLane (i : Issue) (x : Ctx) (en : BitVec 32) (y : Ctx) (j : Nat) : Ctx :=
  match reduceLanes i x (upTo en j) with
  | none => y
  | some (v, fl, p) =>
    (y.putLane (regWidth i.type) i.dst j (redResult i.type v) (p || issueSpoils i)).orFlags fl

/-- VEC.SCAN: inclusive prefixes to the enabled lanes (R252). -/
def execVecScan (i : Issue) (s : State) : Host.Outcome State Fault Refusal :=
  answer (s.issueAs (.vecScan i) i (fun _ => redLegal i && !isScalar i.dst && pairOk i.type i.dst)
    (fun s _ _ en =>
      if en = 0 then s.past i
      else ((s.spoil i).updCtx i.tile i.ctx (fun x =>
        (lanesOf en).foldl (scanLane i x en) x)).past i))

/-! ## The ember generator (spec/15 R524) -/

/-- The 64-bit ember value of R524. -/
def ember (seed work ltile lane ctr : Nat) : Word64 :=
  let a := mix (BitVec.ofNat 64 seed ^^^ mix (BitVec.ofNat 64 work))
  let b := mix (a ^^^ (BitVec.ofNat 64 (ltile * 2 ^ 42) ||| BitVec.ofNat 64 (lane * 2 ^ 32) |||
    BitVec.ofNat 64 ctr))
  mix (b + 0x6f2d94c13b85e07a)

def State.planSeed (s : State) : Nat := match s.plans.active with
  | some p => p.seed
  | none => 0

/-- The values of EMB.GEN and EMB.GEN64. DESIGN CHOICE (notes/assumptions/64.md): a scalar SRCA, of which R167 says nothing,
gives every lane the same counter. -/
def emberCtx (i : Issue) (s : State) (wide : Bool) (en : BitVec 32) (x : Ctx) : Ctx :=
  (lanesOf en).foldl (fun y j =>
    let e := (ember s.planSeed (s.rd pgStk Reg.stkWork) (s.rd (pgTil i.tile) Reg.tilLogicalLtile)
      (32 * i.ctx.val + j) (x.opVal 32 i.srcA j)).toNat
    y.putLane (if wide then 64 else 32) i.dst j (if wide then e else e % 2 ^ 32)
      (x.opPois 4 i.srcA j || i.parity)) x

/-- The fields of format S that must be 0 (R138): TYPE and bits [25:0]. -/
def sysOk (i : Issue) : Bool := i.type = 0 && i.bitsOf 0 26 = 0

def execEmbGen (i : Issue) (s : State) : Host.Outcome State Fault Refusal :=
  answer (s.issueAs (.embGen i) i (fun _ => sysOk i && !isScalar i.dst)
    (fun s _ _ en => if en = 0 then s.past i
      else ((s.spoil i).updCtx i.tile i.ctx (emberCtx i s false en)).past i))

def execEmbGen64 (i : Issue) (s : State) : Host.Outcome State Fault Refusal :=
  answer (s.issueAs (.embGen64 i) i (fun _ => sysOk i && !isScalar i.dst && i.dst % 2 = 0)
    (fun s _ _ en => if en = 0 then s.past i
      else ((s.spoil i).updCtx i.tile i.ctx (emberCtx i s true en)).past i))

end Sys2Proof.Machine
end

