-- ==== Sys2Proof/Machine/Locks.lean ====
section
/-! DEFINITION. Locks (spec/03 R120 to R127; spec/04 R158). -/
namespace Sys2Proof.Machine

/-- The value a lane writes into a lock word it holds. -/
def State.lockValue (s : State) (n c lane : Nat) : Nat :=
  1 + 1024 * s.rd (pgTil n) Reg.tilLogicalLtile + 32 * c + lane

/-- The value of a lock word. -/
def State.lockWord (s : State) (n : Nat) (glob : Bool) (a : Nat) : Nat :=
  if glob then s.natAt a 4 else (s.tile n).scratchNat a 4

/-- Write a lock word; on a hearth-homed word it is a write performed at its partition (R329). -/
def State.setLockWord (s : State) (n : Nat) (glob : Bool) (a v : Nat) : State :=
  if glob then s.redWrite a 32 v false else s.scratchStore n a (leBytes 4 v) false

/-- LOCK_ADDR (R120, R158): misaligned, or in no place for a lock. -/
def State.lockAddrBad (s : State) (n : Nat) (glob : Bool) (a : Nat) : Bool :=
  decide (a % 4 ≠ 0) || (glob && isFar a) || !s.reachable n glob a 4 true

def lockLegal (i : Issue) : Bool := i.mHint ≤ 2 && i.type = 0 && i.mData = 0

/-- A lane is granted a lock: its word, the context's list, and for a hearth-homed word the clean lines
of the L1 dropped (R124, R126). -/
def State.grant (s : State) (n c lane : Nat) (glob : Bool) (a : Nat) : State :=
  let s1 := (s.setLockWord n glob a (s.lockValue n c lane)).updCtx n c (fun x =>
    { x with locks := x.locks ++ [(lane, glob, a)] })
  if glob then s1.dropClean n else s1

/-! ## Attempts of one cycle (R121) -/

/-- The grant of a word in a cycle to a lane above another lane: (sequencer, context, lane) orders as (context, lane) does,
since sequencer q holds contexts 4q to 4q + 3. -/
def Tile.wonAbove (t : Tile) (glob : Bool) (a cyc c lane : Nat) : Option Won :=
  t.won.find? (fun w => decide (w.glob = glob) && decide (w.addr = a) && decide (w.cyc = cyc) &&
    (decide (c < w.ctx) || (decide (c = w.ctx) && decide (lane < w.lane))))

/-- Grants of a cycle are remembered for the rest of it. -/
def State.noteWon (s : State) (n : Nat) (w : Won) : State :=
  s.updTile n (fun t => { t with won := w :: t.won.filter (fun v => decide (v.cyc = w.cyc)) })

/-- A lane goes back to its acquire and parks there. -/
def Ctx.repark (x : Ctx) (w : Won) : Ctx :=
  let one : BitVec 32 := BitVec.ofNat 32 (2 ^ w.lane)
  let epoch := ((x.subOf w.lane).map (fun u => u.epoch)).getD 0
  { x with
    locks := x.locks.filter (fun k => k ≠ (w.lane, w.glob, w.addr)),
    subs := (x.subs.map (fun u => { u with mask := u.mask &&& ~~~one })).filter (fun u => u.mask != 0) ++
      [{ pc := w.pc, mask := one, epoch := epoch, wait := .park w.glob w.addr }] }

/-- The holder that a lower lane of the same cycle displaces parks, and the word is free for that lane: no write of the
displaced grant was performed, so its term leaves the write hash. -/
def State.unwin (s : State) (n : Nat) (w : Won) : State :=
  let old := hashTerm s.hashK (w.addr / 8) (s.natAt (w.addr / 8 * 8) 8) 0xFF (b2n (s.badAt w.addr))
  let s1 := if w.glob then (s.store w.addr (leBytes 4 0) false).addHash (s.hashSlot w.addr) (hashMod - old)
    else s.updTile n (fun t => t.scratchPut w.addr (leBytes 4 0) false)
  (s1.updTile n (fun t => { t with won := t.won.erase w })).updCtx n w.ctx (fun x => x.repark w)

/-- A lock word as an attempt of a lane at a cycle finds it: a grant of that cycle to a higher lane gives way. -/
def State.contest (s : State) (n : Nat) (glob : Bool) (a cyc c lane : Nat) : State :=
  match (s.tile n).wonAbove glob a cyc c lane with
  | some w => s.unwin n w
  | none => s

/-- The lanes of an acquire with their addresses. -/
def lockAddrs (i : Issue) (x : Ctx) (en : BitVec 32) : List (Nat × Nat) :=
  (lanesOf en).map (fun j => (j, mAddr i false x j))

/-- The lanes granted: the lowest of those that name each free word (R121). -/
def State.granted (s : State) (i : Issue) (l : List (Nat × Nat)) : List (Nat × Nat) :=
  l.filter (fun e => decide (s.lockWord i.tile i.mGlob e.2 = 0) &&
    !l.any (fun f => decide (f.2 = e.2) && decide (f.1 < e.1)))

/-- The exceptions of an acquire (R127): LOCK_SELF, and LOCK_OVF for the lanes granted beyond 8. -/
def State.acqFaults (s : State) (i : Issue) (x : Ctx) (l : List (Nat × Nat)) : List (Nat × Option Nat) :=
  let g := (s.granted i l).map (fun e => e.1)
  let extra := g.drop (8 - x.locks.length)
  l.map (fun e =>
    (e.1, if s.lockAddrBad i.tile i.mGlob e.2 then some 0x15
          else if s.lockWord i.tile i.mGlob e.2 = s.lockValue i.tile i.ctx e.1 then some 0x1A
          else if extra.contains e.1 then some 0x1B else none))

/-- Split off lanes that park, one subgroup for each word they park on; the others go past (R122). -/
def Ctx.park (x : Ctx) (lane : Nat) (glob : Bool) (l : List (Nat × Nat)) : Ctx :=
  let stay := maskLanes (l.map (fun e => e.1))
  let subs := x.subs.flatMap (fun u =>
    if u.mask.getLsbD lane then
      let go := u.mask &&& ~~~stay
      (if go = 0 then [] else [{ u with mask := go, pc := u.pc + 8 }]) ++
      ((l.map (fun e => e.2)).eraseDups.map (fun a =>
        { u with mask := maskLanes ((l.filter (fun e => e.2 = a)).map (fun e => e.1)), wait := .park glob a }))
    else [u])
  ({ x with subs := subs } : Ctx).settle

/-- Lock words in the scratchpad are read: their lines are verified, and take bank cycles (R276, R296). -/
def State.lockReads (s : State) (i : Issue) (l : List (Nat × Nat)) : State :=
  (s.checkLines i.tile false i.ups (l.map (fun e => e.2))).bump (pgTlm i.tile) Reg.tlmConflictCycles (bankExtra (l.map (fun e => e.2)))

/-- LOCK.ACQ: a V instruction (R149). -/
def execLockAcq (i : Issue) (s : State) : Host.Outcome State Fault Refusal :=
  answer (s.issueAs (.lockAcq i) i (fun _ => lockLegal i) (fun s x u en =>
    if en = 0 then s.past i
    else
      let l := lockAddrs i x en
      let s0 := if i.mGlob then l.foldl (fun s e =>
          if s.lockAddrBad i.tile true e.2 then s else s.flushLine i.tile e.2) s
        else s.lockReads i (l.filter (fun e => !s.lockAddrBad i.tile false e.2))
      let tried := l.foldl (fun s e => s.contest i.tile i.mGlob e.2 i.cyc.toNat i.ctx e.1) s0
      match worstOf (tried.acqFaults i x l) with
      | some (code, m) => s.raiseAt i x u code m
      | none =>
        let s0 := tried
        let g := s0.granted i l
        let wait := l.filter (fun e => !g.contains e)
        (g.foldl (fun s e => (s.grant i.tile i.ctx e.1 i.mGlob e.2).noteWon i.tile
            { glob := i.mGlob, addr := e.2, cyc := i.cyc.toNat, ctx := i.ctx, lane := e.1, pc := u.pc })
          ((s0.spoil i).vIssue i.tile)).updCtx i.tile i.ctx (fun x => x.park i.lane i.mGlob wait)))

/-! ## Waking (R121, R123) -/

/-- The lanes of a tile parked on a word: context and lane, lowest first. -/
def Tile.parkedOn (t : Tile) (glob : Bool) (a : Nat) : List (Nat × Nat) :=
  t.ctxs.flatMap (fun e =>
    (lanesOf (e.2.subs.foldl (fun m u => if u.wait = .park glob a then m ||| u.mask else m) 0)).map
      (fun j => (e.1, j)))

/-- A parked lane goes past its acquire as a subgroup of its own. -/
def Ctx.unpark (x : Ctx) (lane : Nat) : Ctx :=
  let one : BitVec 32 := BitVec.ofNat 32 (2 ^ lane)
  let subs := x.subs.flatMap (fun u =>
    if u.mask.getLsbD lane then
      { u with mask := one, pc := u.pc + 8, wait := .ready } ::
        (if u.mask &&& ~~~one = 0 then [] else [{ u with mask := u.mask &&& ~~~one }])
    else [u])
  ({ x with subs := subs } : Ctx).settle

/-- A parked lane retries a word: granted when it is free (R121, R123). A ninth lock of its context
raises LOCK_OVF. -/
def State.retryLock (s : State) (n c lane : Nat) (glob : Bool) (a cyc : Nat) : State :=
  let s := s.contest n glob a cyc c lane
  if s.lockWord n glob a ≠ 0 then s
  else
    match s.ctx n c with
    | none => s
    | some x =>
      if 8 ≤ x.locks.length then
        s.raiseExc n c 0x1B (BitVec.ofNat 32 (2 ^ lane)) ((x.subOf lane).map (fun u => u.pc) |>.getD 0) x.entry cyc
      else
        let pc := ((x.subOf lane).map (fun u => u.pc)).getD 0
        let w : Won := { glob := glob, addr := a, cyc := cyc, ctx := c, lane := lane, pc := pc }
        ((s.grant n c lane glob a).noteWon n w).updCtx n c (fun x => x.unpark lane)

/-- A release wakes the lanes of the tile parked on the word; the lowest of them is granted it (R121, R123). -/
def State.wakeParked (s : State) (n : Nat) (glob : Bool) (a cyc : Nat) : State :=
  match (s.tile n).parkedOn glob a with
  | [] => s
  | (c, lane) :: _ => s.retryLock n c lane glob a cyc

/-- LOCK_POLL: a waiting lane of a hearth-homed lock retries, the lowest lane of its subgroup first (R123). -/
def execLockPoll (tile : Fin 160) (ctx lane : Fin 32) (cyc : BitVec 32) (s : State) :
    Host.Outcome State Fault Refusal :=
  match (s.ctx tile ctx).bind (fun x => x.subOf lane) with
  | none => answer s
  | some u => match u.wait with
    | .park true a => answer ((s.atCycle cyc.toNat).retryLock tile ctx ((lanesOf u.mask).headD lane) true a cyc.toNat)
    | _ => answer s

/-! ## Release (R124, R127) -/

/-- One lane releases its word. -/
def State.release (s : State) (i : Issue) (lane a : Nat) : State :=
  ((((s.setLockWord i.tile i.mGlob a 0).updTile i.tile (fun t =>
    { t with won := t.won.filter (fun w => !(decide (w.glob = i.mGlob) && decide (w.addr = a))) })).updCtx i.tile i.ctx (fun x =>
    { x with locks := x.locks.filter (fun k => k ≠ (lane, i.mGlob, a)) })).wakeParked i.tile i.mGlob a i.cyc.toNat)

/-- LOCK.REL: FENCE.T for a scratchpad word, FENCE.H before the write of a hearth-homed one: while a
reduction of the group is not acknowledged the release does not issue (R124; notes/assumptions/3.md). -/
def execLockRel (i : Issue) (s : State) : Host.Outcome State Fault Refusal :=
  answer (s.issueAs (.lockRel i) i (fun _ => lockLegal i) (fun s x u en =>
    if en = 0 then s.past i
    else
      let l := lockAddrs i x en
      match worstOf (l.map (fun e =>
        (e.1, if s.lockAddrBad i.tile i.mGlob e.2 then some 0x15 else none))) with
      | some (code, m) => s.raiseAt i x u code m
      | none =>
        let s0 := if i.mGlob then s.flushL1 i.tile else s.lockReads i l
        match worstOf (l.map (fun e =>
          (e.1, if s0.lockWord i.tile i.mGlob e.2 = s0.lockValue i.tile i.ctx e.1 then none else some 0x17))) with
        | some (code, m) => s.raiseAt i x u code m
        | none =>
          if i.mGlob ∧ x.reds ≠ 0 then s0
          else (l.foldl (fun s e => s.release i e.1 e.2) (s0.spoil i)).past i))

end Sys2Proof.Machine
end

