-- ==== Sys2Proof/Machine/Control.lean ====
section
/-! DEFINITION. Branches, exits, barriers, fences, event flags and tokens
(spec/03 R103 to R105, R114 to R118, R127 to R130; spec/04 R162, R163, R168, R169, R752). -/
namespace Sys2Proof.Machine

/-! ## Branches (R103, R105, R138, R168) -/

def branchLegal (i : Issue) : Bool := i.type = 0 && i.bitsOf 0 4 = 0

/-- Lanes of a subgroup that disagree split into the taken side and the rest (R103). -/
def Ctx.diverge (x : Ctx) (lane : Nat) (taken : BitVec 32) (target join : Nat) : Ctx :=
  let subs := x.subs.flatMap (fun u =>
    if u.mask.getLsbD lane then
      [{ u with mask := u.mask &&& taken, pc := target }, { u with mask := u.mask &&& ~~~taken, pc := u.pc + 8 }]
    else [u])
  let m := match x.subOf lane with | some u => u.mask | none => 0
  ({ x with subs := subs, stack := (join, m) :: x.stack } : Ctx).settle

/-- The exception of a branch that some lane takes: MISALIGN, ADDR, SPLIT_OVF (R105, R168). -/
def State.branchFault (s : State) (x : Ctx) (diverges : Bool) (target : Nat) : Option Nat :=
  if target % 8 ≠ 0 then some 0x11
  else if !s.inCode target 8 then some 0x12
  else if diverges && decide (16 ≤ x.stack.length) then some 0x13
  else none

/-- A branch to a target. -/
def State.branch (s : State) (i : Issue) (x : Ctx) (u : Sub) (en : BitVec 32) (target : Nat) : State :=
  if en = 0 then s.past i
  else
    let rest := u.mask &&& x.live &&& ~~~en
    match s.branchFault x (rest != 0) target with
    | some code => s.raiseAt i x u code en
    | none =>
      if rest = 0 then s.updCtx i.tile i.ctx (fun x => x.goto i.lane target)
      else (s.bump (pgSeq i.tile (i.ctx / 4)) Reg.seqSplitSplits 1).updCtx i.tile i.ctx (fun x =>
        x.diverge i.lane en target (ofInt 64 (u.pc + 8 * toSigned 20 (i.bitsOf 4 20))))

/-- BRA: TARGET is an offset in instructions from the branch. -/
def execBra (i : Issue) (s : State) : Host.Outcome State Fault Refusal :=
  answer (s.issueAs (.bra i) i (fun _ => branchLegal i) (fun s x u en =>
    s.branch i x u en (ofInt 64 (u.pc + 8 * toSigned 20 (i.bitsOf 24 20)))))

/-- BRX: the target is a scalar register's value. -/
def execBrx (i : Issue) (s : State) : Host.Outcome State Fault Refusal :=
  answer (s.issueAs (.brx i) i (fun _ => branchLegal i && i.bitsOf 24 14 = 0) (fun s x u en =>
    s.branch i x u en (x.sreg (i.bitsOf 38 6))))

/-! ## NOP and EXIT (R169) -/

def execNop (i : Issue) (s : State) : Host.Outcome State Fault Refusal :=
  answer (s.issueAs (.nop i) i (fun _ => sysOk i) (fun s _ _ _ => s.past i))

/-- A barrier of the group or of its launch may now release (R115). -/
def State.tryBars (s : State) (n c entry : Nat) : State :=
  s.updTile n (fun t => (t.tryBarG c).tryBarL entry)

/-- EXIT: enabled lanes exit; a lane that holds a lock raises LOCK_EXIT (R127). -/
def execExit (i : Issue) (s : State) : Host.Outcome State Fault Refusal :=
  answer (s.issueAs (.exit i) i (fun _ => sysOk i) (fun s x u en =>
    if en = 0 then s.past i
    else
      let holders := (lanesOf en).filter (fun j => x.locks.any (fun k => k.1 = j))
      if holders ≠ [] then s.raiseAt i x u 0x1C (maskLanes holders)
      else
        ((s.updCtx i.tile i.ctx (fun x =>
          (x.updSub i.lane (fun u => { u with pc := u.pc + 8 })).exitLanes en)).tryBars i.tile i.ctx x.entry).retireGroup
            i.tile i.ctx i.cyc.toNat))

/-! ## Barriers -/

def barLegal (i : Issue) : Bool := sysOk i && i.pq = 0 && !i.pneg
def imm4 (i : Issue) : Nat := i.bitsOf 40 4

/-- The id pending at the scope an arrival belongs to (R117). -/
def Tile.pendingBar (t : Tile) (x : Ctx) (launch : Bool) : Option Nat :=
  if launch then (t.launchCtxs x.entry).findSome? (fun e => e.2.barId true) else x.barId false

/-- A lane of the scope is parked on a word that a lane of the scope holds (R127). -/
def parkedOnScope (l : List Ctx) : Bool :=
  l.any (fun y => y.subs.any (fun u => match u.wait with
    | .park g a => l.any (fun z => z.locks.any (fun k => k.2 = (g, a)))
    | _ => false))

/-- The exception of an arrival: BAR_MISMATCH, or LOCK_BAR for the arriving holders (R117, R127). -/
def State.barFault (s : State) (i : Issue) (x : Ctx) (launch : Bool) (en : BitVec 32) : Option (Nat × BitVec 32) :=
  let t := s.tile i.tile
  let holders := (lanesOf en).filter (fun j => x.locks.any (fun k => k.1 = j))
  let scope := if launch then (t.launchCtxs x.entry).map (fun e => e.2) else [x]
  if (match t.pendingBar x launch with | some id => decide (id ≠ imm4 i) | none => false) ||
     x.atBar (!launch) != 0 then some (0x14, en)
  else if holders ≠ [] && parkedOnScope scope then some (0x16, maskLanes holders)
  else none

/-- An arrival at a barrier (R114 to R117). -/
def State.arrive (s : State) (c : Instr) (i : Issue) (launch : Bool) : State :=
  s.issueAs c i (fun _ => barLegal i) (fun s x u en =>
    if en = 0 then s.past i
    else
      match s.barFault i x launch en with
      | some (code, m) => s.raiseAt i x u code m
      | none =>
        (s.updCtx i.tile i.ctx (fun x => x.pastWait i.lane (.bar launch (imm4 i)))).tryBars
          i.tile i.ctx x.entry)

def execBarG (i : Issue) (s : State) : Host.Outcome State Fault Refusal := answer (s.arrive (.barG i) i false)
def execBarL (i : Issue) (s : State) : Host.Outcome State Fault Refusal := answer (s.arrive (.barL i) i true)

/-! ## Fences (R128 to R130) -/

/-- FENCE.T: stores and atomics of the group have been performed in tile memory when they issued. -/
def execFenceT (i : Issue) (s : State) : Host.Outcome State Fault Refusal :=
  answer (s.issueAs (.fenceT i) i (fun _ => sysOk i) (fun s _ _ _ => s.past i))

/-- FENCE.H, or FENCE.X: write back and invalidate the L1, then wait for the acknowledgements. -/
def State.fence (s : State) (c : Instr) (i : Issue) (far : Bool) : State :=
  s.issueAs c i (fun _ => sysOk i) (fun s x _ en =>
    if en = 0 then s.past i
    else
      let s1 := s.flushL1 i.tile
      if x.reds = 0 ∧ (!far ∨ (s1.tile i.tile).farWrites = 0) then s1.past i
      else s1.updCtx i.tile i.ctx (fun x => x.pastWait i.lane (.fence far)))

def execFenceH (i : Issue) (s : State) : Host.Outcome State Fault Refusal := answer (s.fence (.fenceH i) i false)
def execFenceX (i : Issue) (s : State) : Host.Outcome State Fault Refusal := answer (s.fence (.fenceX i) i true)

/-! ## Event flags and tokens (R92, R162, R163, R752) -/

def State.evtFlag (s : State) (n k : Nat) : Bool := bitAt (s.rd (pgTil n) Reg.tilEvt) k

def execEvtSet (i : Issue) (s : State) : Host.Outcome State Fault Refusal :=
  answer (s.issueAs (.evtSet i) i (fun _ => sysOk i) (fun s _ _ en =>
    (if en = 0 then s else s.setEvent i.tile (imm4 i)).past i))

/-- The whole subgroup waits when a lane is enabled and the flag is not set (R752). -/
def execEvtWait (i : Issue) (s : State) : Host.Outcome State Fault Refusal :=
  answer (s.issueAs (.evtWait i) i (fun _ => sysOk i) (fun s _ _ en =>
    if en = 0 ∨ s.evtFlag i.tile (imm4 i) then s.past i
    else s.updCtx i.tile i.ctx (fun x => x.pastWait i.lane (.evt (imm4 i)))))

def testLegal (i : Issue) : Bool := sysOk i && 1 ≤ i.dst && i.dst ≤ 7

/-- Write a test's answer to the enabled lanes of a predicate; a V instruction. -/
def State.putTest (s : State) (i : Issue) (en : BitVec 32) (b : Bool) : State :=
  if en = 0 then s.past i
  else ((s.vIssue i.tile).updCtx i.tile i.ctx (fun x =>
    (lanesOf en).foldl (fun y j => y.putQbit i.dst j b) x)).past i

def execEvtTest (i : Issue) (s : State) : Host.Outcome State Fault Refusal :=
  answer (s.issueAs (.evtTest i) i (fun _ => testLegal i) (fun s _ _ en =>
    s.putTest i en (s.evtFlag i.tile (imm4 i))))

/-- TOK.WAIT completes when every operation issued on the token before it has completed (R163). -/
def execTokWait (i : Issue) (s : State) : Host.Outcome State Fault Refusal :=
  answer (s.issueAs (.tokWait i) i (fun _ => sysOk i) (fun s _ _ en =>
    let l := ((s.tile i.tile).ops.filter (fun e => e.2 = imm4 i)).map (fun e => e.1)
    if en = 0 ∨ l = [] then s.past i
    else s.updCtx i.tile i.ctx (fun x => x.pastWait i.lane (.tok l))))

def execTokTest (i : Issue) (s : State) : Host.Outcome State Fault Refusal :=
  answer (s.issueAs (.tokTest i) i (fun _ => testLegal i) (fun s _ _ en =>
    s.putTest i en (!(s.tile i.tile).tokBusy (imm4 i))))

end Sys2Proof.Machine
end

