-- ==== Sys2Proof/Machine/WorkList.lean ====
section
/-! DEFINITION. Work lists: entries, their issue, placement of groups, splits, deadlines and overrun
(spec/03 R90 to R102, R118, R753; spec/08 R278, R279). -/
namespace Sys2Proof.Machine

/-! ## Entries (R90, R91, R459) -/

/-- A work-list entry: its four words, and whether any is poisoned. -/
structure WlEntry where
  w0 : Nat
  w1 : Nat
  pc : Nat
  arg : Nat
  bad : Bool
  deriving DecidableEq, Repr

def WlEntry.kind (e : WlEntry) : Nat := bitsAt e.w0 60 4
def WlEntry.split (e : WlEntry) : Nat := bitsAt e.w0 57 3
def WlEntry.waitPrev (e : WlEntry) : Bool := bitAt e.w0 56
def WlEntry.seqmask (e : WlEntry) : Nat := bitsAt e.w0 48 8
def WlEntry.ngroups (e : WlEntry) : Nat := bitsAt e.w0 43 5 + 1
def WlEntry.lastLanes (e : WlEntry) : Nat := if bitsAt e.w0 32 6 = 0 then 32 else bitsAt e.w0 32 6
def WlEntry.start (e : WlEntry) : Nat := bitsAt e.w0 0 32
def WlEntry.markId (e : WlEntry) : Nat := bitsAt e.w1 16 16
def WlEntry.evtmask (e : WlEntry) : Nat := bitsAt e.w1 0 16
/-- The effective deadline: DEADLINE, or B when it is 0 (R98). -/
def WlEntry.deadline (e : WlEntry) (b : Nat) : Nat := if bitsAt e.w1 32 32 = 0 then b else bitsAt e.w1 32 32

/-- An entry, END included, that is valid with a deadline B (R91). -/
def WlEntry.valid (e : WlEntry) (b : Nat) : Bool :=
  e.kind ≤ 3 &&
  (e.kind != 1 || (e.split ≤ 4 && e.seqmask != 0 && bitsAt e.w0 32 6 ≤ 32 &&
    e.ngroups ≤ 4 * popCount 8 e.seqmask)) &&
  bitsAt e.w1 32 32 ≤ b && e.start < e.deadline b

/-- B of the current stoke (spec/01 R26). -/
def State.cycleB (s : State) : Nat := s.stoke.period - 2048

/-- The address of a tile's entry in the current phase (R459): none past the end of the stride or the
list, or with no plan. -/
def State.entryAddr (s : State) (n k : Nat) : Option Nat :=
  match s.plans.active with
  | none => none
  | some p =>
    if 4096 ≤ k ∨ p.wlStride ≤ 32 * k then none
    else match p.wldir[s.rd (pgTil n) Reg.tilLogicalLtile]? with
      | none => none
      | some base => some (base + s.rd pgStk Reg.stkWork % max 1 p.nphase * p.wlStride + 32 * k)

/-- The entry at an index: none past the last. -/
def State.entryAt (s : State) (n k : Nat) : Option WlEntry :=
  (s.entryAddr n k).map (fun a =>
    { w0 := s.natAt a 8, w1 := s.natAt (a + 8) 8, pc := s.natAt (a + 16) 8, arg := s.natAt (a + 24) 8, bad := s.anyBad a 32 })

/-! ## The control core (R93, R94, R102, R753) -/

/-- The index of the next entry to issue. -/
def State.nextEntry (s : State) (n : Nat) : Nat := s.rd (pgTil n) Reg.tilStateEntry

/-- The core runs its list: a work stoke that no quench has abandoned, the tile enabled and running (R41, R102, R134). -/
def State.coreRuns (s : State) (n : Nat) : Bool :=
  s.stoke.working && !s.stoke.quenched && s.flag (pgTil n) Reg.ctrlEnable && decide (s.rd (pgTil n) Reg.tilState = 1) &&
  !s.flag (pgTil n) Reg.statFenced && !s.flag (pgTil n) Reg.statDark

/-- WL_BAD: the exception of an entry that is not valid; it comes from no context, so what TIL_EXC
shows beside the code is free (R91, R133; notes/assumptions/2.md). -/
def State.wlBad (s : State) (n k cyc : Nat) : State :=
  (((s.tookFree.tookFree).tookFree).raiseExc n (s.freeBits 5) 0x19
    (BitVec.ofNat 32 (s.tookFree.freeBits 32)) (s.tookFree.tookFree.freeBits 64) k cyc)

/-- The core reaches the entry of its command: a poisoned one and one that is not valid put the tile in
overrun; one of another kind is not this command's (R91, R753). In the cycle of an overrun nothing issues any more. -/
def State.reach (s : State) (n cyc kind : Nat) (f : State → Nat → WlEntry → State) : State :=
  s.inCycle n cyc (fun s =>
    if !s.coreRuns n then s
    else
      let k := s.nextEntry n
      match s.entryAt n k with
      | none => s
      | some e =>
        if e.bad then (s.consumeAt n).overrunTile n 7 k cyc
        else if !e.valid s.cycleB then s.wlBad n k cyc
        else if e.kind ≠ kind || (s.tile n).overrun then s
        else f s k e)

/-- The conditions every entry waits for (R94). -/
def State.entryReady (s : State) (n cyc : Nat) (e : WlEntry) : Bool :=
  decide (e.start ≤ cyc) && (e.evtmask &&& s.rd (pgTil n) Reg.tilEvt) == e.evtmask &&
  (!e.waitPrev || (s.tile n).ctxs == [])

/-- The next entry is the one after; behind the 4,096th, whose successor ENTRY cannot show, the list has ended (R90;
notes/assumptions/22.md). -/
def State.entryDone (s : State) (n k : Nat) : State :=
  if 4095 ≤ k then s.wrs (pgTil n) [(Reg.tilStateEntry, 0), (Reg.tilState, 2)] else s.wr (pgTil n) Reg.tilStateEntry (k + 1)

/-! ## Launches (R95 to R97) -/

/-- The contexts the groups of a launch take, or none when a sequencer has too few free (R95). -/
def placeGroups (t : Tile) (e : WlEntry) : Option (List Nat) :=
  let seqs := bitList 8 e.seqmask
  (List.range e.ngroups).foldl (fun (r : Option (List Nat)) g =>
    match r with
    | none => none
    | some l =>
      let q := seqs.getD (g % seqs.length) 0
      ((List.range 4).map (4 * q + ·)).find? (fun c => !l.contains c && (SMap.find t.ctxs c).isNone)
        |>.map (fun c => l ++ [c])) (some [])

/-- The live lanes of a group of a launch (R97). -/
def groupLanes (e : WlEntry) (g : Nat) : BitVec 32 :=
  if g + 1 = e.ngroups then BitVec.ofNat 32 (2 ^ e.lastLanes - 1) else BitVec.allOnes 32

/-- A new group's context (R97). -/
def State.newCtx (s : State) (n k : Nat) (e : WlEntry) (g : Nat) : Ctx :=
  let live := groupLanes e g
  let x : Ctx :=
    { entry := k, group := g, live := live, subs := [{ pc := e.pc, mask := live, epoch := 0, wait := .ready }]
      stack := [], v := [], vp := [], s := [], sp := [], q := [], flags := 0, locks := [], frag := false, reds := 0 }
  let x := (((((x.putS 0 e.arg 0).putS 1 g 0).putS 2 (s.rd pgStk Reg.stkWork) 0).putS 3
    (s.rd (pgTil n) Reg.tilLogicalLtile) 0).putS 4 k 0)
  (List.range 32).foldl (fun x j => x.putV 0 j (32 * g + j) 0) x

/-- Change the split: the L1 is written back and invalid, joining banks read 0, leaving banks lose their
contents (R274, R279). -/
def State.setSplit (s : State) (n c : Nat) : State :=
  let lim := 262144 * min c (s.split n)
  (((s.flushL1 n).updTile n (fun t => { t with
      scratch := t.scratch.filter (fun e => decide (e.1 < lim))
      scratchBad := t.scratchBad.filter (fun e => decide (8 * e.1 < lim))
      scratchDiff := t.scratchDiff.filter (fun e => decide (e.1 < lim))
      scratchStuck := t.scratchStuck.filter (fun a => decide (a < lim)) })).wr (pgTlm n) Reg.tlmStateSplit c).wr
    (pgTlm n) Reg.tlmStateWays (32 - 8 * c)

/-- Place the groups of a launch (R95 to R97). -/
def State.launch (s : State) (n k : Nat) (e : WlEntry) (ctxs : List Nat) : State :=
  let s1 := if e.split = s.split n then s else s.setSplit n e.split
  let placed := (List.range e.ngroups).zip ctxs
  (s1.updTile n (fun t =>
    let t := { t with launched := true, ran := true, resident := t.resident ++ [(k, e.deadline s.cycleB)] }
    placed.foldl (fun t gc => { t with
      ctxs := SMap.ins t.ctxs gc.2 (s1.newCtx n k e gc.1)
      serials := SMap.ins t.serials gc.2 (t.nextSerial + 1)
      nextSerial := t.nextSerial + 1 }) t)).entryDone n k

/-- LAUNCH_ISSUE: a LAUNCH entry issues when R94 allows. -/
def execLaunchIssue (tile : Fin 160) (cyc : BitVec 32) (s : State) : Host.Outcome State Fault Refusal :=
  answer (s.reach tile cyc.toNat 1 (fun s k e =>
    let t := s.tile tile
    if s.entryReady tile cyc.toNat e && (e.split == s.split tile || t.ctxs == []) then
      match placeGroups t e with
      | some l => s.launch tile k e l
      | none => s
    else s))

/-- WAIT_ISSUE: a WAIT entry issues, and is complete. -/
def execWaitIssue (tile : Fin 160) (cyc : BitVec 32) (s : State) : Host.Outcome State Fault Refusal :=
  answer (s.reach tile cyc.toNat 2 (fun s k e =>
    if s.entryReady tile cyc.toNat e then s.entryDone tile k else s))

/-- MARK_ISSUE: a MARK entry places its MARK_ID in the trace record. -/
def execMarkIssue (tile : Fin 160) (cyc : BitVec 32) (s : State) : Host.Outcome State Fault Refusal :=
  answer (s.reach tile cyc.toNat 3 (fun s k e =>
    if s.entryReady tile cyc.toNat e then
      (s.updTile tile (fun t => { t with marks := t.marks ++ [e.markId] })).entryDone tile k
    else s))

/-- WORK_LIST_END: END, or the last entry without an END, ends the list (R90); an END that is not valid raises WL_BAD (R91). -/
def execWorkListEnd (tile : Fin 160) (cyc : BitVec 32) (s : State) : Host.Outcome State Fault Refusal :=
  answer (s.inCycle tile cyc.toNat (fun s =>
    if !s.coreRuns tile then s
    else
      match s.entryAt tile (s.nextEntry tile) with
      | some e =>
        if e.bad then (s.consumeAt tile).overrunTile tile 7 (s.nextEntry tile) cyc.toNat
        else if !e.valid s.cycleB then s.wlBad tile (s.nextEntry tile) cyc.toNat
        else if e.kind = 0 then s.wr (pgTil tile) Reg.tilState 2
        else s
      | none => s.wr (pgTil tile) Reg.tilState 2))

/-! ## Deadlines (R98, R99, R118) -/

/-- A pending barrier of a context: launch scope and id. -/
def Ctx.pending (x : Ctx) : Option (Bool × Nat) :=
  x.subs.findSome? (fun u => match u.wait with
    | .bar l id => some (l, id)
    | _ => none)

/-- The lanes of a mask list, counted. -/
def countLanes (l : List (BitVec 32)) : Nat := (l.map (fun m => popCount 32 m.toNat)).foldl (· + ·) 0

/-- Capture the state of a stalled barrier (R118, R134). -/
def State.captureBar (s : State) (n : Nat) (c : Nat) (x : Ctx) (launch : Bool) (id : Nat) : State :=
  let scope := if launch then (s.tile n).launchCtxs x.entry else [(c, x)]
  let late := scope.find? (fun e => e.2.live &&& ~~~(e.2.atBar launch) != 0)
  let epoch := (scope.findSome? (fun e => e.2.subs.findSome? (fun u => match u.wait with
    | .bar l _ => if l = launch then some u.epoch else none
    | _ => none))).getD 0
  (s.wrs (pgTil n) [(Reg.tilBar0Id, id), (Reg.tilBar0Scope, b2n launch),
    (Reg.tilBar0Arrived, countLanes (scope.map (fun e => e.2.atBar launch))),
    (Reg.tilBar0Live, countLanes (scope.map (fun e => e.2.live))),
    (Reg.tilBar1Epoch, epoch), (Reg.tilBar1Ctx, (late.map (fun e => e.1)).getD 0)]).setCause
      (pgTil n) Reg.causeTilBarStall

/-- The stalled barrier of a launch, if it has one: its context, scope and id. Of several, that of the lowest context counts
(the spec names none; notes/assumptions/64.md). -/
def Tile.stalledBar (t : Tile) (k : Nat) : Option (Nat × Ctx × Bool × Nat) :=
  (t.launchCtxs k).findSome? (fun e => match e.2.pending with
    | some (l, id) => some (e.1, e.2, l, id)
    | none => none)

/-- A launch still resident at its deadline: kind 1, or 5 with a barrier stall. -/
def State.lateLaunch (s : State) (n k cyc : Nat) : State :=
  match (s.tile n).stalledBar k with
  | some (c, x, l, id) =>
    ((s.captureBar n c x l id).updTile n (fun t => { t with barStall := true })).overrunTile n 5 k cyc
  | none => s.overrunTile n 1 k cyc

/-- The entries from the next one to the END, with their indexes: none once the list has ended. -/
def State.unissued (s : State) (n : Nat) : List (Nat × WlEntry) :=
  if s.rd (pgTil n) Reg.tilState = 2 then [] else ((List.range 4096).drop (s.nextEntry n)).foldr (fun k r => match s.entryAt n k with
    | none => []
    | some e => if !e.bad && e.kind = 0 then [] else (k, e) :: r) []

/-- The first entry not issued whose deadline has come; a poisoned word is never used, so it has no deadline (R98, R753). -/
def State.lateEntry (s : State) (n cyc : Nat) : Option (Nat × WlEntry) :=
  (s.unissued n).find? (fun e => !e.2.bad && decide (e.2.deadline s.cycleB ≤ cyc))

/-- What a deadline at a cycle finds not complete, as the highest kind and its entry (R98, R99); of several entries of one
kind, the first in the order of the list (the spec names none; notes/assumptions/64.md). -/
def State.lateAt (s : State) (n cyc : Nat) : State :=
  let late := s.lateEntry n cyc
  if (s.tile n).overrun && !(s.tile n).stopsAt cyc then s
  else
    match (s.tile n).resident.filter (fun r => r.2 ≤ cyc) with
    | (k, _) :: rest =>
      let all := k :: rest.map (fun r => r.1)
      match all.find? (fun k => ((s.tile n).stalledBar k).isSome) with
      | some k => s.lateLaunch n k cyc
      | none =>
        match late with
        | some (j, e) => s.overrunTile n (if e.deadline s.cycleB < s.cycleB then 2 else 3) j cyc
        | none => s.lateLaunch n k cyc
    | [] =>
      match late with
      | some (j, e) => s.overrunTile n (if e.deadline s.cycleB < s.cycleB then 2 else 3) j cyc
      | none => s

/-- ENTRY_DEADLINE: the local cycle reaches an effective deadline before B (R98). -/
def execEntryDeadline (tile : Fin 160) (cyc : BitVec 32) (s : State) : Host.Outcome State Fault Refusal :=
  answer (s.inCycle tile cyc.toNat (fun s =>
    if s.coreRuns tile || decide (s.rd (pgTil tile) Reg.tilState = 2) then s.lateAt tile cyc.toNat else s))

/-- At B: entries not complete, entries not issued, and a disabled tile with work (R98, R99, R102). -/
def State.tileAtB (s : State) (n : Nat) : State :=
  if !s.flag (pgTil n) Reg.ctrlEnable then
    match s.entryAt n 0 with
    | some e => if !e.bad && e.kind = 0 then s else s.overrunTile n 6 0 s.cycleB
    | none => s
  else s.inCycle n s.cycleB (fun s =>
    let left := s.unissued n
    let s1 := s.lateAt n s.cycleB
    match left with
    | (j, _) :: _ => s1.overrunTile n 3 j s.cycleB
    | [] => s1)

end Sys2Proof.Machine
end

