-- ==== Sys2Proof/Machine/PlanCheck.lean ====
section
/-! DEFINITION. Plan images and the checks of R471 (spec/13 R449 to R472). -/
namespace Sys2Proof.Machine

/-! ## The image (R451 to R453) -/

/-- A little-endian field of an image. -/
def imgN (img : List Byte) (o n : Nat) : Nat := leNat (recPart img o n)

/-- A directory entry with its index (R452). -/
structure Sect where
  index : Nat
  type : Nat
  rsv : Nat
  off : Nat
  len : Nat
  target : Nat
  deriving DecidableEq, Repr

def imgDir (img : List Byte) : List Sect :=
  (List.range (imgN img 0x10 2)).map (fun i =>
    let o := 0x200 + 32 * i
    { index := i, type := imgN img o 2, rsv := imgN img (o + 2) 6, off := imgN img (o + 8) 8,
      len := imgN img (o + 16) 8, target := imgN img (o + 24) 8 })

def Sect.body (e : Sect) (img : List Byte) : List Byte := recPart img e.off e.len

/-- The body of the section of a type; empty when there is none. -/
def bodyOf (img : List Byte) (t : Nat) : List Byte :=
  match (imgDir img).find? (fun e => e.type = t) with
  | some e => e.body img
  | none => []

/-- Reserved runs of the header: offset and size. -/
def headerReserved : List (Nat × Nat) := [(0x44, 12), (0xF4, 12), (0x13A, 198)]

/-- The header obeys R451; its length field equals the length that the command names. -/
def headerOk (img : List Byte) (len : Nat) : Bool :=
  decide (imgN img 0 4 = 0x0C44504C) && decide (imgN img 4 2 = 1) && decide (imgN img 6 2 < 8) &&
  decide (imgN img 8 8 = len) && decide (8 ≤ imgN img 0x10 2) && decide (imgN img 0x10 2 ≤ 64) &&
  decide (0x200 + 32 * imgN img 0x10 2 ≤ len) && headerReserved.all (fun r => decide (imgN img r.1 r.2 = 0))

/-- The types of sections beside HLOAD. -/
def oneTypes : List Nat := [2, 3, 4, 5, 6, 0x10, 0x11, 0x12]

/-- The body length that a type asks for (R453). -/
def bodyLenOk (img : List Byte) (e : Sect) : Bool :=
  match e.type with
  | 1 => decide (e.len % 64 = 0)
  | 2 => decide (e.len % 32 = 0) && decide (1 ≤ e.len / 32) && decide (e.len / 32 ≤ 4096)
  | 3 => decide (e.len % 8 = 0) && decide (e.len / 8 ≤ 2880)
  | 4 => decide (e.len = 8 * imgN img 0x14 1)
  | 5 => decide (e.len = 1280)
  | 6 => decide (e.len = imgN img 0x12 2) && (e.body img).all (fun b => decide (b.toNat < 2))
  | 0x10 => decide (e.len = 160 * 2048)
  | 0x11 => decide (e.len = 160 * 4096)
  | 0x12 => decide (e.len = 144 * 1024)
  | _ => false

/-- A directory entry obeys R452 and R453 beside those before it. -/
def sectOk (img : List Byte) (prev : List Sect) (e : Sect) : Bool :=
  decide (e.rsv = 0) && decide (e.off % 64 = 0) && decide (0x200 + 32 * imgN img 0x10 2 ≤ e.off) &&
  decide (e.off + e.len ≤ imgN img 8 8) && bodyLenOk img e &&
  (if e.type = 1 then decide (e.target % 64 = 0) && decide ((prev.filter (fun x => x.type = 1)).length < 48)
    else decide (e.target = 0) && prev.all (fun x => decide (x.type ≠ e.type))) &&
  prev.all (fun x => decide (e.len = 0) || decide (x.len = 0) || decide (e.off + e.len ≤ x.off) || decide (x.off + x.len ≤ e.off))

/-- Step 2 of R471: the DETAIL of its failure. -/
def checkFormat (img : List Byte) (len : Nat) : Option Nat :=
  if !headerOk img len then some 0xFFFF
  else
    let dir := imgDir img
    match dir.find? (fun e => !sectOk img (dir.take e.index) e) with
    | some e => some e.index
    | none => if oneTypes.all (fun t => dir.any (fun e => e.type = t)) then none else some 0xFFFF

/-- Step 3 of R471: the header offset of a field out of range (R14, R241, R459). -/
def checkRanges (img : List Byte) : Option Nat :=
  let f := fun (o n : Nat) => imgN img o n
  if f 0x18 4 < 16384 then some 0x18
  else if f 0x12 2 = 0 ∨ 4096 < f 0x12 2 then some 0x12
  else if f 0x15 1 < 4 ∨ 9 < f 0x15 1 then some 0x15
  else if f 0x1C 4 % 32 ≠ 0 ∨ f 0x1C 4 < 32 ∨ 131072 < f 0x1C 4 then some 0x1C
  else if 64 < ((List.range 4).map (fun i => f (0x3C + i) 1 % 64)).foldl (· + ·) 0 then some 0x3C
  else none

/-- Every n-byte piece of a body. -/
def pieces (n : Nat) : Nat → List Byte → List (List Byte)
  | 0, _ => []
  | k + 1, l => l.take n :: pieces n k (l.drop n)

def bodyPieces (n : Nat) (l : List Byte) : List (List Byte) := pieces n (l.length / n) l

def regionOf (b : List Byte) : Region :=
  { id := imgN b 0 2, kind := imgN b 2 1, attr := imgN b 3 1, base := imgN b 8 8, len := imgN b 16 8,
    ck := imgN b 24 8, rsv := imgN b 4 4 }

/-- A pin entry; bits that must be 0 make FIRST or COUNT a value out of range. -/
def pinOf (b : List Byte) : Pin :=
  { part := imgN b 0 1, first := imgN b 1 1, count := imgN b 2 1, region := imgN b 4 2,
    rsv := imgN b 3 1 + imgN b 6 2 }

/-- The plan that an image spells. -/
def planOf (img : List Byte) : Plan :=
  let f := fun (o n : Nat) => imgN img o n
  { flags := f 6 2, imageLen := f 8 8, nphase := f 0x12 2, tiles := f 0x14 1, slices := f 0x15 1, treeId := f 0x16 2,
    period := f 0x18 4, wlStride := f 0x1C 4, seed := f 0x20 8, fill := f 0x28 8, pmapId := f 0x30 4, cmapId := f 0x34 4,
    cxp1Req := f 0x38 2, svcMap := f 0x3A 2, share := f 0x3C 4, guar := f 0x40 4, ucodeHash := recPart img 0x50 48,
    planHash := recPart img 0x80 48, imageHash := recPart img 0xB0 48, tileMap := f 0xE0 20, slowTiles := f 0x100 20,
    slowChan := f 0x114 18, slowSvc := f 0x126 2, narrowChan := f 0x128 18,
    regions := (bodyPieces 32 (bodyOf img 2)).map regionOf, pins := (bodyPieces 8 (bodyOf img 3)).map pinOf,
    wldir := (bodyPieces 8 (bodyOf img 4)).map leNat, dmadir := (bodyPieces 8 (bodyOf img 5)).map leNat,
    phases := (bodyOf img 6).map BitVec.toNat, rtab := bodyOf img 0x10, hframe := bodyOf img 0x11, cframe := bodyOf img 0x12,
    hloads := ((imgDir img).filter (fun e => e.type = 1)).map (fun e => (e.index, e.target, e.body img)), starts := [] }

/-! ## Hashes (R450) -/

/-- A byte string with a run set to zero. -/
def zeroRun (l : List Byte) (r : Nat × Nat) : List Byte := l.take r.1 ++ List.replicate r.2 0 ++ l.drop (r.1 + r.2)

/-- The placement fields of the header, PLAN_HASH and IMAGE_HASH: offset and size. -/
def placementFields : List (Nat × Nat) :=
  [(0x08, 8), (0x38, 2), (0x3A, 2), (0x3C, 4), (0x40, 4), (0x80, 48), (0xB0, 48), (0xE0, 20), (0x100, 20), (0x114, 18),
   (0x126, 2), (0x128, 18)]

/-- The plan hash of an image. -/
def planHashOf (img : List Byte) : List Byte :=
  let logical := (imgDir img).filter (fun e => e.type < 0x10)
  Hash.sha384 (placementFields.foldl zeroRun (recPart img 0 512) ++
    logical.flatMap (fun e => recPart img (0x200 + 32 * e.index) 32) ++ logical.flatMap (fun e => e.body img))

/-- The image hash. -/
def imageHashOf (img : List Byte) : List Byte := Hash.sha384 (zeroRun img (0xB0, 48))

/-! ## Checks against the module (steps 4 to 12) -/

/-- The lowest bit at which two maps differ. -/
def lowestDiff (n a b : Nat) : Option Nat := (List.range n).find? (fun i => decide (bitAt a i ≠ bitAt b i))

/-- Step 10: a slow port that the tolerance set does not name. -/
def State.slowPort (s : State) (p : Plan) : Option Nat :=
  match (List.range s.liveTiles.length).find? (fun l => decide (s.portNow (s.physOf l) 0 = 1) && !bitAt p.slowTiles l) with
  | some l => some l
  | none =>
    match (List.range 144).find? (fun c => decide (s.portNow (256 + c / 9) (c % 9) = 1) && !bitAt p.slowChan c) with
    | some c => some (0x100 + c)
    | none => ((List.range 16).find? (fun k => decide (s.portNow (256 + k) 9 = 1) && !bitAt p.slowSvc k)).map (0x200 + ·)

/-- Step 11: a narrow channel that the plan does not name. -/
def State.narrowPort (s : State) (p : Plan) : Option Nat :=
  s.liveChans.find? (fun c => decide (s.rd (pgGdc c) Reg.gdcStatePstate = 1) && !bitAt p.narrowChan c)

/-- Step 12: CXP1 has trained as wide and as fast as the plan needs. -/
def State.cxp1Ok (s : State) (p : Plan) : Bool :=
  decide (p.cxp1Req / 256 = 0) ||
  (decide (s.rd (pgCxp 1) Reg.cxpLinkMode ≠ 0) && decide (p.cxp1Req / 256 ≤ s.rd (pgCxp 1) Reg.cxpLinkWidth) &&
    decide (p.cxp1Req % 256 ≤ s.rd (pgCxp 1) Reg.cxpLinkRate))

/-! ## Pins (steps 13 to 15) -/

/-- Banks of a partition in service, as a mask. -/
def State.banksOk (s : State) (n : Nat) : Nat :=
  if 160 ≤ n ∨ s.flag (pgHrt n) Reg.statFenced then 0 else 2 ^ 24 - 1 - s.rd (pgHrt n) Reg.hrtRetmaskRetired

/-- The banks of a pin: partition × 32 + bank. -/
def Pin.banks (p : Pin) : List Nat := (List.range p.count).map (fun i => 32 * p.part + p.first + i)

def pinnedBanks (l : List Pin) : List Nat := l.flatMap Pin.banks

/-- A pin entry obeys R457 for its region of KIND 0, and is the only one of it. -/
def pinOk (p : Plan) (i : Nat) (e : Pin) : Bool :=
  decide (e.rsv = 0) && decide (e.part < 160) && decide (e.first < 24) && decide (1 ≤ e.count) && decide (e.count ≤ 18) &&
  decide (e.first + e.count ≤ 24) && (p.pins.take i).all (fun x => decide (x.region ≠ e.region)) &&
  p.regions.any (fun r => decide (r.id = e.region) && decide (r.kind = 0) &&
    decide (r.base = e.part * 2 ^ 24 + e.first * 2 ^ 19) && decide (r.len ≤ e.count * 524288))

/-- Step 13: pins obey R457 and the pin limit floor(0.75 × b) (R313). -/
def State.checkPins (s : State) (p : Plan) : Option Nat :=
  match (p.pins.zipIdx).find? (fun e => !pinOk p e.2 e.1) with
  | some e => some e.1.part
  | none =>
    match p.regions.find? (fun r => decide (r.kind = 0) && p.pins.all (fun e => decide (e.region ≠ r.id))) with
    | some r => some (r.base / 2 ^ 24 % 256)
    | none => (List.range 160).find? (fun n =>
        let l := p.pins.filter (fun e => e.part = n)
        decide (3 * popCount 24 (s.banksOk n) / 4 < (l.map Pin.count).foldl (· + ·) 0))

/-- Step 14: a pin of a retired bank, or one that overlaps another. -/
def State.checkBanks (s : State) (p : Plan) : Option Nat :=
  ((p.pins.zipIdx).find? (fun e =>
    let l := e.1.banks
    l.any (fun k => !bitAt (s.banksOk (k / 32)) (k % 32)) ||
    (pinnedBanks (p.pins.take e.2)).any l.contains)).map (fun e => e.1.part)

/-- The banks that a hearth extent touches. -/
def extentBanks (a n : Nat) : List Nat :=
  if n = 0 then []
  else (List.range ((a + n - 1) / 2 ^ 19 + 1 - a / 2 ^ 19)).map (fun i =>
    let b := a / 2 ^ 19 + i
    32 * (b / 32) + b % 32)

/-- Step 15: an HLOAD outside a hearth region, or in a bank that R472 excludes. -/
def State.checkHload (s : State) (p : Plan) : Option Nat :=
  let taken := match s.plans.active with
    | some q => if s.rd pgStk Reg.stkState = 0 then [] else pinnedBanks q.pins
    | none => []
  (p.hloads.find? (fun h =>
    let n := h.2.2.length
    let l := extentBanks h.2.1 n
    !(p.regions.any (fun r => r.kind = 0 && r.holds h.2.1 n)) ||
    l.any (fun k => !(pinnedBanks p.pins).contains k || taken.contains k))).map (fun h => h.1)

/-! ## Regions (steps 16 and 17) -/

/-- Bytes of the near window (R391, R396). -/
def State.nearLen (s : State) : Nat :=
  let l := s.liveChans
  512 * l.length * (match l with | c :: _ => s.rd (pgGdc c) Reg.gdcRowsUsable | [] => 0)

/-- A region lies inside the window of its kind (R391, R455). -/
def State.regionInWindow (s : State) (r : Region) : Bool :=
  let last := r.base + r.len
  match r.kind with
  | 0 => decide (r.base < hearthEnd) && decide (r.base % 2 ^ 24 + r.len ≤ 24 * 2 ^ 19)
  | 1 => decide (nearBase ≤ r.base) && decide (last ≤ nearBase + s.nearLen)
  | 2 =>
    let slot := farSlot r.base
    decide (farBase ≤ r.base) && decide (slot < 8) && decide (last ≤ farBase + (slot + 1) * farStride) &&
    (decide (s.rd (pgFar slot) Reg.farState ≠ 2) ||
      decide (last ≤ farBase + slot * farStride + s.rd (pgFar slot) Reg.farCap))
  | _ => false

/-- A region entry obeys R454 and R455 beside those before it. -/
def State.regionOk (s : State) (p : Plan) (i : Nat) (r : Region) : Bool :=
  let prev := p.regions.take i
  decide (r.id ≠ 0) && decide (r.kind ≤ 2) && !bitAt r.attr 7 && decide (r.rsv = 0) && decide (r.base % 64 = 0) &&
  decide (r.len % 64 = 0) && decide (r.len ≠ 0) && s.regionInWindow r &&
  prev.all (fun x => decide (x.id ≠ r.id) && (decide (r.base + r.len ≤ x.base) || decide (x.base + x.len ≤ r.base))) &&
  (decide (bitsAt r.attr 2 3 = 0) || (decide (r.kind = 0) && !bitAt r.attr 1)) &&
  (!bitAt r.attr 2 || prev.all (fun x => !bitAt x.attr 2)) &&
  (if bitAt r.attr 5 then decide (r.kind ≤ 1) && decide (r.base % 65536 = 0) && decide (r.len % 65536 = 0) &&
      p.regions.any (fun x => decide (x.kind = 2) && x.holds r.ck (2 * r.len))
    else decide (r.ck = 0)) &&
  (!bitAt r.attr 6 || (decide (r.kind = 2) && decide (128 ≤ r.len) && prev.all (fun x => !bitAt x.attr 6)))

/-- Step 16: regions obey R455. -/
def State.checkRegions (s : State) (p : Plan) : Option Nat :=
  match (p.regions.zipIdx).find? (fun e => !s.regionOk p e.2 e.1) with
  | some e => some e.2
  | none =>
    if p.regions.any (fun r => bitAt r.attr 2) ∧
       (p.regions.any (fun r => bitAt r.attr 6) ∨ !p.regions.any (fun r => bitAt r.attr 5)) then none
    else some 0xFFFF

/-- Step 17: a far region whose slot is not ready. -/
def State.checkFar (s : State) (p : Plan) : Option Nat :=
  ((p.regions.filter (fun r => r.kind = 2)).find? (fun r => decide (s.rd (pgFar (farSlot r.base)) Reg.farState ≠ 2))).map
    (fun r => farSlot r.base)

/-! ## Slot tables (steps 18 and 19) -/

/-- The selectors of a router entry: north, east, south, west, tile. -/
def selectors (v : Nat) : List Nat := (List.range 5).map (fun k => bitsAt v (3 * k) 3)

/-- The link of a direction leads off the mesh at a tile: 0 north, 1 east, 2 south, 3 west (R462). -/
def offMesh (n k : Nat) : Bool :=
  match k with
  | 0 => n % 10 = 0
  | 1 => n / 10 = 15
  | 2 => n % 10 = 9
  | 3 => n / 10 = 0
  | _ => false

/-- A router entry obeys R462. -/
def routerOk (n v : Nat) : Bool :=
  let l := selectors v
  let used := l.filter (· ≠ 7)
  decide (v < 2 ^ 15) && used.all (fun x => decide (x < 5) && !offMesh n x) && decide (used.eraseDups.length = used.length) &&
  (l.zipIdx).all (fun e => decide (e.1 = 7) || !offMesh n e.2)

/-- Step 18: a physical tile whose router table breaks R462. -/
def checkRouters (p : Plan) : Option Nat :=
  (((bodyPieces 2048 p.rtab).zipIdx).find? (fun t =>
    !(bodyPieces 2 t.1).all (fun e => routerOk t.2 (leNat e)))).map (fun t => t.2)

/-- Row slots per cell of a channel by its pin rate, x32 or narrow (R400). -/
def rowSlots (speed : Nat) (narrow : Bool) : Nat :=
  if narrow then [1, 1, 2, 2].getD speed 1 else [3, 3, 4, 5].getD speed 3

/-- A channel frame obeys R465. -/
def State.chanFrameOk (s : State) (p : Plan) (c : Nat) (l : List Byte) : Bool :=
  let slots := rowSlots (s.rd (pgGdc c) Reg.gdcStateSpeed)
    (bitAt p.narrowChan c || decide (s.rd (pgGdc c) Reg.gdcStatePstate = 1))
  (l.zipIdx).all (fun e => decide (e.1.toNat < 2 ^ slots) && (decide (e.2 % 16 ≠ 15) || decide (e.1 = 0)))

/-- Step 19: a partition frame or a channel frame that is not valid (R464, R465). -/
def State.checkFrames (s : State) (p : Plan) : Option Nat :=
  match ((bodyPieces 4096 p.hframe).zipIdx).find? (fun t =>
      !(bodyPieces 4 t.1).all (fun e => decide (leNat e &&& s.banksOk t.2 = leNat e))) with
  | some t => some t.2
  | none =>
    ((bodyPieces 1024 p.cframe).zipIdx).findSome? (fun t =>
      match s.liveChans[t.2]? with
      | some c => if s.chanFrameOk p c t.1 then none else some (0x100 + c)
      | none => if t.1.all (fun b => decide (b = 0)) then none else some (0x200 + t.2))

/-! ## Steps 4 to 19 -/

/-- The steps against the module's shape, in order: code and DETAIL of each failure. Step 15 is left out for
the active plan (R475). -/
def State.shapeSteps (s : State) (p : Plan) (isActive : Bool) : List (Nat × Option Nat) :=
  let live := s.liveTiles
  let cond := fun (b : Bool) (d : Nat) => if b then none else some d
  [(0x23, cond (p.ucodeHash == s.record.ucodeHash) 0),
   (0x24, cond (decide (p.tiles = live.length) && decide (p.treeId = 0x100 + p.tiles)) live.length),
   (0x25, lowestDiff 160 p.tileMap (maskOf live)),
   (0x26, cond (decide (p.cmapId = s.cmapId)) 0),
   (0x27, cond (decide (p.pmapId = s.pmapId)) 0),
   (0x28, lowestDiff 16 p.svcMap s.svcMap),
   (0x31, s.slowPort p),
   (0x32, s.narrowPort p),
   (0x33, cond (s.cxp1Ok p) 0),
   (0x29, s.checkPins p),
   (0x2A, s.checkBanks p),
   (0x2B, if isActive then none else s.checkHload p),
   (0x2C, s.checkRegions p),
   (0x34, s.checkFar p),
   (0x2F, checkRouters p),
   (0x30, s.checkFrames p)]

/-- The first failure of steps 4 to 19. -/
def State.checkShape (s : State) (p : Plan) (isActive : Bool) : Option (Nat × Nat) :=
  (s.shapeSteps p isActive).findSome? (fun e => e.2.map (fun d => (e.1, d)))

/-- The first failure of steps 1 to 20 for an image read. -/
def State.checkImage (s : State) (img : List Byte) (len : Nat) (readErr : Bool) : Option (Nat × Nat) :=
  if readErr then some (0x36, 0)
  else match checkFormat img len with
    | some d => some (0x20, d)
    | none => match checkRanges img with
      | some d => some (0x35, d)
      | none => match s.checkShape (planOf img) false with
        | some e => some e
        | none =>
          if imageHashOf img ≠ recPart img 0xB0 48 then some (0x21, 0)
          else if planHashOf img ≠ recPart img 0x80 48 then some (0x22, 0)
          else none

/-! ## Contents at the latch, and the lists (R316, R459 to R461, R473; steps 21 and 22) -/

/-- The region that a list of pins gives a bank. -/
def bankRegion (l : List Pin) (k : Nat) : Option Nat := (l.find? (fun e => e.banks.contains k)).map Pin.region

/-- A row that an HLOAD section of the plan writes (R473). -/
def Plan.loadsRow (p : Plan) (a : Nat) : Bool :=
  p.hloads.any (fun h => decide (h.2.2.length ≠ 0) && decide (h.2.1 / 512 ≤ a / 512) &&
    decide (a / 512 ≤ (h.2.1 + h.2.2.length - 1) / 512))

/-- A hearth address keeps its contents when the plan latches (R316, R473). -/
def State.keptAt (s : State) (p : Plan) (a : Nat) : Bool :=
  let k := 32 * (a / 2 ^ 24) + a / 2 ^ 19 % 32
  match bankRegion p.pins k with
  | none => false
  | some r => decide (bankRegion s.plans.pins k = some r) || p.loadsRow a

/-- A 64-bit word of the hearth as it will read when the plan has latched, and its poison. -/
def State.planWord (s : State) (p : Plan) (a : Nat) : Nat × Bool :=
  if s.keptAt p a then (s.natAt a 8, s.badAt a) else (0, false)

/-- The words of an extent, and whether any is poisoned. -/
def State.planWords (s : State) (p : Plan) (a n : Nat) : List Nat × Bool :=
  let l := (List.range n).map (fun i => s.planWord p (a + 8 * i))
  (l.map (fun e => e.1), l.any (fun e => e.2))

/-- An extent inside a region with an attribute. -/
def Plan.inAttr (p : Plan) (b a n : Nat) : Bool := p.regions.any (fun r => bitAt r.attr b && r.holds a n)

/-- A work list from an address obeys R459: `left` entries to the end of its stride. -/
def State.workListOk (s : State) (p : Plan) : Nat → Nat → Bool
  | 0, _ => true
  | left + 1, a =>
    let w := s.planWords p a 4
    let e : WlEntry := { w0 := w.1.getD 0 0, w1 := w.1.getD 1 0, pc := w.1.getD 2 0, arg := w.1.getD 3 0, bad := w.2 }
    p.inAttr 3 a 32 && !e.bad && e.valid (p.period - 2048) && (decide (e.kind = 0) || s.workListOk p left (a + 32))

/-- Step 21: a logical tile whose work lists break R459. -/
def State.checkWorkLists (s : State) (p : Plan) : Option Nat :=
  (List.range p.tiles).find? (fun l => !(List.range p.nphase).all (fun ph =>
    s.workListOk p (min 4096 (p.wlStride / 32)) (p.wldir.getD l 0 + ph * p.wlStride)))

/-- A planned DMA descriptor is valid (R460, R461); `prev` is the START before it. -/
def Plan.dmaOk (p : Plan) (ws : List Nat) (prev : Nat) : Bool :=
  let w := fun (i : Nat) => ws.getD i 0
  let len := bitsAt (w 0) 0 32
  let start := bitsAt (w 0) 32 32
  decide (start < p.period - 2048) && decide (prev ≤ start) && decide (len % 64 = 0) && decide (w 1 % 64 = 0) &&
  decide (w 2 % 64 = 0) && decide (bitsAt (w 3) 50 2 ≠ 3) && decide (bitsAt (w 3) 0 50 = 0) &&
  (decide (bitsAt (w 3) 56 8 = 0xFF) || decide (bitsAt (w 3) 56 8 < p.tiles)) &&
  p.regions.any (fun r => r.holds (w 1) len) && p.regions.any (fun r => r.holds (w 2) len && !bitAt r.attr 2)

/-- A DMA list from an address obeys R460 and R461. -/
def State.dmaListOk (s : State) (p : Plan) : Nat → Nat → Nat → Bool
  | 0, _, _ => true
  | left + 1, a, prev =>
    let w := s.planWords p a 4
    p.inAttr 4 a 32 && !w.2 &&
      (decide (bitsAt (w.1.getD 0 0) 0 32 = 0) ||
        (p.dmaOk w.1 prev && s.dmaListOk p left (a + 32) (bitsAt (w.1.getD 0 0) 32 32)))

/-- Step 22: a partition whose DMA lists break R460 or R461. -/
def State.checkDmaLists (s : State) (p : Plan) : Option Nat :=
  (List.range 160).find? (fun n =>
    decide (p.dmadir.getD n 0 ≠ 0) && !(List.range p.nphase).all (fun ph =>
      s.dmaListOk p 4096 (p.dmadir.getD n 0 + ph * 131072) 0))

/-- The first failure of steps 21 and 22. -/
def State.checkLists (s : State) (p : Plan) : Option (Nat × Nat) :=
  match s.checkWorkLists p with
  | some l => some (0x2D, l)
  | none => (s.checkDmaLists p).map (fun n => (0x2E, n))

end Sys2Proof.Machine
end

