-- ==== Sys2Proof/Machine/StokeUnit.lean ====
section
/-! DEFINITION. The stoke unit's commands, the pulse on STOKE_SYNC_IN, and partner replay notices
(spec/01 R17, R20 to R25, R36 to R43, R50, R51). The boundary itself is in Machine/Boundary.lean. -/
namespace Sys2Proof.Machine

/-- Change the stoke unit. -/
def State.updStoke (s : State) (f : StokeUnit → StokeUnit) : State := { s with stoke := f s.stoke }

/-- A write to an RWS field lands in its shadow and waits for the latch point (spec/02 R60 to R62). -/
def State.setShadow (s : State) (p : Page) (f : Fld) (v : Nat) : State :=
  ({ s with shadow := SMap.ins s.shadow (regKey p f) (v % 2 ^ f.width) }).wr p Reg.statShadowPend 1

/-! ## STK_CMD and STK_PERIOD (R17, R43, R50, R51, R555) -/

/-- A plan is staged (spec/13 R474). -/
def State.stagedOk (s : State) : Bool :=
  match s.plans.staging with
  | some g => g.stage = 4
  | none => false

/-- STK_START: waits for the next replay decision (R51); in IDLE with no plan staged it is refused with code
0x3A (R477). -/
def State.cmdStart (s : State) : State :=
  if s.rd pgStk Reg.stkState = 0 ∧ !s.stagedOk then s.err pgStk 0x3A 0
  else s.updStoke (fun u => { u with startCmd := true })
/-- STK_STOP. -/
def State.cmdStop (s : State) : State := s.updStoke (fun u => { u with stopCmd := true })
/-- STK_RESUME; in SPLIT it waits for the exchange of READY (R555). -/
def State.cmdResume (s : State) : State :=
  if s.pairEn ∧ s.pstate = 3 then s.splitResume else s.updStoke (fun u => { u with resumeCmd := true })

def execStkStart (s : State) : Host.Outcome State Fault Refusal := answer s.cmdStart
def execStkStop (s : State) : Host.Outcome State Fault Refusal := answer s.cmdStop
def execStkResume (s : State) : Host.Outcome State Fault Refusal := answer s.cmdResume

/-- STK_QUENCH: the host quenches the stoke (R41, R43). -/
def execStkQuench (cyc : BitVec 32) (s : State) : Host.Outcome State Fault Refusal :=
  answer ((s.atCycle cyc.toNat).quench 3 false)

/-- One write to STK_CMD: QUENCH acts first, then STOP; other bits of a write of several are ignored (R50). -/
def State.stkCmd (s : State) (v : Nat) : State :=
  let v := v % 16
  let s1 := if bitAt v 2 then s.quench 3 false else s
  if bitAt v 1 then s1.cmdStop
  else if v = 1 then s1.cmdStart
  else if v = 8 then s1.cmdResume
  else s1

/-- STK_PERIOD takes at least 16,384 (R17). -/
def State.periodWrite (s : State) (v : Nat) : State :=
  let s1 := s.setShadow pgStk Reg.stkPeriod (max 16384 v)
  if v < 16384 then s1.setCause pgStk Reg.causeStkPeriodClamp else s1

def execStkPeriodWrite (value : BitVec 32) (s : State) : Host.Outcome State Fault Refusal :=
  answer (s.periodWrite value.toNat)

/-! ## STOKE_SYNC (R21 to R25) -/

/-- The follower role (R50: the reserved codes are leaders). -/
def State.follower (s : State) : Bool := s.rd pgStk Reg.stkCtrlSyncMode = 1

/-- LOSS_N consecutive stokes without a counted edge set SYNC_LOST (R25). -/
def State.syncLossCheck (s : State) : State :=
  if s.follower ∧ max 1 (s.rd pgStk Reg.stkSyncCfgLossN) ≤ s.stoke.noEdge ∧ !s.flag pgStk Reg.stkStateSyncLost then
    (s.wr pgStk Reg.stkStateSyncLost 1).setCause pgStk Reg.causeStkSyncLost
  else s

/-- STOKE_SYNC_IN_EDGE: the first edge of a stoke counts and clears SYNC_LOST; further ones are counted as
extra (R22, R24, R25). A leader does not look at the pin: no edge of its stokes is latched or counted, also not of the stoke at
whose latch point it becomes a follower (notes/assumptions/64.md). -/
def execStokeSyncInEdge (cycle : BitVec 32) (s : State) : Host.Outcome State Fault Refusal :=
  answer (if !s.follower then s
    else
      match s.stoke.edge with
      | some _ => s.bump pgStk Reg.stkSyncMissExtra 1
      | none => (s.updStoke (fun u => { u with edge := some cycle.toNat })).wr pgStk Reg.stkStateSyncLost 0)

/-- SYNC_WIN_EXPIRY: no edge within SYNC_WIN of the period: the next stoke starts on the own count (R23). -/
def execSyncWinExpiry (s : State) : Host.Outcome State Fault Refusal :=
  answer (if s.follower ∧ s.stoke.edge = none ∧ !s.stoke.ownStart then
      ((s.updStoke (fun u => { u with ownStart := true })).bump pgStk Reg.stkSyncMiss 1).setCause pgStk
        Reg.causeStkSyncMiss
    else s)

/-- SYNC_LOSS (R25). -/
def execSyncLoss (s : State) : Host.Outcome State Fault Refusal := answer s.syncLossCheck

/-! ## Partner replay notices (R36, R39, R40) -/

/-- A notice comes too late to be mirrored: the pair logic is told (R36, R549). -/
def State.noticeLate (s : State) : State :=
  (s.updStoke (fun u => { u with lateNotice := s.pairEn })).setCause pgStk Reg.causeStkPairReplayLate

/-- A notice for a stoke of a plan that is not marked replayable is not mirrored (R33, R50); no replay can bring the modules
into step, so the pair logic gives no notice of its own (notes/assumptions/63.md). -/
def State.noticeUnfit (s : State) : State := s.setCause pgStk Reg.causeStkPairReplayLate

/-- A partner notice for a work stoke arrives. A notice for the work stoke being replayed is absorbed until B, where the next
notice can only concern the run that ends; an ignored notice concerns no register, so the DETAIL of its capture is 0
(R36, R39; notes/assumptions/64.md). -/
def State.partnerNotice (s : State) (w : Nat) : State :=
  let own := s.rd pgStk Reg.stkWork
  let u := s.stoke
  let replaysIt := u.replaying && decide (w = own)
  if !s.flag pgStk Reg.stkCtrlPairReplay then s
  else if u.phase = .cutoff ∨ (Phase.latched.rank ≤ u.phase.rank ∧ u.latched) then
    if replaysIt ∨ (s.rd pgStk Reg.stkState = 2 ∧ u.nextWork = w) then s else s.noticeLate
  else if replaysIt ∧ u.phase = .work then s
  else if w < own then s.noticeLate
  else if w = own ∧ !u.working then s.err pgStk 0x03 0
  else s.updStoke (fun u => { u with notice := some w })

end Sys2Proof.Machine
end

