-- ==== Sys2Proof/Machine/Rings.lean ====
section
/-! DEFINITION. Feed queues: rings, doorbells, completions and their vectors (spec/17 R580 to R583, R596). -/
namespace Sys2Proof.Machine

/-- Queue blocks 0 to 4. -/
def queueOk (q : Nat) : Bool := q < 5

def State.queue (s : State) (q : Nat) : Queue := SMap.getD s.feed.queues q Queue.empty
def State.updFeed (s : State) (f : Feed → Feed) : State := { s with feed := f s.feed }
def State.updQueue (s : State) (q : Nat) (f : Queue → Queue) : State :=
  s.updFeed (fun d => { d with queues := SMap.modD d.queues q Queue.empty f })

def State.sqSize (s : State) (q : Nat) : Nat := 2 ^ s.rd (pgFq q) Reg.fqSizeSqLog
def State.cqSize (s : State) (q : Nat) : Nat := 2 ^ s.rd (pgFq q) Reg.fqSizeCqLog
def State.queueOn (s : State) (q : Nat) : Bool := s.flag (pgFq q) Reg.fqStateEn && !s.flag (pgFq q) Reg.fqStateErr

/-! ## Errors (R581) -/

/-- A queue stops with an error; vector 53 signals it (R581, R596). -/
def State.queueErr (s : State) (q : Nat) : State := (s.wr (pgFq q) Reg.fqStateErr 1).queueVector 53

/-- The sizes and bases that EN needs (R581). -/
def State.queueSizesOk (s : State) (q : Nat) : Bool :=
  let lg := fun (x : Nat) => decide (4 ≤ x) && decide (x ≤ 12)
  lg (s.rd (pgFq q) Reg.fqSizeCqLog) && decide (s.rd (pgFq q) Reg.fqCqBase % 64 = 0) &&
  (decide (q = 4) || (lg (s.rd (pgFq q) Reg.fqSizeSqLog) && decide (s.rd (pgFq q) Reg.fqSqBase % 64 = 0)))

/-! ## Completions (R582, R596) -/

/-- Entries of a completion ring that the host has not read. -/
def State.cqUnread (s : State) (q : Nat) : Nat :=
  let n := s.cqSize q
  (s.rd (pgFq q) Reg.fqStateCqTail + n - (s.queue q).cqHead % n) % n

/-- The next completion slot, and the phase bit that inverts at each pass. -/
def State.cqAdvance (s : State) (q : Nat) : State :=
  let t := s.rd (pgFq q) Reg.fqStateCqTail + 1
  if t < s.cqSize q then s.wr (pgFq q) Reg.fqStateCqTail t
  else (s.wr (pgFq q) Reg.fqStateCqTail 0).updQueue q (fun x => { x with phase := !x.phase })

/-- Write a completion entry of blocks 0 to 3, and signal its vector. -/
def State.postEntry (s : State) (q : Nat) (c : Completion) : State :=
  let bytes := leBytes 2 c.tag ++ leBytes 2 (s.rd (pgFq q) Reg.fqStateSqHead) ++ leBytes 4 c.status ++
    leBytes 7 c.value ++ leBytes 1 (b2n (s.queue q).phase)
  ((s.emit (.completion q (s.rd (pgFq q) Reg.fqStateCqTail) bytes)).cqAdvance q).queueVector (48 + q)

/-- Post a completion, or hold it while the ring is full or older ones are held. -/
def State.complete (s : State) (q tag status value : Nat) : State :=
  let c : Completion := { tag := tag, status := status, value := value }
  if (s.queue q).held ≠ [] ∨ s.cqSize q ≤ s.cqUnread q + 1 then
    s.updQueue q (fun x => { x with held := x.held ++ [c] })
  else s.postEntry q c

/-- Completions that were held and now find room. -/
def State.flushHeld (s : State) (q : Nat) : State :=
  (s.queue q).held.foldl (fun s c => s.complete q c.tag c.status c.value) (s.updQueue q (fun x => { x with held := [] }))

/-- A write of STATE.EN: it starts a queue with empty rings, so that completions held find room, or stops it and clears ERR (R581, R582). -/
def State.queueEnable (s : State) (q : Nat) (en : Bool) : State :=
  let p := pgFq q
  if !en then s.wrs p [(Reg.fqStateEn, 0), (Reg.fqStateErr, 0)]
  else if s.flag p Reg.fqStateEn then s
  else
    let s1 := (s.wrs p [(Reg.fqStateEn, 1), (Reg.fqStateSqHead, 0), (Reg.fqStateCqTail, 0)]).updQueue q
      (fun x => { x with unread := [], cqHead := 0, phase := true })
    if s1.queueSizesOk q then s1.flushHeld q else s1.queueErr q

/-- QUEUE_ENABLE. -/
def execQueueEnable (q : Fin 5) (en : Bool) (s : State) : Host.Outcome State Fault Refusal :=
  answer (s.queueEnable q en)

/-- A write of CQ_HEAD: it frees entries, re-arms the vector, and messages what is still unread (R581, R596). -/
def State.cqHeadWrite (s : State) (q v : Nat) : State :=
  if s.cqSize q ≤ v then (if s.flag (pgFq q) Reg.fqStateEn then s.queueErr q else s)
  else
    let s1 := ((s.updQueue q (fun x => { x with cqHead := v })).flushHeld q).arm (48 + q)
    if s1.cqUnread q = 0 then s1 else s1.queueVector (48 + q)

/-- CQ_HEAD_DOORBELL. -/
def execCqHeadDoorbell (q : Fin 5) (head : BitVec 12) (s : State) : Host.Outcome State Fault Refusal :=
  answer (s.cqHeadWrite q head.toNat)

/-! ## Commands (R583) -/

def entryOpc (ws : List Nat) : Nat := bitsAt (ws.getD 0 0) 56 8
def entryTag (ws : List Nat) : Nat := bitsAt (ws.getD 0 0) 40 16

/-- An opcode of the table of R583. -/
def opcOk (o : Nat) : Bool := [1, 2, 3, 0x10, 0x20, 0x30].contains o

/-- Commands at the front whose opcode is not valid complete with 0x01 in their turn. -/
def State.skipBadList (s : State) : List SqEntry → State
  | [] => s.updQueue 0 (fun x => { x with cmds := [] })
  | e :: l =>
    if opcOk (entryOpc e.words) then s.updQueue 0 (fun x => { x with cmds := e :: l })
    else (s.complete 0 (entryTag e.words) 0x01 0).skipBadList l

def State.skipBad (s : State) : State := s.skipBadList (s.queue 0).cmds

/-- FQ0 reads every entry that its doorbell offers. -/
def State.readCmds (s : State) : State :=
  if !s.queueOn 0 then s
  else
    let l := (s.queue 0).unread
    ((s.wr (pgFq 0) Reg.fqStateSqHead ((s.rd (pgFq 0) Reg.fqStateSqHead + l.length) % s.sqSize 0)).updQueue 0
      (fun x => { x with cmds := x.cmds ++ l, unread := [] })).skipBad

/-- The command at the front of FQ0 starts, when it is of an opcode. -/
def State.startCmd (s : State) (opc : Nat) (f : State → Nat → List Nat → State) : State :=
  match (s.queue 0).cmds with
  | [] => s
  | e :: l =>
    if entryOpc e.words = opc then
      (f (s.updQueue 0 (fun x => { x with cmds := l })) (entryTag e.words) e.words).skipBad
    else s

/-- New entries that a doorbell offers: those between the last one offered and the tail (R580). -/
def State.offer (s : State) (q v : Nat) (entries : List (List (BitVec 64))) : State :=
  let n := s.sqSize q
  let have_ := (s.queue q).unread.length
  let first := s.rd (pgFq q) Reg.fqStateSqHead + have_
  let k := (v + 2 * n - first % n) % n
  let new := (entries.take k).zipIdx.map (fun e =>
    ({ slot := (first + e.2) % n, words := e.1.map BitVec.toNat } : SqEntry))
  s.updQueue q (fun x => { x with unread := x.unread ++ new })

/-! ## The stoke page's state word -/

/-- STK_STATE as it reads (spec/01 R50). -/
def State.stkStateWord (s : State) : Nat :=
  s.rd pgStk Reg.stkState + 16 * s.rd pgStk Reg.stkStateDamper + 64 * s.rd pgStk Reg.stkStateDampChg +
  128 * s.rd pgStk Reg.stkStateSyncLost + 256 * s.rd pgStk Reg.stkStateReplayCnt +
  1024 * s.rd pgStk Reg.stkStatePlanStaged + 2048 * s.rd pgStk Reg.stkStateInBoundary

/-- STOKE: acts as a write to STK_CMD, after an optional write of STK_RESUME; a START without a staged plan
completes with 0x03 (R477, R583). -/
def execStoke (s : State) : Host.Outcome State Fault Refusal :=
  answer (s.startCmd 0x10 (fun s tag ws =>
    let w := ws.getD 1 0
    let s1 := if bitAt w 8 then s.wr pgStk Reg.stkResume (ws.getD 2 0) else s
    let refused := decide (w % 16 = 1) && !s1.stagedOk
    let s2 := s1.stkCmd w
    s2.complete 0 tag (if refused then 0x03 else 0) s2.stkStateWord))

/-- RECORD: the 160-byte determinism record is written to host memory (R517, R583). -/
def execRecord (s : State) : Host.Outcome State Fault Refusal :=
  answer (s.startCmd 0x20 (fun s tag ws =>
    let a := ws.getD 1 0
    if a % 64 ≠ 0 then s.complete 0 tag 0x02 0
    else (s.emit (.hostWrite a s.detrec [])).complete 0 tag 0 0))

end Sys2Proof.Machine
end

