-- ==== Sys2Proof/Machine/Plan.lean ====
section
/-! DEFINITION. Plan commands, staging, the swap and withdrawals (spec/13 R470 to R484). -/
namespace Sys2Proof.Machine

def State.updPlans (s : State) (f : Plans → Plans) : State := { s with plans := f s.plans }

/-! ## Words written outside a stoke's work (R543) -/

/-- Write one word at its home with no term in a hash: HLOAD, host writes, resync (R543). -/
def State.rawWord (s : State) (a v : Nat) (bad : Bool) : State :=
  (((s.setBytes a (leBytes 8 v)).setBad (a / 8) bad).wroteWord a).ckptWrite a

/-- Write whole words of bytes. -/
def State.rawWords (s : State) (a : Nat) (l : List Byte) : State :=
  ((bodyPieces 8 l).zipIdx).foldl (fun (s : State) e => s.rawWord (a + 8 * e.2) (leNat e.1) false) s

/-! ## Status (R478) -/

/-- A status word. -/
def planWord32 (stage code detail : Nat) : Nat := stage * 2 ^ 28 + code % 256 * 2 ^ 16 + detail % 2 ^ 16

def Staging.word (g : Staging) : Nat := planWord32 g.stage g.code g.detail

/-- A plan loads or is staged. -/
def State.setStaging (s : State) (g : Staging) : State := s.updPlans (fun p => { p with staging := some g })

/-- Complete the PLAN_LOAD that waits for this image. -/
def State.completeLoad (s : State) (g : Staging) (w : Nat) : State :=
  match g.tag with
  | some t => s.complete 0 t w 0
  | none => s

/-! ## Banks (R315, R316) -/

/-- The contents of a bank (32 × partition + bank) are defined again. -/
def cutBank (v : Vague) (k : Nat) : Vague := v.cut (2 ^ 24 * (k / 32) + 2 ^ 19 * (k % 32)) (2 ^ 24 * (k / 32) + 2 ^ 19 * (k % 32 + 1))

/-- Banks prepared for a plan that does not latch return to the cache; what HLOAD put there is discarded. -/
def State.returnBanks (s : State) : State :=
  let banks := (List.range 160).flatMap (fun n => ((List.range 24).filter (fun b =>
    decide (s.rd (pgHrtx n) (Reg.hrtBankRole b) = 2) && !s.hub.retireBanks.contains (24 * n + b))).map (fun b => 32 * n + b))
  let s1 := banks.foldl (fun (s : State) k => s.wr (pgHrtx (k / 32)) (Reg.hrtBankRole (k % 32)) 0) s
  let gone := fun (a : Nat) => decide (a < hearthEnd) && banks.contains (32 * (a / 2 ^ 24) + a / 2 ^ 19 % 32)
  let s2 := { s1 with
    mem := s1.mem.filter (fun e => !gone e.1)
    memBad := s1.memBad.filter (fun e => !gone (8 * e.1))
    vague := banks.foldl cutBank s1.vague }
  ((banks.map (· / 32)).eraseDups.foldl (fun (s : State) n => s.wr (pgHrt n) Reg.hrtStateDrain 0) s2).updPlans
    (fun p => { p with draining := [] })

/-- A bank holds a dirty sector. -/
def State.bankDirty (s : State) (k : Nat) : Bool :=
  s.hub.cache.any (fun e => e.1 / 32768 = k / 32 && e.1 % 32 = k % 32 && e.2.dirty != 0)

/-- Prepare the cache ways that a validated plan pins: no allocation, dirty sectors drain (R315). -/
def State.prepareBank (s : State) (k : Nat) : State :=
  let n := k / 32
  let b := k % 32
  if s.rd (pgHrtx n) (Reg.hrtBankRole b) ≠ 0 then s
  else
    let s1 := s.wr (pgHrtx n) (Reg.hrtBankRole b) 2
    if s1.bankDirty k then
      (s1.wr (pgHrt n) Reg.hrtStateDrain 1).updPlans (fun p => { p with draining := p.draining ++ [k] })
    else { s1 with hub := { s1.hub with
      cache := s1.hub.cache.filter (fun e => !(e.1 / 32768 == n && e.1 % 32 == b)) } }

/-! ## Refusal and withdrawal (R471, R476, R478) -/

/-- The image loading or staged is refused (STAGE 6) or withdrawn (STAGE 7). -/
def State.endStaging (s : State) (stage code detail : Nat) : State :=
  match s.plans.staging with
  | none => s
  | some g =>
    let w := planWord32 stage code detail
    let s1 := (s.returnBanks.updPlans (fun p => { p with staging := none, lastStatus := w })).wr pgStk
      Reg.stkStatePlanStaged 0
    (s1.err pgStk code detail).completeLoad g w

/-- PLAN_LOAD (R470): refused for its fields, or for another image; else reading starts. -/
def execPlanLoad (s : State) : Host.Outcome State Fault Refusal :=
  answer (s.startCmd 1 (fun s tag ws =>
    let a := ws.getD 1 0
    let len := ws.getD 2 0
    if a % 64 ≠ 0 ∨ len < 768 ∨ 2 ^ 32 < len then
      (s.err pgStk 0x20 0xFFFE).complete 0 tag (planWord32 6 0x20 0xFFFE) 0
    else if s.plans.staging.isSome then (s.err pgStk 0x37 0).complete 0 tag (planWord32 6 0x37 0) 0
    else (s.setStaging { tag := some tag, addr := a, len := len, swapAt := ws.getD 3 0, stage := 1, code := 0,
                         detail := 0, plan := none }).emit (.hostRequest "read" a len)))

/-- PLAN_WITHDRAW (R476). -/
def execPlanWithdraw (s : State) : Host.Outcome State Fault Refusal :=
  answer (s.startCmd 2 (fun s tag _ =>
    if s.plans.staging.isNone then s.complete 0 tag (planWord32 0 0 0) 0
    else (s.endStaging 7 0x39 0).complete 0 tag (planWord32 7 0x39 0) 0))

/-- PLAN_QUERY: the status word of the staged plan, or of the active plan (R478, R583). -/
def execPlanQuery (s : State) : Host.Outcome State Fault Refusal :=
  answer (s.startCmd 3 (fun s tag ws =>
    let w := if bitAt (ws.getD 1 0) 0 then s.plans.activeStatus
      else match s.plans.staging with
        | some g => g.word
        | none => s.plans.lastStatus
    s.complete 0 tag w 0))

/-! ## Staging (R471 to R475) -/

/-- HLOAD bodies go into their banks, which hold no poison of before (R472, R473). -/
def State.writeHloads (s : State) (p : Plan) : State :=
  p.hloads.foldl (fun (s : State) h => s.rawWords h.2.1 h.2.2) s

/-- The phases in which each logical tile has work, taken from the work lists (spec/19 R650). -/
def State.listStarts (s : State) (p : Plan) : List (List Bool) :=
  p.wldir.map (fun base => (List.range (max 1 p.nphase)).map (fun f =>
    decide (bitsAt (s.natAt (base + f * p.wlStride) 8) 60 4 ≠ 0)))

/-- Drains have ended: a plan that a change of the shape in the meantime has made unfit is withdrawn (R475); otherwise HLOAD is
written, the last steps run, and the plan is staged. -/
def State.finishStaging (s : State) (g : Staging) (p : Plan) : State :=
  match s.checkShape p false with
  | some e => s.endStaging 7 e.1 e.2
  | none =>
    let s1 := s.writeHloads p
    match s1.checkLists p with
    | some e => s1.endStaging 6 e.1 e.2
    | none =>
      ((s1.setStaging { g with stage := 4, tag := none, plan := some { p with starts := s1.listStarts p } }).wr pgStk Reg.stkStatePlanStaged 1).completeLoad g
        (planWord32 4 0 0)

/-- PLAN_STAGED: the image has been read; every check of R471 runs in order, the banks drain, and the plan is
staged when the drains have ended (R471, R474). -/
def execPlanStaged (image : List (BitVec 8)) (readErr : Bool) (s : State) : Host.Outcome State Fault Refusal :=
  answer (match s.plans.staging with
    | none => s
    | some g =>
      match g.plan with
      | some p => if g.stage = 2 ∧ s.plans.draining = [] then s.finishStaging g p else s
      | none =>
        match s.checkImage image g.len readErr with
        | some e => s.endStaging 6 e.1 e.2
        | none =>
          let p := planOf image
          let s1 := (pinnedBanks p.pins).foldl State.prepareBank s
          if s1.plans.draining = [] then s1.finishStaging g p
          else s1.setStaging { g with stage := 2, plan := some p })

/-! ## The latch point (R475, R479 to R484) -/

/-- The staged plan, when one is staged. -/
def State.staged (s : State) : Option (Staging × Plan) :=
  match s.plans.staging with
  | some g => match g.plan with
    | some p => if g.stage = 4 then some (g, p) else none
    | none => none
  | none => none

/-- Both plans are checked against the shape; a staged plan that fails is withdrawn (R475). -/
def State.recheckStaged (s : State) : State :=
  match s.staged with
  | some (_, p) => match s.checkShape p false with
    | some e => s.endStaging 7 e.1 e.2
    | none => s
  | none => s

/-- The active plan fails a step against the new shape: it ends at the cutoff (R482, R483). -/
def State.recheckActive (s : State) : State :=
  match s.plans.active with
  | some p => match s.checkShape p true with
    | some e => ((s.err pgStk e.1 e.2).updPlans (fun q => { q with activeStatus := planWord32 7 e.1 e.2 })).updStoke
        (fun u => { u with stopAtCutoff := true })
    | none => s
  | none => s

/-- The active plan is marked replayable (R33). -/
def State.replayable (s : State) : Bool := match s.plans.active with | some p => bitAt p.flags 1 | none => false

/-- A notice that came after the replay decision turns this clean boundary into a replay at the cutoff (spec/01 R36, R37). -/
def State.mirrorDue (s : State) : Bool :=
  decide (s.stoke.notice = some (s.rd pgStk Reg.stkWork)) && s.stoke.working && s.stoke.endClean &&
  decide (s.rd pgStk Reg.stkState = 1) && s.replayable

/-- The way by which a staged plan may latch now (R479, R480): a clean boundary before SWAP_AT leaves it
staged, one beyond it marks it with code 0x38. -/
def State.swapDue (s : State) (g : Staging) : Bool :=
  match s.stoke.latchWay with
  | .none => false
  | .start => true
  | .resume => true
  | .clean => !s.mirrorDue && (decide (g.swapAt = 0) || decide (s.stoke.nextWork = g.swapAt))

def State.swapMissed (s : State) (g : Staging) : Bool :=
  decide (s.stoke.latchWay = .clean) && !s.mirrorDue && decide (g.swapAt ≠ 0) && decide (g.swapAt < s.stoke.nextWork) && decide (g.code ≠ 0x38)

/-- Every hearth bank that a pin can name, as 32 × partition + bank. -/
def hearthBanks : List Nat := (List.range 160).flatMap (fun n => (List.range 24).map (fun b => 32 * n + b))

/-- Apply the pin map under R316 and R473. -/
def State.applyPins (s : State) (p : Plan) : State :=
  let keep := fun (a : Nat) => !decide (a < hearthEnd) || s.keptAt p a
  let s1 := { s with
    mem := s.mem.filter (fun e => keep e.1)
    memBad := s.memBad.filter (fun e => keep (8 * e.1))
    hub := { s.hub with
      bankErr := s.hub.bankErr.filter (fun e => keep (8 * e.1)), corrections := s.hub.corrections.filter (fun w => keep (8 * w)) }
    vague := (hearthBanks.filter (fun k => bankRegion p.pins k = none || bankRegion s.plans.pins k != bankRegion p.pins k)).foldl
      cutBank s.vague }
  let s2 := (List.range 160).foldl (fun (s : State) n =>
    let regions := (List.range 24).map (fun b => bankRegion p.pins (32 * n + b))
    let mask := maskOf ((List.range 24).filter (fun b => ((regions.getD b none)).isSome))
    let s := (List.range 24).foldl (fun (s : State) b =>
      let role := s.rd (pgHrtx n) (Reg.hrtBankRole b)
      match regions.getD b none with
      | some r => s.wrs (pgHrtx n) [(Reg.hrtBankRole b, if role = 3 then 3 else 1), (Reg.hrtBankRegion b, r)]
      | none => s.wrs (pgHrtx n) [(Reg.hrtBankRole b, if role = 3 then 3 else 0), (Reg.hrtBankRegion b, 0)]) s
    s.wrs (pgHrt n) [(Reg.hrtPinmaskPinned, mask), (Reg.hrtStatePinned, popCount 24 mask), (Reg.hrtStateDrain, 0)]) s1
  { s2 with
    plans := { s2.plans with pins := p.pins, regions := p.regions, draining := [] }
    hub := { s2.hub with cache := s2.hub.cache.filter (fun e =>
      (bankRegion p.pins (32 * (e.1 / 32768) + e.1 % 32)).isNone) } }

/-- Levels of the reduction tree over T tiles (spec/07 R269). -/
def treeLevels (t : Nat) : Nat := if t ≤ 1 then 0 else (t - 1).log2 + 1

/-- The values that a plan brings: SHARE, GUAR, FILL, SLICES and the tree of each tile (R481). -/
def State.planValues (s : State) (p : Plan) : State :=
  let s1 := (List.range 4).foldl (fun (s : State) i =>
    s.wrs pgTrf [(Reg.trfShareW i, bitsAt p.share (8 * i) 6), (Reg.trfGuarG i, bitsAt p.guar (8 * i) 6)]) s
  (List.range 160).foldl (fun (s : State) n =>
    (s.wr (pgMxa n) Reg.mxaStateSlices p.slices).wrs (pgVec n)
      [(Reg.vecFill, p.fill), (Reg.vecXredTreeId, p.treeId), (Reg.vecXredLevels, treeLevels p.tiles)]) s1

/-- Every instruction cache is invalid (R89). -/
def State.dropIcaches (s : State) : State := { s with tiles := s.tiles.map (fun e => (e.1, { e.2 with icache := [] })) }

/-- The staged plan latches (R481). -/
def State.latchPlan (s : State) (p : Plan) : State :=
  let s1 := ((s.applyPins p).planValues p).clearV.dropIcaches
  let s2 := s1.updPlans (fun q => { q with
    ended := q.active.map (fun a => (a, q.ckDirty)), active := some p, staging := none, activeStatus := planWord32 5 0 0, lastStatus := 0, ckDirty := []
    dmaNext := [], dmaLast := [] })
  let s3 := s2.updStoke (fun u => { u with nextPeriod := p.period, latched := true, stopAtCutoff := false })
  ((s3.wr pgStk Reg.stkStatePlanStaged 0).setCause pgStk Reg.causeStkPlanSwap).measurePlan p.planHash s.stoke.nextWork

/-- Step 3 of R481: a staged plan that still qualifies latches. -/
def State.trySwap (s : State) : State :=
  match s.staged with
  | some (g, p) =>
    if s.swapDue g then s.latchPlan p
    else if s.swapMissed g then s.setStaging { g with code := 0x38 }
    else s
  | none => s

/-- The active plan ends: STOP or R483; its pin map stays in force (R484), and no tile belongs to a reduction tree (spec/07 R271). -/
def State.dropPlan (s : State) : State :=
  ((List.range 160).foldl (fun (s : State) n => s.wrs (pgVec n) [(Reg.vecXredTreeId, 0), (Reg.vecXredLevels, 0)]) s).updPlans (fun p => { p with
    active := none, dmaNext := [], dmaLast := []
    activeStatus := if p.activeStatus = planWord32 5 0 0 then 0 else p.activeStatus })

end Sys2Proof.Machine
end

