-- ==== Sys2Proof/Machine/PlanDma.lean ====
section
/-! DEFINITION. Planned DMA and checkpoint copies (spec/13 R458 to R469). -/
namespace Sys2Proof.Machine

/-! ## Planned DMA (R460, R461) -/

/-- The phase of the work stoke that runs (R458). -/
def State.phaseNow (s : State) (p : Plan) : Nat := s.rd pgStk Reg.stkWork % max 1 p.nphase

/-- The engine's next descriptor: its address, while the list has one. -/
def State.nextDma (s : State) (n : Nat) : Option Nat :=
  match s.plans.active with
  | none => none
  | some p =>
    let base := p.dmadir.getD n 0
    let k := SMap.getD s.plans.dmaNext n 0
    if base = 0 ∨ 4096 ≤ k ∨ SMap.getD s.plans.dmaLast n false then none
    else some (base + s.phaseNow p * 131072 + 32 * k)

/-- A descriptor issues: its fields go to the transfers in flight. -/
def State.issueDma (s : State) (n a : Nat) : State :=
  let k := SMap.getD s.plans.dmaNext n 0
  let w3 := s.natAt (a + 24) 8
  let r : DmaRun := { part := n, index := k, src := s.natAt (a + 8) 8, dst := s.natAt (a + 16) 8, len := s.natAt a 4
                      flagTile := bitsAt w3 56 8, flag := bitsAt w3 52 4 }
  s.updPlans (fun p => { p with dmaRun := p.dmaRun ++ [r], dmaNext := SMap.setD p.dmaNext n 0 (k + 1) })

/-- PLANNED_DMA_ISSUE: the next descriptor issues at START or after the one before it; none from B, none of a
stoke that is quenched (R26, R41, R461). -/
def execPlannedDmaIssue (part : Fin 160) (cyc : BitVec 32) (s : State) : Host.Outcome State Fault Refusal :=
  answer (if !s.stoke.working || s.stoke.quenched || decide (s.stoke.phase ≠ .work) || decide (s.cycleB ≤ cyc.toNat) then s
    else match s.nextDma part with
      | none => s
      | some a =>
        if s.natAt a 4 = 0 then s.updPlans (fun p => { p with dmaLast := SMap.ins p.dmaLast part true })
        else if s.natAt (a + 4) 4 ≤ cyc.toNat then s.issueDma part a
        else s)

/-- A word that the far tier or a partition gives, with its poison. -/
def State.anyWord (s : State) (far : FarBytes) (a : Nat) : Nat × Bool :=
  if isFar a then
    let l := (List.range 8).map (fun i => match far.find? (fun e => e.1.toNat = a + i) with
      | some e => e.2
      | none => (0, true))
    (leNat (l.map (fun b => b.1)), l.any (fun b => b.2))
  else (s.natAt a 8, s.badAt a)

/-- A word that a transfer of the stoke's work writes: its home, or its far device and a channel hash (R543). -/
def State.planWrite (s : State) (a v : Nat) (bad : Bool) : State :=
  if isFar a then
    (s.farSend a (leBytes 8 v) (if bad then [0] else []) 0xFF 8 true .service).addHash (s.hashSlot a) (hashTerm s.hashK (a / 8) v 0xFF (b2n bad))
  else s.homeWord a v bad

/-- PLANNED_DMA_DONE: the words are moved, poison unchanged (R495), and the flag is set (R92, R461). -/
def execPlannedDmaDone (part : Fin 160) (index : Nat) (far : FarBytes) (s : State) : Host.Outcome State Fault Refusal :=
  answer (match s.plans.dmaRun.find? (fun r => r.part = part.val && r.index = index) with
    | none => s
    | some r =>
      let s0 := (s.farHeard far).verifyExtent r.src r.len
      let words := (List.range (r.len / 8)).map (fun i => s0.anyWord far (r.src + 8 * i))
      let s1 := (words.zipIdx).foldl (fun (s : State) e => s.planWrite (r.dst + 8 * e.2) e.1.1 e.1.2) s0
      let s2 := s1.updPlans (fun p => { p with dmaRun := p.dmaRun.filter (fun x => !(x.part == part.val && x.index == index)) })
      let phys := s2.physOf r.flagTile
      if r.flagTile < s2.liveTiles.length then (s2.dropExtent phys r.dst r.len).setEvent phys r.flag else s2)

/-! ## Checkpoints (R466 to R469) -/

/-- The far region of the checkpoint records of a plan's regions. -/
def recordBase (l : List Region) : Option Nat := (l.find? (fun r => bitAt r.attr 6)).map Region.base

/-- The dirty blocks of a plan's checkpoint regions for a generation; a block no copy has taken since the plan
latched is dirty (R466; notes/assumptions/20.md). -/
def dirtyBlocks (l : List Region) (dirty : SMap Bool) (g : Nat) : List (Nat × Nat) :=
  (l.filter (fun r => bitAt r.attr 5)).flatMap (fun r =>
    ((List.range (r.len / 65536)).filter (fun b => SMap.getD dirty ((r.id * 65536 + b) * 2 + g) true)).map (fun b => (r.id, b)))

/-- The plan that the ending stoke ran, with its dirty bits: the one that a latch at this boundary replaced, or the active one. -/
def State.endedPlan (s : State) : Option (Plan × SMap Bool) :=
  match s.plans.ended with
  | some e => some e
  | none => s.plans.active.map (fun p => (p, s.plans.ckDirty))

/-- At a checkpoint stoke the maps freeze for generation (s div NPHASE) mod 2, whatever the replay decision was; a copy of
the stoke before has ended (R26, R467, R468; notes/assumptions/62.md). -/
def State.freezeCkpt (s : State) (work : Nat) : State :=
  let copy := match s.endedPlan with
    | some (p, dirty) =>
      if s.stoke.working && decide (p.phases.getD (work % max 1 p.nphase) 0 % 2 = 1) then
        let g := work / max 1 p.nphase % 2
        some { work := work, gen := g, regions := p.regions, planHash := p.planHash, todo := dirtyBlocks p.regions dirty g
               isVoid := false, finished := false }
      else none
    | none => none
  s.updPlans (fun q => { q with ckpt := copy, ended := none })

/-- Write the record of a generation (R469). -/
def State.writeCkptRecord (s : State) (c : CkptCopy) (state : Nat) : State :=
  let r : CkptRec := { work := c.work, state := state, planHash := c.planHash }
  let recs := if c.gen = 0 then [r, s.ckRec 1] else [s.ckRec 0, r]
  let s1 := s.updPair (fun p => { p with ckRecs := recs })
  match recordBase c.regions with
  | some a => s1.farSend (a + 64 * c.gen) r.bytes [] (2 ^ 64 - 1) 64 true .service
  | none => s1

/-- A block is copied to its generation, and is clean for it while its plan is active. -/
def State.copyBlock (s : State) (c : CkptCopy) (e : Nat × Nat) : State :=
  match c.regions.find? (fun r => r.id = e.1) with
  | none => s
  | some r =>
    let a := r.base + 65536 * e.2
    let s0 := s.verifyExtent a 65536
    let bad := ((s0.memBad.map (fun w => w.1)).filter (fun w => decide (a ≤ 8 * w) && decide (8 * w < a + 65536))).map (fun w => w - a / 8)
    let s1 := s0.farSend (r.ck + c.gen * r.len + 65536 * e.2) (s0.bytesAt a 65536) bad (2 ^ 65536 - 1) 65536 true .service
    if s.regions = c.regions then
      s1.updPlans (fun p => { p with ckDirty := SMap.setD p.ckDirty ((e.1 * 65536 + e.2) * 2 + c.gen) true false })
    else s1

/-- A copy becomes void: its record says so (R468, R469). -/
def State.voidCkpt (s : State) : State :=
  match s.plans.ckpt with
  | none => s
  | some c => (s.writeCkptRecord c 2).updPlans (fun p => { p with ckpt := none })

/-- CHECKPOINT_COPY_END: `copied` more frozen blocks are copied; the copy is complete when none is left, and
void when a write came before (R467 to R469). -/
def execCheckpointCopyEnd (copied : Nat) (s : State) : Host.Outcome State Fault Refusal :=
  answer (match s.plans.ckpt with
    | none => s
    | some c =>
      if c.finished then s
      else if c.isVoid then s.voidCkpt
      else
        let s1 := (c.todo.take copied).foldl (fun (s : State) e => s.copyBlock c e) s
        let c1 := { c with todo := c.todo.drop copied, finished := decide (c.todo.length ≤ copied) }
        let s2 := s1.updPlans (fun p => { p with ckpt := some c1 })
        if c1.finished then s2.writeCkptRecord c1 1 else s2)

end Sys2Proof.Machine
end

