-- ==== Sys2Proof/Machine/Ingest.lean ====
section
/-! DEFINITION. Ingest and egress descriptors, and the stoke ring (spec/17 R580, R584 to R595). Queues 1 and 2
carry ingest, 3 egress. -/
namespace Sys2Proof.Machine

/-! ## Descriptor fields (R584, R592) -/

def Xfer.w (x : Xfer) (i : Nat) : Nat := x.words.getD i 0
def Xfer.work (x : Xfer) : Nat := x.w 0
def Xfer.src (x : Xfer) : Nat := x.w 1
def Xfer.dst (x : Xfer) : Nat := x.w 2
def Xfer.start (x : Xfer) : Nat := bitsAt (x.w 3) 32 32
def Xfer.len (x : Xfer) : Nat := bitsAt (x.w 3) 0 32
def Xfer.flagTile (x : Xfer) : Nat := bitsAt (x.w 4) 56 8
def Xfer.flag (x : Xfer) : Nat := bitsAt (x.w 4) 52 4
def Xfer.push (x : Xfer) : Bool := bitAt (x.w 4) 49

/-- The period that the plan of the next work stoke has: B of R584's START. -/
def State.planB (s : State) : Nat := match s.plans.active with
  | some p => p.period - 2048
  | none => s.stoke.nextPeriod - 2048

/-- The fields of a descriptor of queue q are valid. -/
def State.xferFieldsOk (s : State) (q : Nat) (x : Xfer) : Bool :=
  decide (x.src % 64 = 0) && decide (x.dst % 64 = 0) && decide (x.len % 64 = 0) && decide (64 ≤ x.len) &&
  decide (x.len ≤ 2 ^ 24) && decide (x.start < s.planB) && [5, 6, 7].all (fun i => decide (x.w i = 0)) &&
  (if q = 3 then decide (bitsAt (x.w 4) 0 52 = 0) else decide (bitsAt (x.w 4) 0 49 = 0) && decide (bitsAt (x.w 4) 50 2 ≠ 3)) &&
  (decide (x.flagTile = 0xFF) || decide (x.flagTile < s.liveTiles.length))

/-- Near address of the push area (R573, R598). -/
def State.pushBase (s : State) : Nat := s.rd (pgCxp 0) Reg.cxpIngBase / 2 ^ 26 * 2 ^ 26

/-- A push descriptor reads the push area, which lies in the near window outside every plan region (R573, R585). -/
def State.pushOk (s : State) (x : Xfer) : Bool :=
  decide (x.src + x.len ≤ 2 ^ 26) && decide (nearBase ≤ s.pushBase) && decide (s.pushBase + 2 ^ 26 ≤ nearBase + s.nearLen) &&
  s.regions.all (fun r => decide (r.base + r.len ≤ s.pushBase) || decide (s.pushBase + 2 ^ 26 ≤ r.base))

/-- The addresses that the active plan permits (R585, R592). -/
def State.xferRegionOk (s : State) (q : Nat) (x : Xfer) : Bool :=
  if q = 3 then s.regions.any (fun r => r.holds x.src x.len && bitAt r.attr 0)
  else s.regions.any (fun r => r.holds x.dst x.len && decide (r.kind ≤ 1) && (bitAt r.attr 0 || bitAt r.attr 1)) &&
    (!x.push || s.pushOk x)

/-! ## Reading descriptors (R586, R587, R590) -/

/-- Ingest is forwarded and this module is BANKED (R540, R590). -/
def State.fwdBanked (s : State) : Bool := s.flag pgKnk Reg.knkCtrlFwd && !s.lit

/-- The status with which a descriptor completes when it is read, if it does. -/
def State.readStatus (s : State) (q : Nat) (x : Xfer) : Option Nat :=
  if !s.xferFieldsOk q x then some 0x02
  else if (match (s.queue q).lastWork with | some l => decide (x.work < l) | none => false) then some 0x05
  else if (match s.feed.fixedFor with | some f => decide (x.work ≤ f) | none => false) then some 0x04
  else if q ≠ 3 ∧ s.fwdBanked then some 0x07
  else none

/-- A descriptor completes; 0x04 is counted (R587, R598). -/
def State.xferComplete (s : State) (q slot status : Nat) : State :=
  let s1 := s.complete q slot status 0
  if status = 4 then (s1.bump (pgCxp 0) Reg.cxpXferLate 1).setCause (pgCxp 0) Reg.causeCxpLate else s1

/-- The engine reads one entry of a queue. -/
def State.readXfer (s : State) (q : Nat) (e : SqEntry) : State :=
  let x : Xfer := { slot := e.slot, words := e.words, fixed := false, issued := false, done := false }
  let s1 := s.wr (pgFq q) Reg.fqStateSqHead ((e.slot + 1) % s.sqSize q)
  match s1.readStatus q x with
  | some st =>
    let s2 := if st = 2 ∨ st = 5 then s1 else s1.updQueue q (fun y => { y with lastWork := some x.work })
    s2.xferComplete q e.slot st
  | none => s1.updQueue q (fun y => { y with xfers := y.xfers ++ [x], lastWork := some x.work })

/-- Read every entry that a queue's doorbell has offered. -/
def State.readXfers (s : State) (q : Nat) : State :=
  if !s.queueOn q || !s.feed.reading then s
  else
    (s.queue q).unread.foldl (fun (s : State) e => s.readXfer q e) (s.updQueue q (fun y => { y with unread := [] }))

/-- SQ_TAIL_DOORBELL: entries up to the new tail are offered, and read at once unless the queue reads them only
after the coming cutoff (R580, R581, R586); an index beyond the ring stops the queue. -/
def State.sqTailWrite (s : State) (q tail : Nat) (entries : List (List (BitVec 64))) (late : Bool) : State :=
  if q = 4 ∨ !s.queueOn q then s
  else if s.sqSize q ≤ tail then s.queueErr q
  else
    let s1 := s.offer q tail entries
    if late then s1 else if q = 0 then s1.readCmds else s1.readXfers q
def execSqTailDoorbell (q : Fin 5) (tail : BitVec 12) (entries : List (List (BitVec 64))) (late : Bool) (s : State) :
    Host.Outcome State Fault Refusal :=
  answer (s.sqTailWrite q tail.toNat entries late)

/-! ## Fixing the set (R585 to R587) -/

/-- Take descriptors in ring order up to the first whose WORK is larger: those passed complete with 0x04, those
of a module that takes forwarded ingest with 0x07, those outside the permitted regions with 0x06, the others are fixed. -/
def State.fixList (s : State) (q w : Nat) : List Xfer → State
  | [] => s
  | x :: l =>
    let keep := fun (t : State) (y : Xfer) => t.updQueue q (fun z => { z with xfers := z.xfers ++ [y] })
    if x.fixed then (keep s x).fixList q w l
    else if w < x.work then (x :: l).foldl keep s
    else if x.work < w then (s.xferComplete q x.slot 4).fixList q w l
    else if q ≠ 3 ∧ s.fwdBanked then (s.xferComplete q x.slot 7).fixList q w l
    else if !s.xferRegionOk q x then (s.xferComplete q x.slot 6).fixList q w l
    else (keep s { x with fixed := true }).fixList q w l

/-- The sets of the next work stoke are fixed. -/
def State.fixSet (s : State) (w : Nat) : State :=
  let s1 := [1, 2, 3].foldl (fun (s : State) q =>
    (s.updQueue q (fun y => { y with xfers := [] })).fixList q w (s.queue q).xfers) s
  s1.updFeed (fun f => { f with fixedFor := some w })

/-- A replay performs the same set again (R588). -/
def State.rearmSet (s : State) : State :=
  [1, 2, 3].foldl (fun (s : State) q => s.updQueue q (fun y => { y with
    xfers := y.xfers.map (fun x => if x.fixed then { x with issued := false, done := false } else x) })) s

/-! ## Performing (R588, R592 to R594) -/

def State.updXfer (s : State) (q slot : Nat) (f : Xfer → Xfer) : State :=
  s.updQueue q (fun y => { y with xfers := y.xfers.map (fun x => if x.fixed && x.slot == slot then f x else x) })

/-- The next descriptor of a queue's set to be performed. -/
def State.nextXfer (s : State) (q slot cyc : Nat) : Option Xfer :=
  if !s.stoke.working || s.stoke.quenched || decide (s.stoke.phase ≠ .work) || decide (s.cycleB ≤ cyc) then none
  else match (s.queue q).xfers.find? (fun x => x.fixed && !x.issued) with
    | some x => if x.slot = slot ∧ x.start ≤ cyc then some x else none
    | none => none

/-- The completion of a descriptor sets its flag (R92). -/
def State.xferFlag (s : State) (x : Xfer) : State :=
  if x.flagTile < s.liveTiles.length then s.setEvent (s.physOf x.flagTile) x.flag else s

/-- Words written by ingest, forwarded to the partner when FWD is 1 and ROLE is LIT (R540). -/
def State.ingestWords (s : State) (a : Nat) (l : List (Nat × Bool)) : State :=
  let s1 := (l.zipIdx).foldl (fun (s : State) e => s.homeWord (a + 8 * e.2) e.1.1 e.1.2) s
  if s1.pairEn && s1.flag pgKnk Reg.knkCtrlFwd && s1.lit then
    let bad := ((l.zipIdx).filter (fun e => e.1.2)).map (fun e => e.2 + 2)
    s1.knkSend 0x10 ([s1.rd pgStk Reg.stkWork, a] ++ l.map (fun e => e.1)) bad
  else s1

/-- INGEST_PERFORM: a pull reads host memory; a push copies from the push area and is complete. -/
def execIngestPerform (q : Fin 2) (slot : Nat) (cyc : BitVec 32) (s : State) : Host.Outcome State Fault Refusal :=
  let q := q.val + 1
  answer (match s.nextXfer q slot cyc.toNat with
    | none => s
    | some x =>
      if x.push then
        let s0 := s.verifyExtent (s.pushBase + x.src) x.len
        let l := (List.range (x.len / 8)).map (fun i =>
          let a := s.pushBase + x.src + 8 * i
          (s0.natAt a 8, s0.badAt a))
        ((s0.ingestWords x.dst l).updXfer q slot (fun y => { y with issued := true, done := true })).xferFlag x
      else if s.rd (pgCxp 0) Reg.cxpLinkMode = 0 ∨ s.blwFull 0 then s
      else (s.updXfer q slot (fun y => { y with issued := true })).emit
        (.hostRequest (if s.flag (pgCxp 0) Reg.cxpLinkCache then "RdCurr" else "read") x.src x.len))

/-- INGEST_DESCRIPTOR_DONE: host data arrives and is written through the home partitions; `bad` numbers poisoned
words. With all of it before B the descriptor is finished; after B only what was issued drains (R588, R589). -/
def execIngestDescriptorDone (q : Fin 2) (slot : Nat) (data : List (BitVec 64)) (bad : List Nat) (s : State) :
    Host.Outcome State Fault Refusal :=
  let q := q.val + 1
  answer (match (s.queue q).xfers.find? (fun x => x.fixed && x.issued && !x.done && x.slot == slot && !x.push) with
    | none => s
    | some x =>
      if Phase.drain.rank < s.stoke.phase.rank then s
      else
        let l := ((data.take (x.len / 8)).zipIdx).map (fun e => (e.1.toNat, bad.contains e.2))
        let s1 := s.ingestWords x.dst l
        if x.len ≤ 8 * data.length ∧ s.stoke.phase = .work ∧ !s.stoke.quenched then
          (s1.updXfer q slot (fun y => { y with done := true })).xferFlag x
        else s1)

/-- EGRESS_PERFORM: each word enters a channel hash; a LIT module writes it to host memory (R592 to R594). -/
def execEgressPerform (slot : Nat) (cyc : BitVec 32) (far : FarBytes) (s : State) : Host.Outcome State Fault Refusal :=
  answer (match s.nextXfer 3 slot cyc.toNat with
    | none => s
    | some x =>
      if s.lit && decide (s.rd (pgCxp 0) Reg.cxpLinkMode = 0) then s
      else
        let s0 := (s.farHeard far).verifyExtent x.src x.len
        let l := (List.range (x.len / 8)).map (fun i => s0.anyWord far (x.src + 8 * i))
        let s1 := (l.zipIdx).foldl (fun (s : State) e =>
          let a := x.dst + 8 * e.2
          s.addHash (a / 512 % 144) (hashTerm s.hashK (a / 8) e.1.1 0xFF (b2n e.1.2))) s0
        let s2 := if s1.lit then s1.emit (.hostWrite x.dst (l.flatMap (fun e => leBytes 8 e.1))
            (((l.zipIdx).filter (fun e => e.1.2)).map (fun e => e.2))) else s1
        (s2.updXfer 3 slot (fun y => { y with issued := true, done := true })).xferFlag x)

/-! ## Ends of stokes (R34, R589, R591) -/

/-- Descriptors of the set that have not finished at B (R589). -/
def State.undone (s : State) : List Nat :=
  [1, 2, 3].flatMap (fun q => ((s.queue q).xfers.filter (fun x => x.fixed && !x.done)).map (fun _ => q))

/-- At B: unfinished descriptors are counted, and Tender quenches the stoke. -/
def State.undoneAtB (s : State) : State :=
  if !s.stoke.working then s
  else match s.undone with
    | [] => s
    | q :: l =>
      (((s.bump (pgCxp 0) Reg.cxpXferUndone (l.length + 1)).setCause (pgCxp 0) Reg.causeCxpXferUndone).err (pgCxp 0) 0xC4 q).quench
        4 false

/-- Forwarded blocks up to the work stoke that ended clean are retired (R34, R540). -/
def State.retireForwarded (s : State) : State :=
  s.updPair (fun p => { p with forwarded := p.forwarded.filter (fun b => decide (s.rd pgStk Reg.stkWork < b.1)) })

/-- The descriptors of a clean stoke are retired (R34, R594). -/
def State.retireSet (s : State) : State :=
  [1, 2, 3].foldl (fun (s : State) q =>
    let l := (s.queue q).xfers
    let s1 := s.updQueue q (fun y => { y with xfers := l.filter (fun x => !x.fixed) })
    (l.filter (fun x => x.fixed)).foldl (fun (s : State) x =>
      s.xferComplete q x.slot (if q = 3 ∧ !s.lit then 0x08 else 0)) s1) s.retireForwarded

/-- The stoke unit enters HELD or IDLE: what was read, and what the doorbells had offered, completes with 0x09, and the
order of R587 is forgotten (R591); a queue in error reads nothing (R581). -/
def State.abandonXfers (s : State) : State :=
  let s1 := [1, 2, 3].foldl (fun (s : State) q =>
    let l := (s.queue q).xfers
    let u := if s.flag (pgFq q) Reg.fqStateErr then [] else (s.queue q).unread
    let s1 := s.updQueue q (fun y => { y with xfers := [], unread := [], lastWork := none })
    let s2 := l.foldl (fun (s : State) x => s.xferComplete q x.slot 9) s1
    u.foldl (fun (s : State) e =>
      (s.wr (pgFq q) Reg.fqStateSqHead ((e.slot + 1) % s.sqSize q)).xferComplete q e.slot 9) s2) s
  s1.updFeed (fun f => { f with reading := false, fixedFor := none })

/-- The engines read again at START or RESUME (R591). -/
def State.resumeReading (s : State) : State :=
  [1, 2, 3].foldl State.readXfers (s.updFeed (fun f => { f with reading := true }))

/-! ## The stoke ring (R595) -/

/-- A LIT module posts the record of a work stoke that ended; one that finds no room is dropped and counted. -/
def State.postStokeRecord (s : State) (work status : Nat) : State :=
  if !s.lit then s
  else if !s.queueOn 4 ∨ s.cqSize 4 ≤ s.cqUnread 4 + 1 then s.updFeed (fun f => { f with dropped := min 127 (f.dropped + 1) })
  else
    let bytes := leBytes 8 work ++ leBytes 8 (s.rd pgStk Reg.stkNum) ++ leBytes 8 (s.rd pgKnk Reg.knkConfWork) ++
      leBytes 1 status ++ leBytes 1 (s.rd pgStk Reg.stkFailCause) ++ leBytes 1 (s.rd pgStk Reg.stkStateReplayCnt) ++
      leBytes 1 (2 * s.feed.dropped + b2n (s.queue 4).phase) ++ leBytes 4 (s.rd pgStk Reg.stkMargin)
    (((s.emit (.completion 4 (s.rd (pgFq 4) Reg.fqStateCqTail) bytes)).cqAdvance 4).updFeed (fun f => { f with dropped := 0 })).queueVector
      52

end Sys2Proof.Machine
end

