-- ==== Sys2Proof/Machine/HostLink.lean ====
section
/-! DEFINITION. The host's accesses to near memory, back-invalidation, configuration requests, and the CXP
links (spec/17 R569 to R579, R597 to R600; spec/14 R492, R494). -/
namespace Sys2Proof.Machine

/-! ## The near window (R575 to R579) -/

/-- CXP0 runs a CXL mode. -/
def State.cxlMode (s : State) : Bool :=
  decide (1 ≤ s.rd (pgCxp 0) Reg.cxpLinkMode) && decide (s.rd (pgCxp 0) Reg.cxpLinkMode ≤ 3)

/-- Bytes of the window the host reaches: the near window rounded down to 256 MiB in CXL modes. -/
def State.hostWindow (s : State) : Nat := if s.cxlMode then s.nearLen / 2 ^ 28 * 2 ^ 28 else s.nearLen

/-- The size that CXP_HDM_SIZE reports (R575, R578). -/
def State.reportSize (s : State) : State := s.wr (pgCxp 0) Reg.cxpHdmSize (s.nearLen / 2 ^ 28 * 2 ^ 28)

/-- The near address of a host access; none beyond the window. -/
def State.hostAddr (s : State) (push : Bool) (off len : Nat) : Option Nat :=
  if push then (if off + len ≤ 2 ^ 26 then some (s.pushBase + off) else none)
  else if off + len ≤ s.hostWindow then some (nearBase + off) else none

/-- An access beyond the window (R578, R599). -/
def State.hostBeyond (s : State) : State := (s.setCause (pgCxp 0) Reg.causeCxpHdmBeyond).err (pgCxp 0) 0xC3 0

/-- Set the filter's lines (R576, R598). -/
def State.setFilter (s : State) (l : List Nat) : State :=
  (s.updFeed (fun f => { f with filter := l })).wr (pgCxp 0) Reg.cxpSfLines l.length

/-- The filter records a line; full, it evicts the oldest by BISnpInv (R576, R577). -/
def State.recordLine (s : State) (a : Nat) : State :=
  let l := s.feed.filter
  if l.contains a then s
  else if 65536 ≤ l.length then (s.emit (.hostRequest "BISnpInv" (l.headD 0) 64)).setFilter (l.tail ++ [a])
  else s.setFilter (l ++ [a])

/-- The CXP0 link carries requests, the function accepts memory requests, and no wipe holds them (R578, R597, R631). -/
def State.hostOpen (s : State) : Bool :=
  decide (s.rd (pgCxp 0) Reg.cxpLinkMode ≠ 0) && s.flag pgDev Reg.devStateReady && !s.hub.wiping

/-- The part of a host access in one row is a request of TC3 at its home partition (R575; spec/09 R319). -/
def State.hostReq (s : State) (write : Bool) (mask : BitVec 512) (e : Nat × Nat) : State :=
  let r : HearthReq := { tile := none, tc := 3, late := false, addr := BitVec.ofNat 64 e.1, len := e.2, write := write, mask := mask, hint := 0,
                         slots := 1, cells := [], flues := [], failed := false }
  (s.hearthArrive r).freeSlots (s.reqPart r) 1

/-- HOST_MEM_READ. -/
def execHostMemRead (push : Bool) (off : BitVec 64) (len : Nat) (s : State) : Host.Outcome State Fault Refusal :=
  answer (
    if !s.hostOpen then s
    else match s.hostAddr push off.toNat len with
      | none => s.hostBeyond.emit (.readData 0 (8 * len) true)
      | some a =>
        let lines := (List.range (ceilDiv (a % 64 + len) 64)).map (fun i => a / 64 * 64 + 64 * i)
        let s1 := if s.cxlMode && !push then lines.foldl State.recordLine s else s
        let s2 := (rowPieces a len).foldl (fun s e => s.hostReq false 0 e) s1
        s2.emit (.readData (s2.natAt a len) (8 * len) (s2.anyBad a len)))

/-- One 8-byte group of a host write: whole, it replaces word and poison; partial, it merges with the word once that is verified (R494,
R747). -/
def State.hostGroup (s0 : State) (a v : Nat) (m : BitVec 8) (bad : Bool) : State :=
  let s := s0.verifyPart a m
  if m = 0 then s
  else if m = 0xFF then s.rawWord a v bad
  else
    let old := s.natAt a 8
    let new := (List.range 8).foldl (fun x i => if m.getLsbD i then withBits x (8 * i) 8 (bitsAt v (8 * i) 8) else x) old
    s.rawWord a new (bad || s.badAt a)

/-- HOST_MEM_WRITE: a line with a byte mask (R494). -/
def execHostMemWrite (push : Bool) (off : BitVec 64) (data : BitVec 512) (mask : BitVec 64) (poison : BitVec 8)
    (s : State) : Host.Outcome State Fault Refusal :=
  answer (
    if !s.hostOpen then s
    else match s.hostAddr push (off.toNat / 64 * 64) 64 with
      | none => s.hostBeyond
      | some a => ((List.range 8).foldl (fun (s : State) k =>
          s.hostGroup (a + 8 * k) (bitsAt data.toNat (64 * k) 64) (mask.extractLsb' (8 * k) 8) (poison.getLsbD k)) s).hostReq true
            (mask.setWidth 512 <<< (a % 512)) (a, 64))

/-- BI_RESPONSE: modified data is written as a host write, the entry is removed, and requests that wait for it are served (R576). -/
def execBiResponse (addr : BitVec 64) (modified : Option (BitVec 512)) (s : State) : Host.Outcome State Fault Refusal :=
  let a := addr.toNat / 64 * 64
  let s1 := match modified with
    | some d => if isNear a then (List.range 8).foldl (fun (s : State) k =>
        s.rawWord (a + 8 * k) (bitsAt d.toNat (64 * k) 64) false) s else s
    | none => s
  answer ((s1.setFilter (s1.feed.filter.filter (· ≠ a))).retry (s1.partOf a))

/-- HOST_SNOOP: the ingest engine holds no line (R584). -/
def execHostSnoop (addr : BitVec 64) (s : State) : Host.Outcome State Fault Refusal :=
  answer (s.emit (.response "CXP0 snoop: no line" (leBytes 8 addr.toNat)))

/-! ## Configuration requests (R570, R572, R575, R631; spec/02 R77 to R80) -/

/-- Pending bits of vectors that are no longer masked become messages, once MSI-X is enabled (R79). -/
def State.flushPending (s : State) : State :=
  if !s.msixOn then s else (s.msixPend.map (fun e => e.1)).foldl (fun (s : State) v =>
    if s.vecMasked v then s else ({ s with msixPend := SMap.setD s.msixPend v false false }).emit (.msix v)) s

/-- CONFIG_REQUEST: Retry Status before ready; normal afterwards. -/
def execConfigRequest (r : ConfigReq) (s : State) : Host.Outcome State Fault Refusal :=
  answer (
    if !s.flag pgDev Reg.devStateReady then s.emit (.response "CXP0 config: CRS" [])
    else match r with
      | .identity => s.emit (.response "CXP0 config" (leBytes 2 0x0C44 ++ leBytes 3 0x120000 ++ leBytes 8 (s.rd pgDev Reg.devSerial)))
      | .msixControl en mask =>
        let s1 := { s with msixOn := en, msixMask := mask }
        let s2 := s1.flushPending
        if en && !s.msixOn then s2.trySources else s2
      | .commitHdm base => if s.cxlMode then s.wr (pgCxp 0) Reg.cxpHdmBase base.toNat else s
      | .other => s.emit (.response "CXP0 config" []))

/-! ## Links (R412, R569, R571, R597 to R600) -/

/-- Width and rate within CXP_CTRL.MAX_WIDTH and MAX_RATE (R598). -/
def State.maxWidth (s : State) (p : Nat) : Nat := [16, 8, 4, 4].getD (s.rd (pgCxp p) Reg.cxpCtrlMaxWidth) 4
def State.maxRate (s : State) (p : Nat) : Nat := [64, 32, 16, 16].getD (s.rd (pgCxp p) Reg.cxpCtrlMaxRate) 16

/-- A link finishes training in a mode, width and rate; mode 0 trains nothing. -/
def State.cxpUp (s : State) (port mode width rate : Nat) : State :=
  let p := pgCxp port
  let w := min width (s.maxWidth port)
  let r := min rate (s.maxRate port)
  let cxl := decide (mode ≤ 3)
  if mode = 0 then s
  else
    let s1 := s.wrs p [(Reg.cxpLinkMode, mode), (Reg.cxpLinkFlit, [0, 2, 1, 1, 2, 0, 0].getD mode 0), (Reg.cxpLinkWidth, w),
      (Reg.cxpLinkRate, r), (Reg.cxpLinkCache, b2n (cxl && decide (port = 0))), (Reg.cxpLinkMem, b2n cxl)]
    let s2 := s1.setCause p Reg.causeCxpLinkUp
    if w < 16 ∨ r < 64 then s2.setCause p Reg.causeCxpNarrow else s2

/-- CXP_LINK_DOWN: the CX-4 keeps running; the link retrains (R597, R599). -/
def execCxpLinkDown (port : Fin 2) (s : State) : Host.Outcome State Fault Refusal :=
  let p := pgCxp port
  answer (((s.wrs p [(Reg.cxpLinkMode, 0), (Reg.cxpLinkFlit, 0), (Reg.cxpLinkWidth, 0), (Reg.cxpLinkRate, 0),
    (Reg.cxpLinkCache, 0), (Reg.cxpLinkMem, 0)]).setCause p Reg.causeCxpLinkDown).err p 0xC0 0)

/-- CXP_RETRAIN: a write of RETRAIN (R598, R599). -/
def State.cxpRetrain (s : State) (port : Nat) : State := s.err (pgCxp port) 0xC1 0
def execCxpRetrain (port : Fin 2) (s : State) : Host.Outcome State Fault Refusal := answer (s.cxpRetrain port)

/-- An armed CXP_FLIP inverts a payload bit of the flit received: the flit fails its CRC (R598, R600). -/
def State.cxpFlipHits (s : State) (port : Nat) : Bool :=
  let p := pgCxp port
  s.flag p Reg.cxpFlipArm && (decide (s.rd p Reg.cxpLinkFlit ≠ 1) || decide (s.rd p Reg.cxpFlipBit ≤ 511))

/-- CXP_FLIT_RECEIVE: a good flit is delivered; a bad one is held poisoned and replayed, or, when no replay
succeeds (`last`), its words are delivered poisoned (R492). -/
def execCxpFlitReceive (port : Fin 2) (good last : Bool) (words : Nat) (s : State) : Host.Outcome State Fault Refusal :=
  let p := pgCxp port
  let hit := s.cxpFlipHits port
  let s1 := if hit then s.wr p Reg.cxpFlipArm 0 else s
  answer (if good && !hit then s1
    else
      let s2 := s1.bump p Reg.cxpCrcerrCount 1
      if last && !good then ((s2.bump p Reg.cxpPoisonCount words).setCause p Reg.causeCxpPoisonRx).err p 0xC2 0
      else s2.bump p Reg.cxpRetryCount 1)

end Sys2Proof.Machine
end

