-- ==== Sys2Proof/Machine/Resync.lean ====
section
/-! DEFINITION. Resynchronisation: the copy set, its rows and hash, and both sides of the copy (spec/16 R561 to R565). -/
namespace Sys2Proof.Machine

/-! ## The copy set (R563) -/

/-- Put a pair into an ascending list, and sort a list of pairs. -/
def putPair (x : Nat × Nat) : List (Nat × Nat) → List (Nat × Nat)
  | [] => [x]
  | y :: r => if x.1 ≤ y.1 then x :: y :: r else y :: putPair x r
def isortPairs (l : List (Nat × Nat)) : List (Nat × Nat) := l.foldr putPair []

/-- The extents of the copy set, ascending: pinned banks without code or lists, the near window, writable far regions. -/
def State.copyExtents (s : State) : List (Nat × Nat) :=
  match s.plans.active with
  | none => [(nearBase, s.nearLen)]
  | some p =>
    let data := p.pins.filter (fun e => p.regions.any (fun r => r.id = e.region && bitsAt r.attr 2 3 = 0))
    let banks := pinnedBanks data
    ((List.range (160 * 32)).filter banks.contains).map (fun k => (2 ^ 24 * (k / 32) + 2 ^ 19 * (k % 32), 2 ^ 19)) ++
      [(nearBase, s.nearLen)] ++
      isortPairs ((p.regions.filter (fun r => r.kind = 2 && bitAt r.attr 1)).map (fun r => (r.base, r.len)))

/-- The rows of an extent whose contents are undefined. -/
def Vague.rows (v : Vague) : List Nat :=
  v.extents.flatMap (fun e => (List.range (ceilDiv (e.1 % 512 + e.2.1) 512)).map (fun i => 512 * (e.1 / 512 + i)))

/-- The rows of the copy set that hold a byte, an undefined one or a poisoned word; `far` gives what far devices hold, 0 where not listed. -/
def State.usedRows (s : State) (far : FarBytes) : SMap Unit :=
  let inSet := fun (a : Nat) => s.copyExtents.any (fun e => decide (e.1 ≤ a) && decide (a < e.1 + e.2))
  let l := (s.mem.map (fun e => e.1)) ++ s.vague.rows ++ (s.memBad.map (fun e => 8 * e.1)) ++
    ((far.filter (fun e => decide (e.2.1 ≠ 0) || e.2.2)).map (fun e => e.1.toNat))
  (l.filter inSet).foldl (fun m a => SMap.ins m (a / 512 * 512) ()) []

/-- A word of the copy set and its poison. -/
def State.copyWord (s : State) (far : FarBytes) (a : Nat) : Nat × Bool :=
  if isFar a then
    let l := (List.range 8).map (fun i => match far.find? (fun e => e.1.toNat = a + i) with
      | some e => e.2
      | none => (0, false))
    (leNat (l.map (fun b => b.1)), l.any (fun b => b.2))
  else (s.natAt a 8, s.badAt a)

/-! ## The resync hash (R564) -/

/-- The sum of the terms of n zero words from word address w: ((w·k)·k)·k·k + 256·k each. -/
def zeroTerms (k w n : Nat) : Nat := (k ^ 4 % hashMod * (n * w + n * (n - 1) / 2) + n * 256 * k) % hashMod

/-- The resync hash of this module's copy set. -/
def State.resyncHash (s : State) (far : FarBytes) : Nat :=
  let k := hashKey (match s.plans.active with | some p => p.seed | none => 0) allOnes64
  let base := (s.copyExtents.map (fun e => zeroTerms k (e.1 / 8) (e.2 / 8))).foldl (fun x y => (x + y) % hashMod) 0
  (s.usedRows far).foldl (fun h r => (List.range 64).foldl (fun h i =>
    let a := r.1 + 8 * i
    let w := s.copyWord far a
    (h + hashTerm k (a / 8) w.1 0xFF (b2n w.2) + (hashMod - hashTerm k (a / 8) 0 0xFF 0)) % hashMod) h) base

/-! ## Sending (R562 step 4) -/

/-- Segments of an extent: zero rows or not, first address, rows. At most 64 rows in one that is not zero. -/
def rowSegs (cur last : Nat) : List Nat → List (Bool × Nat × Nat)
  | [] => if cur < last then [(true, cur, (last - cur) / 512)] else []
  | r :: l =>
    let here := rowSegs (r + 512) last l
    let joined := match here with
      | (false, a, n) :: rest => if n < 64 then (false, r, n + 1) :: rest else (false, r, 1) :: (false, a, n) :: rest
      | _ => (false, r, 1) :: here
    if cur < r then (true, cur, (r - cur) / 512) :: joined else joined

/-- The copy set is read: words verified, poisoned responses of far devices counted. -/
def State.readCopySet (s : State) (far : FarBytes) : State :=
  s.copyExtents.foldl (fun s e => if isFar e.1 then s else s.verifyExtent e.1 e.2) (s.farHeard far)

/-- Send what a segment holds. -/
def State.sendSeg (s : State) (far : FarBytes) (g : Bool × Nat × Nat) : State :=
  let s1 := s.wr pgKnk Reg.knkRsDoneRows (s.knk Reg.knkRsDoneRows + g.2.2)
  if g.1 then s1.knkSend 0x21 [g.2.1, g.2.2] []
  else
    let ws := (List.range (64 * g.2.2)).map (fun i => s.copyWord far (g.2.1 + 8 * i))
    s1.knkSend 0x20 (g.2.1 :: ws.map (fun w => w.1)) (((ws.zipIdx).filter (fun e => e.1.2)).map (fun e => e.2 + 1))

/-- Send the copy set from an address on, and RS_END. -/
def State.sendCopy (s : State) (far : FarBytes) (from_ : Nat) : State :=
  let rows := (s.usedRows far).map (fun e => e.1)
  let segs := s.copyExtents.flatMap (fun e =>
    let lo := max e.1 from_
    if lo < e.1 + e.2 then rowSegs lo (e.1 + e.2) (rows.filter (fun r => decide (lo ≤ r) && decide (r < e.1 + e.2))) else [])
  let total := (s.copyExtents.map (fun e => e.2 / 512)).foldl (· + ·) 0
  (segs.foldl (fun (s : State) g => s.sendSeg far g) s).knkSend 0x23 [s.resyncHash far, total] []

/-! ## Entering and holding (R561, R562 steps 1 to 3) -/

def State.setResync (s : State) (r : Resync) : State := s.updPair (fun p => { p with resync := some r })

/-- The stoke unit holds: the modules exchange records. -/
def State.resyncHeld (s : State) : State :=
  match s.pair.resync with
  | some r => if s.pstate = 5 ∧ r.step = .hold then (s.setResync { r with step := .record }).sendRecord else s
  | none => s

/-- Enter RESYNC on a side: 0 sender, 1 receiver. -/
def State.enterResync (s : State) (dir : Nat) : State :=
  ((s.toPstate 5).wrs pgKnk [(Reg.knkStateDir, dir), (Reg.knkRsDoneRows, 0)]).setResync
    { step := .hold, rows := 0, acked := 0, paused := false }

/-- KNK_RESYNC_TX: accepted under R561; `partnerOk` says that the receiver asks for BANKED and holds an equal plan. -/
def State.resyncTx (s : State) (partnerOk : Bool) : State :=
  if s.pairEn && decide (s.pstate = 0) && s.lit && s.plans.active.isSome && s.linkGood && partnerOk &&
    (decide (s.pair.partnerState = 0) || decide (s.pair.partnerState = 4)) then
    let s1 := (s.enterResync 0).sendHeartbeat
    if s1.rd pgStk Reg.stkState = 3 then s1.resyncHeld else s1
  else s.err pgKnk 0x03 (Reg.regOff Reg.knkCmdResyncTx)
def execKnkResyncTx (partnerOk : Bool) (s : State) : Host.Outcome State Fault Refusal := answer (s.resyncTx partnerOk)

/-- At the comparison of a clean stoke the sender quenches the following one to HELD (R562 step 2). -/
def State.resyncQuench (s : State) : State :=
  match s.pair.resync with
  | some r => if s.pstate = 5 ∧ r.step = .hold ∧ !s.flag pgKnk Reg.knkStateDir ∧ s.running ∧ s.stoke.fails = [] ∧
      !s.stoke.quenchNext then s.quench 5 true else s
  | none => s

/-- The partner resynchronises this module: a plan active and HELD, or staged and IDLE, lets it enter RESYNC as receiver
(R561, R562 step 1). -/
def State.joinResync (s : State) : State :=
  if s.linkGood && (decide (s.pstate = 0) || decide (s.pstate = 4)) && !decide (s.shadowOf pgKnk Reg.knkCtrlRoleReq = 1) then
    if s.rd pgStk Reg.stkState = 3 ∧ s.plans.active.isSome then (s.enterResync 1).resyncHeld
    else if s.rd pgStk Reg.stkState = 0 ∧ s.stagedOk then
      (s.enterResync 1).updStoke (fun u =>
        { u.addNext 5 s.now with startCmd := true, quenchNext := true, quenchHoldNext := true })
    else s
  else s

/-! ## The exchange of records and the end (R562, R564, R565) -/

/-- Records match in RESYNC: each side answers, whichever held first; the sender copies, the receiver takes rows; a link that is back
resumes the copy after the last RS_ACK. -/
def State.resyncRecord (s : State) (far : FarBytes) : State :=
  match s.pair.resync with
  | none => s
  | some r =>
    let sender := !s.flag pgKnk Reg.knkStateDir
    if r.step = .record then
      let s1 := (s.setResync { r with step := .copy, paused := false }).sendRecord
      if sender then (s1.readCopySet far).sendCopy far 0 else s1
    else if r.step = .copy ∧ r.paused then
      let s1 := s.setResync { r with paused := false }
      if sender then (s1.readCopySet far).sendCopy far r.acked else s1
    else s

/-- The copy has ended well: PAIRED and RESYNC_DONE; this module will resume at work stoke w and says so (R564, R565). -/
def State.resyncDone (s : State) (w : Nat) : State :=
  let s1 := (s.updPair (fun p => { p with resync := none })).toPstate 1
  ((s1.setCause pgKnk Reg.causeKnkResyncDone).wr pgStk Reg.stkResume w).sendReady w

/-- RS_ACK: rows up to an address are written at the receiver. -/
def State.rsAcked (s : State) (a : Nat) : State :=
  match s.pair.resync with
  | some r => s.setResync { r with acked := max r.acked a }
  | none => s

/-- The receiver has written rows: it counts them and acknowledges every 65,536 (R562 step 5). -/
def State.rsWrote (s : State) (a n : Nat) : State :=
  match s.pair.resync with
  | none => s
  | some r =>
    let s1 := (s.setResync { r with rows := r.rows + n }).wr pgKnk Reg.knkRsDoneRows (r.rows + n)
    if r.rows / 65536 < (r.rows + n) / 65536 then s1.knkSend 0x22 [a + 512 * n] [] else s1

/-- The receiver takes rows. -/
def State.receiving (s : State) : Bool :=
  decide (s.pstate = 5) && s.flag pgKnk Reg.knkStateDir && (match s.pair.resync with | some r => r.step = .copy | none => false)

/-- Write one word of a copied row. -/
def State.rsWord (s : State) (a v : Nat) (bad : Bool) : State :=
  if isFar a then s.farSend a (leBytes 8 v) (if bad then [0] else []) 0xFF 8 true .service else s.rawWord a v bad

/-- RS_ROWS: rows of 64 words from an address; `ws` are the words after it. -/
def State.gotRows (s : State) (a : Nat) (ws : List (Nat × Bool)) : State :=
  if !s.receiving then s
  else ((ws.zipIdx).foldl (fun (s : State) (e : (Nat × Bool) × Nat) => s.rsWord (a + 8 * e.2) e.1.1 e.1.2) s).rsWrote a (ws.length / 64)

/-- RS_ZERO: a run of zero rows. What the run holds is cleared; in the far tier zeros are written. -/
def State.gotZero (s : State) (a n : Nat) : State :=
  if !s.receiving then s
  else if isFar a then
    ((s.farSend a (List.replicate (512 * n) 0) [] (2 ^ (512 * n) - 1) (512 * n) true .service)).rsWrote a n
  else
    let inRun := fun (x : Nat) => decide (a ≤ x) && decide (x < a + 512 * n)
    let words := (((s.mem.map (fun (e : Nat × Byte) => e.1 / 8)) ++ (s.memBad.map (fun (e : Nat × Bool) => e.1)) : List Nat)).filter (fun w => inRun (8 * w))
    let s1 := (List.range (ceilDiv (512 * n) 65536)).foldl (fun (s : State) i => s.ckptWrite (a + 65536 * i)) s
    ((words.eraseDups.foldl (fun (s : State) w => s.rawWord (8 * w) 0 false) s1).cutVague a (a + 512 * n)).rsWrote a n

/-- The plan hash of the active plan, zeros with none. -/
def State.planHashNow (s : State) : List Byte := match s.plans.active with | some p => p.planHash | none => List.replicate 48 0

/-- RS_END: equal hashes void both checkpoint records, pair the modules and make this one BANKED; unequal ones fail (R564). -/
def State.gotRsEnd (s : State) (h : Nat) (far : FarBytes) : State :=
  if !s.receiving then s
  else
  let s := s.readCopySet far
  if h = s.resyncHash far then
    let work := leNat (recPart (s.pair.partnerRec.getD []) 128 8)
    let void := fun (s : State) (g : Nat) =>
      s.writeCkptRecord { work := (s.ckRec g).work, gen := g, regions := s.regions, planHash := s.planHashNow, todo := []
                          isVoid := true, finished := false } 2
    (((void (void s 0) 1).setRole false).resyncDone work)
  else s.resyncFail

end Sys2Proof.Machine
end

