-- ==== Sys2Proof/Machine/Messages.lean ====
section
/-! DEFINITION. Kenka messages as they are received, heartbeats, link-up and link loss (spec/16 R530, R534 to R541,
R546, R553 to R560). -/
namespace Sys2Proof.Machine

/-! ## Comparing records (R518, R519, R557) -/

/-- The partner's record is compared with the own one. -/
def State.compareRec (s : State) (rec_ : List Byte) (far : FarBytes) : State :=
  let mask := recMismatch s.detrec rec_
  let s1 := (s.updPair (fun p => { p with partnerRec := some rec_, matched := decide (mask = 0) })).wr pgKnk
    Reg.knkMismatchMask mask
  if mask = 0 then
    match s1.pstate with
    | 0 => s1.tryPair
    | 2 => if s1.pair.hbSeen then s1.judgeJournals else s1
    | 3 =>
      let s2 := match s1.pair.ownSplit with
        | some m => s1.knkSend 0x06 ([m.work, m.faults] ++ m.hashes) []
        | none => s1
      let s3 := if s2.knk Reg.knkSplitOutcome = 3 then s2.sendCkpt else s2
      match s3.pair.readyOwn with
      | some w => s3.knkSend 0x08 [w, 2] []
      | none => s3
    | 5 => s1.resyncRecord far
    | _ => s1
  else
    let s2 := (s1.setCause pgKnk Reg.causeKnkRecord).err pgKnk 0xB1 mask
    match s2.pstate with
    | 3 => s2.setCause pgKnk Reg.causeKnkSplitHost
    | 5 => s2.resyncFail
    | _ => s2

/-! ## The messages of R537 -/

/-- DIGEST: held for comparison (R546); it is no longer awaited (R548). -/
def State.gotDigest (s : State) (ws : List Nat) : State :=
  let d := digRecOf ws
  s.updPair (fun p =>
    let l := p.theirs ++ [d]
    { p with
      theirs := l.drop (l.length - 65536)
      fresh := p.fresh ++ [d]
      awaited := if d.isVoid then p.awaited else p.awaited.filter (fun e => e.1 ≠ d.work) })

/-- What KNK_STATE.PHB shows: 1 BANKED, 2 LIT, 3 SPENT (R566). -/
def phbCode (spent lit : Bool) : Nat := if spent then 3 else if lit then 2 else 1

/-- Two modules of one position never pair (R558). -/
def State.posClash (s : State) (pos : Bool) : State :=
  if s.pairEn && decide (b2n pos = s.knk Reg.knkCtrlPos) then s.setCause pgKnk Reg.causeKnkPosClash else s

/-- HEARTBEAT (R537 to R539, R557). -/
def State.gotHeartbeat (s : State) (ws : List Nat) : State :=
  let w := ws.getD 0 0
  let st := bitsAt w 0 3
  let s1 := s.updPair (fun p => { p with
    partnerState := st, partnerLit := bitAt w 3, partnerPos := bitAt w 4, partnerWork := some (ws.getD 1 0)
    linkLive := true, hbSeen := true })
  let s2 := s1.wrs pgKnk [(Reg.knkStatePhb, phbCode (st = 4) (bitAt w 3)), (Reg.knkStateLag, lagField s1.lag)]
  let s3 := if s.pair.hbSeen then s2 else s2.posClash (bitAt w 4)
  if !s3.pairEn then s3
  else if st = 4 then s3.partnerLost none
  else if s3.pstate = 3 ∧ s3.knk Reg.knkSplitOutcome = 4 ∧ st = 0 ∧ bitAt w 3 then s3.enterSpent
  else if st = 5 ∧ (s3.pstate = 0 ∨ s3.pstate = 4) then s3.joinResync
  else if s3.pstate = 0 then s3.tryPair
  else if s3.pstate = 2 ∧ s3.pair.matched ∧ s3.linkGood ∧ !s.pair.hbSeen then s3.judgeJournals
  else s3

/-- SPLIT: with both held and the stoke unit HELD, the table of R553. -/
def State.gotSplit (s : State) (ws : List Nat) : State :=
  (s.updPair (fun p => { p with
    partnerSplit := some { work := ws.getD 0 0, faults := ws.getD 1 0, hashes := (List.range 304).map (fun i => ws.getD (i + 2) 0) } })).judgeSplit

/-- CKPT: both records of the partner (R554). -/
def State.gotCkpt (s : State) (ws : List Nat) : State :=
  let bytes := ws.flatMap (leBytes 8)
  let s1 := s.updPair (fun p => { p with ckTheirs := some [ckptRecOf (recPart bytes 0 64), ckptRecOf (recPart bytes 64 64)] })
  if s1.pstate = 3 ∧ s1.knk Reg.knkSplitOutcome = 3 then s1.selectReload else s1

/-- READY: it may end a resynchronisation at the sender, and matches the own READY (R555, R565). -/
def State.gotReady (s : State) (w n : Nat) : State :=
  let s1 := s.updPair (fun p => { p with readyTheirs := some (w, n) })
  let s2 := if s1.pstate = 5 ∧ !s1.flag pgKnk Reg.knkStateDir then s1.resyncDone (s1.rd pgStk Reg.stkWork) else s1
  s2.readyMatch n

/-- INGEST: a forwarded block is written in its work stoke; before it, it is kept (R540). -/
def State.gotIngest (s : State) (ws : List (Nat × Bool)) : State :=
  match ws with
  | (work, _) :: (addr, _) :: data =>
    if s.fwdBanked then
      let s1 := s.updPair (fun p => { p with forwarded := p.forwarded ++ [(work, addr, data)] })
      if s1.stoke.working && !s1.stoke.quenched && decide (s1.stoke.phase = .work) && decide (s1.rd pgStk Reg.stkWork = work) then
        (data.zipIdx).foldl (fun (s : State) e => s.homeWord (addr + 8 * e.2) e.1.1 e.1.2) s1
      else s1
    else s
  | _ => s

/-- At the start of a work stoke the blocks kept for it are written. -/
def State.writeForwarded (s : State) : State :=
  (s.pair.forwarded.filter (fun b => b.1 = s.rd pgStk Reg.stkWork)).foldl (fun (s : State) b =>
    (b.2.2.zipIdx).foldl (fun (s : State) e => s.homeWord (b.2.1 + 8 * e.2) e.1.1 e.1.2) s) s

/-- A whole message: header, words with poison (R537). -/
def State.receiveMsg (s : State) (h : Nat) (ws : List (Nat × Bool)) (far : FarBytes) : State :=
  let v := ws.map (fun e => e.1)
  match bitsAt h 56 8 with
  | 0x01 => s.gotDigest v
  | 0x02 => if s.pairEn then s.partnerNotice (v.getD 0 0) else s
  | 0x03 => s.gotHeartbeat v
  | 0x04 => if s.pairEn then s.compareRec (v.flatMap (leBytes 8)) far else s
  | 0x05 => s.gotHandoff (v.getD 0 0)
  | 0x06 => s.gotSplit v
  | 0x07 => s.gotCkpt v
  | 0x08 => s.gotReady (v.getD 0 0) (v.getD 1 0)
  | 0x10 => s.gotIngest ws
  | 0x20 => s.gotRows (v.getD 0 0) (ws.drop 1)
  | 0x21 => s.gotZero (v.getD 0 0) (v.getD 1 0)
  | 0x22 => s.rsAcked (v.getD 0 0)
  | 0x23 => s.gotRsEnd (v.getD 0 0) far
  | _ => s.setCause pgKnk Reg.causeKnkProto

/-- The header of a message of a type. -/
def msgHeader (mt : Nat) : Nat := mt * 2 ^ 56

/-- The words of a message row with the numbers of the poisoned ones. -/
def msgWords (ws : List (BitVec 64)) (bad : List Nat) : List (Nat × Bool) :=
  (ws.zipIdx).map (fun e => (e.1.toNat, bad.contains e.2))

def execDigest (words : List (BitVec 64)) (s : State) : Host.Outcome State Fault Refusal :=
  answer (s.receiveMsg (msgHeader 0x01) (msgWords words []) [])
def execReplay (work : BitVec 64) (s : State) : Host.Outcome State Fault Refusal :=
  answer (s.receiveMsg (msgHeader 0x02) (msgWords [work] []) [])
def execHeartbeat (words : List (BitVec 64)) (s : State) : Host.Outcome State Fault Refusal :=
  answer (s.receiveMsg (msgHeader 0x03) (msgWords words []) [])
def execRecordMsg (words : List (BitVec 64)) (far : FarBytes) (s : State) : Host.Outcome State Fault Refusal :=
  answer (s.receiveMsg (msgHeader 0x04) (msgWords words []) far)
def execHandoff (work : BitVec 64) (s : State) : Host.Outcome State Fault Refusal :=
  answer (s.receiveMsg (msgHeader 0x05) (msgWords [work] []) [])
def execSplitMsg (words : List (BitVec 64)) (s : State) : Host.Outcome State Fault Refusal :=
  answer (s.receiveMsg (msgHeader 0x06) (msgWords words []) [])
def execCkpt (words : List (BitVec 64)) (s : State) : Host.Outcome State Fault Refusal :=
  answer (s.receiveMsg (msgHeader 0x07) (msgWords words []) [])
def execReadyMsg (words : List (BitVec 64)) (s : State) : Host.Outcome State Fault Refusal :=
  answer (s.receiveMsg (msgHeader 0x08) (msgWords words []) [])
def execIngest (words : List (BitVec 64)) (bad : List Nat) (s : State) : Host.Outcome State Fault Refusal :=
  answer (s.receiveMsg (msgHeader 0x10) (msgWords words bad) [])
def execRsRows (words : List (BitVec 64)) (bad : List Nat) (s : State) : Host.Outcome State Fault Refusal :=
  answer (s.receiveMsg (msgHeader 0x20) (msgWords words bad) [])
def execRsZero (words : List (BitVec 64)) (s : State) : Host.Outcome State Fault Refusal :=
  answer (s.receiveMsg (msgHeader 0x21) (msgWords words []) [])
def execRsAck (addr : BitVec 64) (s : State) : Host.Outcome State Fault Refusal :=
  answer (s.receiveMsg (msgHeader 0x22) (msgWords [addr] []) [])
def execRsEnd (words : List (BitVec 64)) (far : FarBytes) (s : State) : Host.Outcome State Fault Refusal :=
  answer (s.receiveMsg (msgHeader 0x23) (msgWords words []) far)

/-- INVALID_MESSAGE: a message of any other type is discarded (R537). -/
def execInvalidMessage (s : State) : Host.Outcome State Fault Refusal := answer (s.receiveMsg (msgHeader 0) [] [])

/-- What FEC delivers of a flit, and the symbols it corrected in the block, counted with the block's first flit (R531, R566). -/
def fecFlit (b : KnkBlock) (place : Fin 4) : BitVec 2048 × Nat :=
  let e := b.errors.map (fun h => (h.1.val, h.2))
  (Fec.delivered b.sent e place, if place.val = 0 then (Fec.correction e).length else 0)

/-- KENKA_FLIT_RECEIVE: a flit of a block comes (R531 to R537); nothing comes while the link is down or retrains. -/
def execKenkaFlitReceive (block : KnkBlock) (place : Fin 4) (far : FarBytes) (s : State) :
    Host.Outcome State Fault Refusal :=
  if !s.flag pgKnk Reg.knkStateLinkUp || s.pair.retraining then answer s
  else
    let f := fecFlit block place
    let r := s.flit f.2 f.1
    answer (r.2.foldl (fun (s : State) m => s.receiveMsg m.1 m.2 far) r.1)

/-! ## Link up and link loss (R530, R535, R557) -/

/-- The link is lost, or too narrow, for the pair logic while the pin heartbeat lives. -/
def State.linkGone (s : State) : State :=
  if !s.pairEn then s
  else if s.pstate = 1 ∧ s.pair.pinLive then s.toPstate 2
  else if s.pstate = 5 then
    match s.pair.resync with
    | some r => s.setResync { r with paused := true }
    | none => s
  else s

/-- In UNCHECKED the records above KNK_CONF go to the partner (R756). -/
def State.sendJournal (s : State) : State :=
  let c := (s.knk Reg.knkConfWork + 1) % 2 ^ 64
  (s.pair.journal.filter (fun d => decide (c ≤ d.work) && decide (d.chain = s.pair.chainNo))).foldl
    (fun (s : State) d => s.knkSend 0x01 d.words []) s

/-- Kenka trains: the lanes good in both directions give the width; records are exchanged. -/
def State.kenkaUp (s : State) (good : Nat) : State :=
  let c := laneChoice good
  let s1 := s.wrs pgKnk [(Reg.knkLanesGood, good), (Reg.knkLanesInuse, c.2), (Reg.knkStateWidth, c.1),
    (Reg.knkStateLinkUp, b2n (c.1 ≠ 0))]
  if c.1 = 0 then s1
  else
    let s2 := if c.1 < 16 then s1.setCause pgKnk Reg.causeKnkNarrow else s1
    let s3 := s2.dropLink.updPair (fun p => { p with matched := false, hbSeen := false })
    if !s3.pairEn then s3
    else if !s3.linkGood then s3.sendHeartbeat.linkGone
    else ((if s3.pstate = 2 then s3.sendJournal else s3).sendRecord).sendHeartbeat

/-- KENKA_LINK_LOSS: down for LINK_LOSS µs (R535, R557). -/
def execKenkaLinkLoss (s : State) : Host.Outcome State Fault Refusal :=
  let s1 := s.wrs pgKnk [(Reg.knkStateLinkUp, 0), (Reg.knkStateWidth, 0), (Reg.knkLanesInuse, 0)]
  answer ((s1.dropLink.setCause pgKnk Reg.causeKnkLinkDown).linkGone)

/-! ## Heartbeats (R538, R539, R557, R755) -/

/-- HB_TRANSMIT: a pulse whose width in µs codes the role, and a HEARTBEAT message; a period of the hand-off window passes. -/
def execHbTransmit (s : State) : Host.Outcome State Fault Refusal :=
  let us := if s.pstate = 4 then 40 else if s.codedLit then 20 else 10
  answer (((s.emit (.pulse "PAIR_HB_TX" us)).sendHeartbeat).updPair (fun p => { p with window := p.window - 1 }))

/-- A pulse width in ns within 25 % of a code: 1 BANKED, 2 LIT, 3 SPENT. -/
def pulseCode (ns : Nat) : Nat :=
  if 7500 ≤ ns ∧ ns ≤ 12500 then 1
  else if 15000 ≤ ns ∧ ns ≤ 25000 then 2
  else if 30000 ≤ ns ∧ ns ≤ 50000 then 3
  else 0

/-- HB_PULSE_RECEIVE: a valid pulse makes the pin path live and gives the partner's code. -/
def execHbPulseReceive (width : Nat) (s : State) : Host.Outcome State Fault Refusal :=
  let c := pulseCode width
  answer (if c = 0 then s
    else
      let s1 := (s.updPair (fun p => { p with
        pinLive := true
        partnerLit := decide (c = 2)
        partnerState := if c = 3 then 4 else if p.partnerState = 4 then 0 else p.partnerState })).wrs pgKnk
          [(Reg.knkStatePinOk, 1), (Reg.knkStatePhb, c)]
      if c = 3 then s1.partnerLost none else s1)

/-- HB_PATH_LOSS: a heartbeat path is lost; with both lost the partner is (R539, R557). -/
def execHbPathLoss (pin : Bool) (s : State) : Host.Outcome State Fault Refusal :=
  let s1 := if pin then (s.updPair (fun p => { p with pinLive := false })).wr pgKnk Reg.knkStatePinOk 0
    else s.updPair (fun p => { p with linkLive := false })
  answer (
    if !s1.pair.pinLive && !s1.pair.linkLive then (s1.wr pgKnk Reg.knkStatePhb 0).partnerLost none
    else if pin then s1.setCause pgKnk Reg.causeKnkHbPin
    else s1)

/-- DUAL_LIT_DETECT: both have coded LIT for two periods; position B gives way (R557, R755). -/
def execDualLitDetect (s : State) : Host.Outcome State Fault Refusal :=
  answer (if s.pairEn && s.codedLit && s.pair.partnerLit && decide (s.pstate ≤ 2) then
      let s1 := (s.setCause pgKnk Reg.causeKnkDualLit).err pgKnk 0xB3 0
      if !s1.flag pgKnk Reg.knkCtrlPos then s1
      else if s1.pstate = 1 then s1.setRole false
      else s1.enterSpent
    else s)

/-- RESYNC_HOLD_EXPIRY: the hold of a waiting SPLIT or a paused copy ends with the link down (R557). -/
def execResyncHoldExpiry (s : State) : Host.Outcome State Fault Refusal :=
  answer (if !s.pairEn || s.linkGood then s
    else if s.pstate = 3 then s.setCause pgKnk Reg.causeKnkSplitHost
    else if s.pstate = 5 then s.partnerLost none
    else s)

end Sys2Proof.Machine
end

