-- ==== Sys2Proof/Machine/Smoke.lean ====
section
/-! DEFINITION. Smoke: trace groups, their delivery and flush, and the counter pages (spec/22). -/
namespace Sys2Proof.Machine

def State.updSmoke (s : State) (f : Smoke → Smoke) : State := { s with smoke := f s.smoke }

/-! ## Register words as stored -/

/-- The part of a field's value that lies in the 32-bit word at an offset. -/
def wordPart (f : Fld) (off v : Nat) : Nat :=
  if f.bit + f.width ≤ 8 * off ∨ 8 * off + 32 ≤ f.bit then 0
  else if 8 * off ≤ f.bit then v * 2 ^ (f.bit - 8 * off) % 2 ^ 32
  else v / 2 ^ (8 * off - f.bit) % 2 ^ 32

/-- The 32-bit word at an offset of a page, from its stored fields. -/
def State.regWord (s : State) (p : Page) (off : Nat) : Nat :=
  (Reg.fieldsOf p.kind).foldl (fun n f => n ||| wordPart f off (s.rd p f)) 0

/-- Words of a page as bytes. -/
def State.regBytes (s : State) (p : Page) (off n : Nat) : List Byte :=
  (List.range n).flatMap (fun i => leBytes 4 (s.regWord p (off + 4 * i)))

/-! ## Records (R710) -/

/-- A record's bytes followed by their CRC. -/
def withCrc (l : List Byte) : List Byte := l ++ leBytes 4 (Hash.crc32c l)

/-- Events of the stoke that a register also counts. -/
def State.stokeCount (s : State) (p : Page) (f : Fld) (w : Nat) : Nat :=
  min (2 ^ w - 1) (SMap.getD s.smoke.counts (regKey p f) 0)

/-- The MARK_IDs of the last four marks, oldest first. -/
def lastMarks (l : List Nat) : List Nat :=
  let k := l.drop (l.length - 4)
  k ++ List.replicate (4 - k.length) 0xFFFF

/-- The record of a logical tile. -/
def State.tileRecord (s : State) (n : Nat) : List Byte :=
  let t := s.tile n
  let skips := s.stokeCount (pgMxa n) Reg.mxaSkipSkipped 16
  let flags := b2n t.barStall + 2 * b2n t.vStray + 4 * b2n (decide (0 < skips)) + 8 * b2n t.overrun + 16 * b2n t.excTaken +
    32 * b2n t.slow + 64 * b2n t.poisonUsed
  withCrc (byteList [2, flags, s.rd (pgTil n) Reg.tilLogicalLtile, n] ++ leBytes 4 (s.rd pgStk Reg.stkNum) ++
    leBytes 2 (s.rd (pgVec n) Reg.vecStkFlags) ++ leBytes 2 skips ++ leBytes 4 t.vIssues ++
    s.regBytes (pgTil n) 0x04C 4 ++ s.regBytes (pgTil n) 0x05C 1 ++ leBytes 4 (s.rd (pgTil n) Reg.tilExcMaskLanes) ++
    leBytes 8 (s.rd (pgTil n) Reg.tilExcPc) ++ (lastMarks t.marks).flatMap (leBytes 2) ++ leBytes 4 t.lastExit)

/-- The record of a partition in service. -/
def State.partRecord (s : State) (n : Nat) : List Byte :=
  let p := pgHrt n
  let thr := SMap.getD s.hub.thrashed n 0
  let seen := SMap.getD s.smoke.seen n 0
  let ue := s.stokeCount p Reg.hrtUeCount 32
  let flags := b2n (decide (0 < thr)) + 2 * b2n (bitAt seen Reg.causeHrtOrdGap) + 4 * b2n (bitAt seen Reg.causeHrtOrdLost) +
    8 * b2n (bitAt seen Reg.causeHrtOrdBad) + 16 * b2n (decide (0 < ue)) + 32 * b2n (s.flag (pgTil n) Reg.statFenced)
  withCrc (byteList [3, flags] ++ leBytes 2 n ++ leBytes 4 (s.rd pgStk Reg.stkNum) ++
    byteList [s.rd p Reg.hrtRedFlags, thr, 0, 0] ++ leBytes 4 (s.stokeCount p Reg.hrtCorrCount 32) ++ leBytes 4 ue ++
    leBytes 4 (s.stokeCount p Reg.hrtHitCount 32) ++ leBytes 4 (s.stokeCount p Reg.hrtMissCount 32) ++
    leBytes 4 (s.stokeCount p Reg.hrtOrdRefuseCount 32) ++ leBytes 8 (SMap.getD s.hashes (144 + n) 0) ++ leBytes 20 0)

/-- A broken-guarantee record. -/
def bgrRecord (r : BgRecord) : List Byte :=
  withCrc (leBytes 16 4 ++ leBytes 4 r.w0 ++ leBytes 4 r.stk ++ leBytes 4 r.cycle ++ leBytes 4 r.slots ++ leBytes 28 0)

/-- FLAGS of the device record. -/
def State.deviceFlags (s : State) (failed : Bool) : Nat :=
  b2n (decide (s.rd pgStk Reg.stkNum % (s.rd pgSmk Reg.smkCtrlSample + 1) = 0)) + 2 * b2n failed + 4 * b2n s.stoke.quenched +
  8 * b2n s.smoke.lost

/-- The device record, two slots. -/
def State.deviceRecord (s : State) (failed isVoid : Bool) (slots nbgr : Nat) : List Byte :=
  withCrc (byteList [1, s.deviceFlags failed, s.rd pgStk Reg.stkState + 16 * s.rd pgStk Reg.stkStateDamper +
      64 * s.rd pgStk Reg.stkStateDampChg + 128 * s.rd pgStk Reg.stkStateSyncLost,
      s.rd pgStk Reg.stkFailCause % 16 + 16 * s.rd pgStk Reg.stkStateReplayCnt] ++
    leBytes 2 slots ++ byteList [nbgr, 0] ++ leBytes 8 (s.rd pgStk Reg.stkNum) ++ leBytes 8 (s.rd pgStk Reg.stkWork) ++
    leBytes 4 (s.rd pgStk Reg.stkMargin) ++ leBytes 4 (s.rd pgStk Reg.stkLastUs) ++ leBytes 4 (s.rd pgStk Reg.stkSyncPhase) ++
    leBytes 4 (s.rd pgSmk Reg.smkDropCount) ++
    (List.range 8).flatMap (fun w => leBytes 4 (if isVoid then 0 else s.rd pgKnk (Reg.knkDigDigest w))) ++
    (match s.plans.active with | some p => p.planHash | none => List.replicate 48 0) ++ leBytes 4 0)

/-- Tile and partition records are frozen at the commit point (R709). -/
def State.freezeRecords (s : State) : State :=
  let tiles := (List.range s.liveTiles.length).map (fun l => s.tileRecord (s.physOf l))
  let parts := ((List.range 160).filter (fun n => !s.flag (pgHrt n) Reg.statFenced)).map s.partRecord
  s.updSmoke (fun x => { x with tileRecs := tiles, partRecs := parts })

/-! ## Groups (R708, R709, R711) -/

/-- DEST in effect; 3 is treated as 0. -/
def State.traceDest (s : State) : Nat := let d := s.rd pgSmk Reg.smkCtrlDest; if d = 3 then 0 else d

/-- PEND follows the formed groups. -/
def State.setGroups (s : State) (l : List (List (List Byte))) : State :=
  (s.updSmoke (fun x => { x with groups := l })).wr pgSmk Reg.smkStatePend l.length

/-- A group is dropped whole. -/
def State.dropGroup (s : State) : State :=
  ((s.updSmoke (fun x => { x with lost := true })).bump pgSmk Reg.smkDropCount 1).setCause pgSmk Reg.causeSmkDrop

/-- The records of the ending stoke's group after the device record, in order. -/
def State.groupRest (s : State) : List (List Byte) :=
  (if s.flag pgSmk Reg.smkCtrlBgrEn then s.hub.bgrStoke.map bgrRecord else []) ++
  (if s.flag pgSmk Reg.smkCtrlTileEn then s.smoke.tileRecs else []) ++
  (if s.flag pgSmk Reg.smkCtrlPartEn then s.smoke.partRecs else [])

/-- The stoke is traced. -/
def State.traced (s : State) (failed : Bool) : Bool :=
  decide (s.deviceFlags failed ≠ 0) || s.groupRest.any (fun r => r.getD 0 0 == 4 || r.getD 1 0 != 0)

/-- Smoke forms the group of a traced stoke after the replay decision. -/
def State.formGroup (s : State) (failed isVoid : Bool) : State :=
  if s.traceDest = 0 ∨ !s.traced failed then s
  else if 4 ≤ s.smoke.groups.length then s.dropGroup
  else
    let rest := s.groupRest
    let nbgr := if s.flag pgSmk Reg.smkCtrlBgrEn then s.hub.bgrStoke.length else 0
    let dev := s.deviceRecord failed isVoid (rest.length + 2) nbgr
    s.setGroups (s.smoke.groups ++ [[dev.take 64, dev.drop 64] ++ rest])

/-! ## The host ring (R712) -/

/-- Slots of the ring; 0 with no ring. -/
def State.ringSlots (s : State) : Nat :=
  let l := s.rd pgSmk Reg.smkRingSizeLog
  if 10 ≤ l ∧ l ≤ 24 then 2 ^ l else 0

/-- Room in the ring. -/
def State.ringRoom (s : State) : Nat :=
  let n := s.ringSlots
  n - 1 - (s.rd pgSmk Reg.smkRingTail + n - s.rd pgSmk Reg.smkRingHead % n) % n

/-- Write slots with their poisoned 8-byte groups at TAIL onward. -/
def State.ringWrite (s : State) (l : List (List Byte × List Nat)) : State :=
  let n := s.ringSlots
  let t := s.rd pgSmk Reg.smkRingTail
  let s1 := l.zipIdx.foldl (fun (s : State) e =>
    s.emit (.hostWrite (s.rd pgSmk Reg.smkRingBase + 64 * ((t + e.2) % n)) e.1.1 e.1.2)) s
  (s1.wr pgSmk Reg.smkRingTail ((t + l.length) % n)).setCause pgSmk Reg.causeSmkGroup

/-- CXP0 carries writes to the host. -/
def State.hostLinkUp (s : State) : Bool := decide (s.rd (pgCxp 0) Reg.cxpLinkMode ≠ 0)

/-! ## The hearth trace region (R713, R715) -/

/-- A region named by an id passes the check: KIND 0 with ATTR 0 in the last plan to latch. -/
def State.traceRegion (s : State) (id : Nat) : Option Region :=
  if id = 0 then none else s.plans.regions.find? (fun r => r.id = id && r.kind = 0 && r.attr = 0)

/-- The check at a latch point and at a write of SMK_HREG. -/
def State.checkHreg (s : State) (id : Nat) : State :=
  if id = 0 ∨ (s.traceRegion id).isSome then s else s.setCause pgSmk Reg.causeSmkHregBad

/-- Write a slot of the region; no write of Smoke enters a write hash (R707). -/
def State.regionSlot (s : State) (r : Region) (k : Nat) (b : List Byte) : State := s.rawWords (r.base + 64 * k) b

/-- A group goes to the hearth trace region. -/
def State.regionWrite (s : State) (g : List (List Byte)) : State :=
  match s.traceRegion (s.rd pgSmk Reg.smkHregRegion) with
  | none => s.dropGroup.setCause pgSmk Reg.causeSmkHregBad
  | some r =>
    let n := r.len / 64
    if n < g.length then s.dropGroup.setCause pgSmk Reg.causeSmkHregBad
    else
      let next := s.rd pgSmk Reg.smkHptrNext
      let wraps := decide (n < next + g.length)
      let at_ := if wraps then 0 else next
      let s1 := g.zipIdx.foldl (fun (s : State) e => s.regionSlot r (at_ + e.2) e.1) s
      let s2 := s1.wr pgSmk Reg.smkHptrNext (at_ + g.length)
      (if wraps then s2.wr pgSmk Reg.smkHptrWrapped 1 else s2).updSmoke (fun x => { x with lost := false })

/-- SMK_GROUP_DELIVER: the oldest formed group is delivered or dropped (R711 to R715). -/
def execSmkGroupDeliver (s : State) : Host.Outcome State Fault Refusal :=
  answer (match s.smoke.groups with
    | [] => s
    | g :: l =>
      let s1 := s.setGroups l
      match s.traceDest with
      | 1 =>
        if !s.hostLinkUp then s
        else if s.ringSlots = 0 ∨ s.ringRoom < g.length then s1.dropGroup
        else (s1.ringWrite (g.map (fun b => (b, [])))).updSmoke (fun x => { x with lost := false })
      | 2 => if s.rd pgKnk Reg.knkStatePstate = 5 ∨ s.flag pgSmk Reg.smkStateFlushing then s1.dropGroup else s1.regionWrite g
      | _ => s1.dropGroup)

/-! ## Flush (R714) -/

/-- The length in slots of the whole group that starts at a slot of the region; 0 where none does. -/
def State.groupAt (s : State) (r : Region) (k : Nat) : Nat :=
  let b := s.bytesAt (r.base + 64 * k) 128
  let n := leNat ((b.drop 4).take 2)
  if b.getD 0 0 == 1 && decide (Hash.crc32c (b.take 124) = leNat (b.drop 124)) && decide (2 ≤ n) && decide (k + n ≤ r.len / 64) &&
     (decide (s.rd pgSmk Reg.smkHptrNext ≤ k) || decide (k + n ≤ s.rd pgSmk Reg.smkHptrNext)) then n else 0

/-- Device stoke number and slots of every whole group, from a slot on. -/
def State.groupsFrom (s : State) (r : Region) : Nat → Nat → List (Nat × List Nat)
  | 0, _ => []
  | f + 1, k =>
    match s.groupAt r k with
    | 0 => s.groupsFrom r f (k + 1)
    | n => (s.natAt (r.base + 64 * k + 8) 8, (List.range n).map (k + ·)) :: s.groupsFrom r f (k + n)

/-- Insert a group by its stoke number. -/
def insertGroup (g : Nat × List Nat) : List (Nat × List Nat) → List (Nat × List Nat)
  | [] => [g]
  | h :: t => if g.1 < h.1 then g :: h :: t else h :: insertGroup g t

/-- The groups of the region, oldest first. -/
def State.regionGroups (s : State) : List (List Nat) :=
  match s.traceRegion (s.rd pgSmk Reg.smkHregRegion) with
  | none => []
  | some r => ((s.groupsFrom r (r.len / 64) 0).foldl (fun l g => insertGroup g l) []).map (fun g => g.2)

/-- The bytes of a slot of the region, and its poisoned groups. -/
def State.slotBytes (s : State) (k : Nat) : List Byte × List Nat :=
  match s.traceRegion (s.rd pgSmk Reg.smkHregRegion) with
  | none => ([], [])
  | some r =>
    let a := r.base + 64 * k
    (s.bytesAt a 64, (List.range 8).filter (fun i => s.badAt (a + 8 * i)))

/-- The flush copies whole groups while CXP0 carries writes and the ring has room, and ends when none is left. -/
def State.flushOn (s : State) : State :=
  if !s.flag pgSmk Reg.smkStateFlushing then s
  else
    let s1 := s.smoke.flush.foldl (fun (s : State) g =>
      if !s.hostLinkUp || !s.smoke.flush.head? == some g || s.ringRoom < g.length then s
      else (s.ringWrite (g.map s.slotBytes)).updSmoke (fun x => { x with flush := x.flush.tail })) s
    if s1.smoke.flush = [] then (s1.wr pgSmk Reg.smkStateFlushing 0).setCause pgSmk Reg.causeSmkFlushDone else s1

/-- SMK_FLUSH: a write of FLUSH to SMK_CMD. -/
def State.smkFlush (s : State) : State :=
  if s.ringSlots = 0 ∨ s.flag pgSmk Reg.smkStateFlushing then s.err pgSmk 0x03 (Reg.regOff Reg.smkCmdFlush)
  else ((s.updSmoke (fun x => { x with flush := s.regionGroups })).wr pgSmk Reg.smkStateFlushing 1).flushOn

def execSmkFlush (s : State) : Host.Outcome State Fault Refusal := answer s.smkFlush

/-! ## Counters (R716, R717, R722) -/

/-- A page of counters is set to 0. -/
def State.counterClr (s : State) (inst : Nat) : State := (List.range 8).foldl (fun (s : State) k => s.wr (pgSmkc inst) (Reg.smkCnt k) 0) s

/-- SMK_COUNTER_CLR: a write of CLR to SMK_CCTRL of a counter page. -/
def execSmkCounterClr (page : BitVec 12) (s : State) : Host.Outcome State Fault Refusal :=
  answer (if smkcInsts.contains page.toNat then s.counterClr page.toNat else s)

/-- The snapshot of a page at a commit point. -/
def State.snapPage (s : State) (inst : Nat) : State :=
  let p := pgSmkc inst
  (((List.range 8).map (fun k => s.rd p (Reg.smkCnt k))).zipIdx.foldl (fun (s : State) e => s.wr p (Reg.smkSnap e.2) e.1) s).wr p
    Reg.smkSnapStk (s.rd pgStk Reg.stkNum)
def State.snapCounters (s : State) : State := smkcInsts.foldl State.snapPage s

/-- Counters with PERSTK restart at local cycle 0. -/
def State.restartPage (s : State) (inst : Nat) : State :=
  let p := pgSmkc inst
  (bitList 8 (s.rd p Reg.smkCctrlPerstk)).foldl (fun (s : State) k => s.wr p (Reg.smkCnt k) 0) s
def State.restartCounters (s : State) : State := smkcInsts.foldl State.restartPage s

/-- What Smoke clears at local cycle 0. -/
def State.smokeStart (s : State) : State :=
  s.restartCounters.updSmoke (fun x => { x with counts := [], seen := [], tileRecs := [], partRecs := [] })

end Sys2Proof.Machine
end

