-- ==== Sys2Proof/Machine/Legacy.lean ====
section
/-! DEFINITION. The CX-3 legacy page and the I3C event queue (spec/02 R83; spec/20 R670; spec/23 R740). -/
namespace Sys2Proof.Machine

def State.updMod (s : State) (f : Module → Module) : State := { s with mod := f s.mod }

/-- The power mode in effect: compatibility (R638). -/
def State.compat (s : State) : Bool := s.flag pgDev Reg.devStatePmode

/-! ## The legacy page -/

/-- The hottest effective reading of any die, in 1/16 °C (R670). -/
def State.hottest (s : State) : Int :=
  let f := fun d => toSigned 16 (s.rd pgThm (Reg.thmHotEff d))
  max (f 0) (max (f 1) (f 2))

/-- LGC_STATUS: a power fault is a STATUS_WORD with a bit set, as last read. -/
def State.lgcStatus (s : State) : Nat :=
  b2n (s.flag pgDev Reg.devStateReady) + 2 * b2n (s.flag pgThm Reg.thmStateWarn) +
  4 * b2n (decide (0 < s.rd pgStk Reg.stkStateDamper)) +
  8 * b2n (s.power.pages.any (fun e => decide (e.2.2.2 ≠ 0))) + 16 * b2n (!s.compat)

/-- Core clock in MHz of a damper step (spec/19 R640; spec/00 R9). -/
def clockMhz (compat : Bool) (d : Nat) : Nat := if compat then 800 - 200 * d else 940 - 235 * d

/-- Seconds since ready: the µs of the stokes completed since, as STK_LAST_US reported them. What that truncated, and the time
of the stoke that runs, are less than 1 µs a stoke and the longest stoke at the lowest clock of 200 MHz: free within that bound
(notes/assumptions/2.md). -/
def State.uptime (s : State) : Nat :=
  let slack := s.boot.upStokes + ceilDiv (s.stoke.period + s.rd pgStk Reg.stkSyncCfgSyncWin) 200 + 1
  (s.boot.upUs + s.freeBits 64 % slack) / 1000000

/-- The value of the legacy page at an offset. -/
def State.legacy (s : State) (off : Nat) : Nat :=
  match off with
  | 0x000 => 0x0C330400
  | 0x004 => s.lgcStatus
  | 0x008 => ofInt 16 s.hottest
  | 0x00C => s.rd pgPwr Reg.pwrPin
  | 0x010 | 0x014 | 0x018 | 0x01C => if s.compat then (SMap.getD s.power.pages ((off - 0x010) / 4) (0, 0, 0)).1 % 65536 else 0
  | 0x020 => clockMhz s.compat (s.rd pgStk Reg.stkStateDamper)
  | 0x024 => if s.flag pgDev Reg.devStateReady then s.uptime % 2 ^ 32 else 0
  | 0x028 => s.rd pgDev Reg.devSerial % 2 ^ 32
  | 0x02C => s.rd pgDev Reg.devSerial / 2 ^ 32
  | 0x030 => s.rd pgTnd Reg.tndFwVersion
  | _ => 0

/-- A read of the legacy page; reading the uptime draws its value. -/
def State.legacyDrawn (s : State) (off : Nat) : State :=
  if off = 0x024 ∧ s.flag pgDev Reg.devStateReady then s.tookFree else s

/-! ## Events (R740) -/

/-- An event record, with DROPPED left 0 until it is read. -/
def State.eventRec (s : State) (code : Nat) : List Byte :=
  leBytes 4 code ++
  leBytes 4 (2 ^ 28 * s.rd pgTnd Reg.tndBootStep + 2 ^ 27 * s.rd pgTnd Reg.tndBootFast + 2 ^ 16 * s.rd pgTnd Reg.tndBootFail) ++
  leBytes 4 (s.rd pgTnd Reg.tndResetCause) ++ leBytes 8 (s.rd pgDev Reg.devSerial) ++ leBytes 4 s.lgcStatus ++
  leBytes 2 (ofInt 16 s.hottest) ++ leBytes 2 (s.rd pgPwr Reg.pwrPin) ++ leBytes 4 (s.rd pgStk Reg.stkNum)

/-- ALERT_N follows the queue: low while it holds an unread event (R731). -/
def State.alertPin (s : State) (was : Bool) : State :=
  let now := s.mod.events.isEmpty
  if now = was then s else s.emit (.pin "ALERT_N" now)

/-- Queue an event: in-band interrupt, ALERT_N low; a full queue drops its oldest (R740). -/
def State.event (s : State) (code : Nat) : State :=
  let full := decide (8 ≤ s.mod.events.length)
  let s1 := s.updMod (fun m => { m with
    events := (if full then m.events.drop 1 else m.events) ++ [s.eventRec code]
    dropped := if full then min 255 (m.dropped + 1) else m.dropped })
  (s1.emit (.pulse "I3C IBI" code)).alertPin s.mod.events.isEmpty

end Sys2Proof.Machine
end

