-- ==== Sys2Proof/Machine/Power.lean ====
section
/-! DEFINITION. Power delivery: telemetry, floors, damper steps, hob regulators, droops, cracks, PWR_WARN_N, and
switching hobs on and off (spec/19). -/
namespace Sys2Proof.Machine

def State.updPower (s : State) (f : Power → Power) : State := { s with power := f s.power }

/-- Tiles of a hob. -/
def hobTiles (k : Nat) : List Nat := (List.range 10).map (10 * k + ·)

/-- The pages of a hob's tile windows show whether its switches are open (R65, R651). -/
def State.setDark (s : State) (k : Nat) (b : Bool) : State :=
  ((hobTiles k).flatMap tileWindow).foldl (fun (s : State) p => s.wr p Reg.statDark (b2n b)) s

/-- The tiles of a dark hob show it (spec/03 R134). -/
def State.darkTiles (s : State) (k : Nat) : State :=
  (hobTiles k).foldl (fun (s : State) n => s.wr (pgTil n) Reg.tilState 4) s

/-! ## Floors and the damper step (R661, R640, R643, R647) -/

/-- The cap floor: that of R662, at least 1 while the link to the power module is lost (R644). -/
def State.capFloor (s : State) : Nat := max s.power.capFloor (if s.flag pgPwr Reg.pwrStatePmLinkOk then 0 else 1)

/-- The derate floor: 1 while a hob with three failed slices or a crack warning is up (R649, R660). -/
def State.derateFloor (s : State) : Nat :=
  if (List.range 16).any (fun k => s.rd (pgHob k) Reg.hobState = 1 && s.flag (pgHob k) Reg.hobStateDerate) then 1 else 0

/-- Show the floors; a cap or derate floor that rises sets FLOOR (R665). -/
def State.showFloors (s : State) : State :=
  let c := s.capFloor
  let d := s.derateFloor
  let rose := decide (s.rd pgPwr Reg.pwrStateCapFloor < c) || decide (s.rd pgPwr Reg.pwrStateDerateFloor < d)
  let s1 := s.wrs pgPwr [(Reg.pwrStateCapFloor, c), (Reg.pwrStateDerateFloor, d),
    (Reg.pwrStateFloor, max (max c d) s.power.warnFloor)]
  if rose then s1.setCause pgPwr Reg.causePwrFloor else s1

/-- The damper step that the thermal step and the floors ask for (R661). -/
def State.wantedDamper (s : State) : Nat := max (s.rd pgThm Reg.thmStateStep) (s.rd pgPwr Reg.pwrStateFloor)

/-- Give every hob its fused target of a damper step (R645). -/
def State.setTargets (s : State) (d : Nat) : State :=
  (List.range 16).foldl (fun (s : State) k => s.wr (pgHob k) Reg.hobVtgtMv (s.fuses.vtgt.getD (4 * k + d) 0)) s

/-- The AVSBus target of VFB: the highest target of a hob that is up plus 50 mV, rounded up to 5 mV, within
0.80 to 0.95 V; none in compatibility mode; the last one while the link is lost (R643, R644). -/
def State.setVfb (s : State) : State :=
  if s.compat then s.wr pgPwr Reg.pwrVfbVset 0
  else if !s.flag pgPwr Reg.pwrStatePmLinkOk then s
  else
    let top := ((List.range 16).map (fun k => if s.rd (pgHob k) Reg.hobState = 1 then s.rd (pgHob k) Reg.hobVtgtMv else 0)).foldl max 0
    s.wr pgPwr Reg.pwrVfbVset (max 800 (min 950 (5 * ceilDiv (top + 50) 5)))

/-- The core clock changes at a single cycle (R48; spec/01 R50 DAMP_CHG). -/
def State.setDamper (s : State) (d : Nat) : State :=
  if s.rd pgStk Reg.stkStateDamper = d then s
  else s.wrs pgStk [(Reg.stkStateDamper, d), (Reg.stkStateDampChg, 1)]

/-- DAMPER_CHANGE: to a slower step the clock changes first and the voltages fall afterwards; to a faster one the
voltages rise first (R647). -/
def execDamperChange (s : State) : Host.Outcome State Fault Refusal :=
  let now := s.rd pgStk Reg.stkStateDamper
  let want := s.wantedDamper
  answer (
    if want = now then (if s.power.target.isSome then
      ((s.updPower (fun p => { p with target := none })).setTargets now).setVfb else s)
    else if now < want then (((s.setDamper want).updPower (fun p => { p with target := none })).setTargets want).setVfb
    else ((s.updPower (fun p => { p with target := some want })).setTargets want).setVfb)

/-- HOB_TARGET_REACHED: the regulators have reached the targets of a faster step, and the clock changes (R647). -/
def execHobTargetReached (s : State) : Host.Outcome State Fault Refusal :=
  answer (match s.power.target with
    | some d => (s.setDamper d).updPower (fun p => { p with target := none })
    | none => s)

/-! ## Telemetry and the power cap (R642, R644, R662) -/

/-- A transaction with the power module fails; the third in a row loses the link (R644). -/
def State.pmFailed (s : State) : State :=
  let n := s.power.pmFails + 1
  let s1 := s.updPower (fun p => { p with pmFails := n })
  if n < 3 ∨ !s.flag pgPwr Reg.pwrStatePmLinkOk then s1
  else (((s1.wr pgPwr Reg.pwrStatePmLinkOk 0).setCause pgPwr Reg.causePwrPmLink).err pgPwr 0xE1 0).showFloors

/-- Pages of the mode (R641). -/
def State.pmPages (s : State) : Nat := if s.compat then 4 else 6

/-- TELEMETRY_POLL: a poll that fails, or the pages and READ_PIN as read; a fault bit of a STATUS_WORD sets PM_FAULT
(R642, R667). -/
def execTelemetryPoll (ok : Bool) (pages : List PmPage) (pin : BitVec 16) (s : State) : Host.Outcome State Fault Refusal :=
  answer (if !ok then s.pmFailed
    else
      let l := pages.filter (fun e => decide (e.page < s.pmPages))
      let s1 := (s.updPower (fun p => { p with
        pmFails := 0
        pages := l.foldl (fun m e => SMap.ins m e.page (e.vout.toNat, e.iout.toNat, e.status.toNat)) p.pages
        pins := (p.pins ++ [pin.toNat]).drop (p.pins.length + 1 - 255) })).wr pgPwr Reg.pwrStatePmLinkOk 1
      let s2 := s1.showFloors.setVfb.wr pgPwr Reg.pwrVfbVread (SMap.getD s1.power.pages 0 (0, 0, 0)).1
      match l.find? (fun e => decide (e.status ≠ 0)) with
      | some e => (s2.setCause pgPwr Reg.causePwrPmFault).err pgPwr 0xE2 e.status.toNat
      | none => s2)

/-- CAP_W, at most the mode's maximum (R662). -/
def State.capW (s : State) : Nat := min (s.rd pgPwr Reg.pwrCapCapW) (if s.compat then 1900 else 2400)

/-- POWER_CAP_EVAL: the average of READ_PIN over the last WIN ms moves the cap floor by at most one step (R662). -/
def execPowerCapEval (s : State) : Host.Outcome State Fault Refusal :=
  let l := s.power.pins.drop (s.power.pins.length - max 1 (s.rd pgPwr Reg.pwrCapWin))
  let n := l.length
  let sum := l.foldl (· + ·) 0
  let c := s.power.capFloor
  answer (if n = 0 then s
    else
      let s1 := s.wr pgPwr Reg.pwrPin (sum / n)
      if s.capW * n < sum then
        ((s1.updPower (fun p => { p with capFloor := min 3 (c + 1) })).setCause pgPwr Reg.causePwrCap).showFloors
      else if 10 * sum < 9 * s.capW * n then (s1.updPower (fun p => { p with capFloor := c - 1 })).showFloors
      else s1)

/-! ## Minimum voltages and droops (R657 to R659) -/

/-- A voltage sample of a hob: lower samples replace the records (R659). -/
def State.sampleV (s : State) (k mv cyc : Nat) : State :=
  let p := pgHob k
  let d := min 255 (s.rd p Reg.hobVtgtMv - mv)
  let stk := s.rd pgStk Reg.stkNum
  let s1 := s.wr p Reg.hobVMv mv
  let s2 := if s1.flag p Reg.hobVminValid ∧ s1.rd p Reg.hobVminMv ≤ mv then s1
    else s1.wrs p [(Reg.hobVminValid, 1), (Reg.hobVminDeficit, d), (Reg.hobVminMv, mv), (Reg.hobVminStk, stk),
      (Reg.hobVminCycCycle, cyc)]
  if s2.flag pgPwr Reg.pwrVminValid ∧ d ≤ s2.rd pgPwr Reg.pwrVminDeficit then s2
  else s2.wrs pgPwr [(Reg.pwrVminValid, 1), (Reg.pwrVminHob, k), (Reg.pwrVminDeficit, d), (Reg.pwrVminMv, mv),
    (Reg.pwrVminStk, stk), (Reg.pwrVminCycCycle, cyc)]

/-- The minimum-voltage records that are held, as flash keeps them (R664). -/
def State.vminRecs (s : State) : List VminRec :=
  ((List.range 16).filter (fun k => s.flag (pgHob k) Reg.hobVminValid)).map (fun k =>
    let p := pgHob k
    { hob := k, at_ := k, mv := s.rd p Reg.hobVminMv, deficit := s.rd p Reg.hobVminDeficit,
      stk := s.rd p Reg.hobVminStk, cyc := s.rd p Reg.hobVminCycCycle }) ++
  (if s.flag pgPwr Reg.pwrVminValid then
    [{ hob := 16, at_ := s.rd pgPwr Reg.pwrVminHob, mv := s.rd pgPwr Reg.pwrVminMv, deficit := s.rd pgPwr Reg.pwrVminDeficit,
       stk := s.rd pgPwr Reg.pwrVminStk, cyc := s.rd pgPwr Reg.pwrVminCycCycle }] else [])

/-- A voltage is more than a limit of HOB_CTRL below the hob's target. -/
def State.belowBy (s : State) (k mv lim : Nat) : Bool := decide (mv + max 1 lim < s.rd (pgHob k) Reg.hobVtgtMv)

/-- DROOP_WARN: the core clock is stretched (R657). -/
def execDroopWarn (hob : Fin 16) (mv : BitVec 16) (cyc : BitVec 32) (s : State) : Host.Outcome State Fault Refusal :=
  let s1 := s.sampleV hob mv.toNat cyc.toNat
  answer (if s.belowBy hob mv.toNat (s.rd (pgHob hob) Reg.hobCtrlDroopWarn) ∧ !SMap.getD s.power.stretch hob false then
      (s1.updPower (fun p => { p with stretch := SMap.ins p.stretch hob true })).setCause (pgHob hob) Reg.causeHobDroopWarn
    else s1)

/-- DROOP_RECOVER: stretching ends; the stretched cycles are counted (R657). -/
def execDroopRecover (hob : Fin 16) (cycles : BitVec 32) (s : State) : Host.Outcome State Fault Refusal :=
  answer (if SMap.getD s.power.stretch hob false then
      (s.updPower (fun p => { p with stretch := SMap.del p.stretch hob })).bump (pgHob hob) Reg.hobStretchCycles cycles.toNat
    else s)

/-- DROOP_TRIP: the fault summary and the quench (R658, R667). -/
def execDroopTrip (hob : Fin 16) (mv : BitVec 16) (cyc : BitVec 32) (s : State) : Host.Outcome State Fault Refusal :=
  let s1 := s.sampleV hob mv.toNat cyc.toNat
  answer (if s.belowBy hob mv.toNat (s.rd (pgHob hob) Reg.hobCtrlDroopTrip) then
      (((((s1.setCause (pgHob hob) Reg.causeHobDroopTrip).setCause pgPwr Reg.causePwrVmin).err (pgHob hob) 0xE8
        (min 255 (s.rd (pgHob hob) Reg.hobVtgtMv - mv.toNat))).logFault 4).quench 4 false)
    else s1)

/-! ## Slices, cracks and dark hobs (R648, R649, R660) -/

/-- The outcome of the last row of R649 without its quench: the switches open, the hob is dark, its tiles are fenced at
the next latch point. -/
def State.goDark (s : State) (k : Nat) : State :=
  (((((((s.wrs (pgHob k) [(Reg.hobState, 4), (Reg.hobVMv, 0)]).setDark k true).darkTiles k).wr pgPwr Reg.pwrStateRested
    (withoutBit (s.rd pgPwr Reg.pwrStateRested) k)).updPower (fun p => { p with
      rests := SMap.del p.rests k, fenceHobs := if p.fenceHobs.contains k then p.fenceHobs else p.fenceHobs ++ [k]
      stretch := SMap.del p.stretch k })).setCause (pgHob k) Reg.causeHobDark).setCause pgPwr Reg.causePwrHobDark).setVfb.err (pgHob k) 0xEB 0

/-- Slices that failed, in the registers and in the repair record (R648). -/
def State.addSlices (s : State) (k mask : Nat) : State :=
  let m := s.rd (pgHob k) Reg.hobSlicesFailed ||| mask
  ({ s with flash := { s.flash with repSlices := SMap.setD s.flash.repSlices k 0 m } }).wrs (pgHob k)
    [(Reg.hobSlicesFailed, m), (Reg.hobStateFailed, popCount 24 m)]

/-- Slices that fail their test at a kindling: those not failed before are shown, the lowest of them captured (R648, R649, R667). -/
def State.testSlices (s : State) (k mask : Nat) : State :=
  let old := s.rd (pgHob k) Reg.hobSlicesFailed
  let s1 := s.addSlices k mask
  match (bitList 24 mask).filter (fun i => !bitAt old i) with
  | [] => s1
  | i :: _ => (s1.err (pgHob k) 0xE9 i).setCause (pgHob k) Reg.causeHobSliceFail

/-- Three failed slices or a crack warning derate the hob (R649, R660, R666). -/
def State.derateHob (s : State) (k : Nat) : State :=
  if s.flag (pgHob k) Reg.hobStateDerate then s
  else ((s.wr (pgHob k) Reg.hobStateDerate 1).setCause (pgHob k) Reg.causeHobDerate).showFloors

/-- SLICE_FAIL: a slice is switched out for good (R648, R649, R667). -/
def execSliceFail (hob : Fin 16) (slice : Fin 24) (s : State) : Host.Outcome State Fault Refusal :=
  if bitAt (s.rd (pgHob hob) Reg.hobSlicesFailed) slice then answer s
  else
    let s1 := ((s.addSlices hob (2 ^ slice.val)).err (pgHob hob) 0xE9 slice).setCause (pgHob hob) Reg.causeHobSliceFail
    let f := s1.rd (pgHob hob) Reg.hobStateFailed
    answer (
      if f ≤ 2 then s1
      else if f = 3 then s1.derateHob hob
      else if s1.rd (pgHob hob) Reg.hobState = 4 then s1
      else ((s1.quench 4 false).goDark hob).showFloors)

/-- One hob's measurement (R660, R667). -/
def State.crack (s : State) (k now : Nat) : State :=
  let p := pgHob k
  let base := s.rd p Reg.hobResBase
  let above := fun lim => decide (max 1 lim * base < 10 * (now - base))
  let s1 := s.wr p Reg.hobResNow now
  if s.rd p Reg.hobState ≠ 1 then s
  else
    let s2 := if above (s.rd p Reg.hobCtrlCrackWarn) then (s1.setCause p Reg.causeHobCrackWarn).derateHob k else s1
    if above (s.rd p Reg.hobCtrlCrackTrip) ∧ !s2.power.opening.contains k then
      ((s2.setCause p Reg.causeHobCrackTrip).err p 0xEA 0).updPower (fun x => { x with
        opening := x.opening ++ [k], fenceHobs := if x.fenceHobs.contains k then x.fenceHobs else x.fenceHobs ++ [k] })
    else s2

/-- CRACK_MEASURE: every hob measures its supply path in the guard cycles. -/
def execCrackMeasure (readings : List (Fin 16 × BitVec 16)) (s : State) : Host.Outcome State Fault Refusal :=
  answer (readings.foldl (fun (s : State) e => s.crack e.1 e.2.toNat) s)

/-- At B+1,536: hobs with a crack trip whose tiles the latch point has fenced open their switches (R660). -/
def State.openCracked (s : State) : State :=
  let l := s.power.opening.filter (fun k => (hobTiles k).all (fun n => s.flag (pgTil n) Reg.statFenced))
  let s1 := s.updPower (fun p => { p with opening := p.opening.filter (fun k => !l.contains k) })
  (l.foldl (fun (s : State) k =>
    let t := s.goDark k
    t.updPower (fun p => { p with fenceHobs := p.fenceHobs.filter (· ≠ k) })) s1).showFloors

/-! ## PWR_WARN_N (R663, R664) -/

/-- PWR_WARN_ASSERT. -/
def execPwrWarnAssert (s : State) : Host.Outcome State Fault Refusal :=
  answer (if s.flag pgPwr Reg.pwrStateWarn then s
    else ((((s.wr pgPwr Reg.pwrStateWarn 1).bump pgPwr Reg.pwrWarncntAsserts 1).updPower (fun p => { p with
      warnFloor := s.rd pgPwr Reg.pwrCtrlWarnDamper })).setCause pgPwr Reg.causePwrWarn).showFloors)

/-- PWR_WARN_RELEASE: the assertion has lasted `us` µs. -/
def execPwrWarnRelease (us : BitVec 32) (s : State) : Host.Outcome State Fault Refusal :=
  answer (if s.flag pgPwr Reg.pwrStateWarn then
      ((s.wrs pgPwr [(Reg.pwrStateWarn, 0), (Reg.pwrWarnLastUs, us.toNat)]).updPower (fun p => { p with warnFloor := 0 })).showFloors
    else s)

/-- RIDE_EXPIRY: quench to HELD, hand-off, records to flash. -/
def execRideExpiry (s : State) : Host.Outcome State Fault Refusal :=
  answer (if !s.flag pgPwr Reg.pwrStateWarn then s
    else
      let s1 := s.quench 4 true
      let s2 := if s1.flag pgPwr Reg.pwrCtrlHandoffEn then s1.handOff false else s1
      let s3 := (((s2.setCause pgPwr Reg.causePwrRideExpired).err pgPwr 0xE0 0).bump pgPwr Reg.pwrWarncntExpired 1)
      { s3 with flash := { s3.flash with vmins := s3.vminRecs } })

/-! ## Rests and wakes in service (R650 to R656) -/

/-- A tile has work in a work stoke by the facts that the staging of the active plan took from the lists (R650). -/
def State.hasWork (s : State) (n w : Nat) : Bool :=
  match s.plans.active with
  | none => false
  | some p => (p.starts.getD (s.rd (pgTil n) Reg.tilLogicalLtile) []).getD (w % max 1 p.nphase) false

/-- A live tile of a hob has work in a work stoke. -/
def State.hobWork (s : State) (k w : Nat) : Bool :=
  (hobTiles k).any (fun n => !s.flag (pgTil n) Reg.statFenced && s.hasWork n w)

/-- The first work stoke from n on with work for a hob: work repeats with the phases of the plan. -/
def State.nextHobWork (s : State) (k n : Nat) : Option Nat :=
  match s.plans.active with
  | none => none
  | some p => ((List.range (max 1 p.nphase)).map (n + ·)).find? (s.hobWork k)

/-- The wake lead L (R652). -/
def State.wakeLead (s : State) : Nat :=
  8 + ceilDiv (50 * clockMhz s.compat (s.rd pgStk Reg.stkStateDamper)) (max 1 s.stoke.period)

/-- Rest a hob: its switches open, its registers stay, its instruction caches do not (R651). -/
def State.restHob (s : State) (k : Nat) : State :=
  ((((List.range 10).foldl (fun s j =>
      s.updTile (10 * k + j) (fun t => { t with icache := [] })) (s.wr (pgHob k) Reg.hobState 2)).setDark k true).wr pgPwr Reg.pwrStateRested (withBit (s.rd pgPwr Reg.pwrStateRested) k)).updPower
    (fun p => { p with rests := SMap.ins p.rests k .resting })

/-- Request a wake of a resting hob. -/
def State.askWake (s : State) (k : Nat) : State :=
  match SMap.find s.power.rests k with
  | some .resting => s.updPower (fun p => { p with rests := SMap.ins p.rests k (.waking 0) })
  | _ => s

/-- Every resting hob is asked to wake when the stoke unit leaves RUN or REST_EN is cleared (R656). -/
def State.wakeAll (s : State) : State :=
  if s.rd pgStk Reg.stkState = 1 ∧ s.flag pgPwr Reg.pwrCtrlRestEn then s
  else (s.power.rests.map (fun e => e.1)).foldl State.askWake s

/-- At B+1,536 with the next work stoke n: wakes that are due, by the plan that is active now, and new rests
(R650, R652). -/
def State.restsAt (s : State) (n : Nat) : State :=
  let lead := s.wakeLead
  let s1 := s.power.rests.foldl (fun (s : State) e => match s.nextHobWork e.1 n with
    | some w => if w ≤ n + lead then s.askWake e.1 else s
    | none => s) s.wakeAll
  if s1.rd pgStk Reg.stkState ≠ 1 ∨ !s1.flag pgPwr Reg.pwrCtrlRestEn then s1
  else
    let span := max (s1.rd pgPwr Reg.pwrCtrlRestMin) (lead + 1)
    (((List.range 16).filter (fun k => s1.rd (pgHob k) Reg.hobState = 1 && !s1.power.opening.contains k &&
      (match s1.nextHobWork k n with | some w => decide (n + span < w) | none => true))).foldl
        (fun (s : State) k => s.restHob k) s1).setVfb

/-- A stoke is a kindling slot of a hob (R653). -/
def State.kindlingSlot (s : State) (k : Nat) : Bool :=
  !s.running ||
  ((0 < k → !s.hobWork (k - 1) (s.rd pgStk Reg.stkWork)) && (k < 15 → !s.hobWork (k + 1) (s.rd pgStk Reg.stkWork)))

/-- HOB_WAKE_KINDLE: at cycle 0 of a stoke after the request: kindled in a slot, deferred, or forced on the 9th (R654). -/
def execHobWakeKindle (hob : Fin 16) (s : State) : Host.Outcome State Fault Refusal :=
  let p := pgHob hob
  let start := fun (n : Nat) (forced : Bool) =>
    (((s.wrs p [(Reg.hobState, 3), (Reg.hobKindleDefer, n), (Reg.hobKindleForced, b2n forced)]).bump p Reg.hobKindleCount 1).updPower
      (fun x => { x with rests := SMap.ins x.rests hob (.kindling forced) }))
  answer (match SMap.find s.power.rests hob with
    | some (.waking n) =>
      if 8 ≤ n then (start 8 true).setCause p Reg.causeHobForced
      else if s.kindlingSlot hob then start n false
      else s.updPower (fun x => { x with rests := SMap.ins x.rests hob (.waking (n + 1)) })
    | _ => s)

/-- A hob's supply is within its regulation limits (R646). -/
def State.regulated (s : State) (k mv : Nat) : Bool :=
  decide (s.rd (pgHob k) Reg.hobVtgtMv ≤ mv + 25) && decide (mv ≤ s.rd (pgHob k) Reg.hobVtgtMv + 25)

/-- A kindled hob is up: voltage, baseline, derating (R649, R655, R660). -/
def State.hobUp (s : State) (k mv base : Nat) : State :=
  let s1 := (s.wrs (pgHob k) [(Reg.hobState, 1), (Reg.hobVMv, mv), (Reg.hobResBase, base)])
  let s2 := if s1.rd (pgHob k) Reg.hobStateFailed = 3 then s1.derateHob k else s1
  s2.showFloors.setVfb

/-- HOB_WAKE_UP: a hob kindled in service is judged up, or goes dark (R655, R648, R667). -/
def execHobWakeUp (hob : Fin 16) (mv base : BitVec 16) (slices : BitVec 24) (s : State) : Host.Outcome State Fault Refusal :=
  answer (match SMap.find s.power.rests hob with
    | some (.kindling _) =>
      let s2 := s.testSlices hob slices.toNat
      if s2.regulated hob mv.toNat ∧ s2.rd (pgHob hob) Reg.hobStateFailed ≤ 3 then
        (((s2.hobUp hob mv.toNat base.toNat).setDark hob false).wr pgPwr Reg.pwrStateRested
          (withoutBit (s2.rd pgPwr Reg.pwrStateRested) hob)).updPower (fun p => { p with rests := SMap.del p.rests hob })
      else (((s2.quench 4 false).err (pgHob hob) 0xEC 0).goDark hob).showFloors
    | _ => s)

end Sys2Proof.Machine
end

