-- ==== Sys2Proof/Machine/Thermal.lean ====
section
/-! DEFINITION. Temperature sensing, the thermal step, plausibility of the Hearth readings, and shutdown (spec/20). -/
namespace Sys2Proof.Machine

def State.updTherm (s : State) (f : Thermal → Thermal) : State := { s with therm := f s.therm }

/-! ## Sensors (R668 to R672) -/

/-- Monitors of a die: 0 Firebox, 1 Hearth, 2 Ashpit. -/
def dieMons (d : Nat) : Nat := if d = 2 then 32 else 160
def monKey (d i : Nat) : Nat := 256 * d + i

/-- Grid neighbours: columns are hobs, or hob groups with two rows on Ashpit. -/
def monNeighbours (d i : Nat) : List Nat :=
  let rows := if d = 2 then 2 else 10
  (if rows ≤ i then [i - rows] else []) ++ (if i + rows < dieMons d then [i + rows] else []) ++
  (if i % rows = 0 then [] else [i - 1]) ++ (if (i + 1) % rows = 0 then [] else [i + 1])

/-- °C of a threshold field in 1/16 °C. -/
def deg (n : Nat) : Int := 16 * (n : Int)

/-- Thresholds as they act (R672). -/
def State.thrTrip (s : State) (d : Nat) : Nat := s.rd pgThm (Reg.thmThrTrip d)
def State.thrDamp (s : State) (d : Nat) : Nat := min (s.rd pgThm (Reg.thmThrDamp d)) (s.thrTrip d - 5)
def State.thrWarn (s : State) (d : Nat) : Nat := min (s.rd pgThm (Reg.thmThrWarn d)) (s.thrTrip d - 5)
def State.thrHyst (s : State) (d : Nat) : Nat := max 1 (s.rd pgThm (Reg.thmThrHyst d))

def Mon.reading (m : Mon) : Int := m.raw + m.offset
def State.mon (s : State) (d i : Nat) : Option Mon := SMap.find s.therm.mons (monKey d i)

/-- A reading within −40 to 150 °C. -/
def inRange (x : Int) : Bool := decide (-640 ≤ x) && decide (x ≤ 2400)

/-- The readings of the valid neighbours of a monitor. -/
def State.nearMons (s : State) (d i : Nat) : List Int :=
  (monNeighbours d i).filterMap (fun j => match s.mon d j with
    | some m => if m.broken then none else some m.reading
    | none => none)

/-- The largest of a list. -/
def maxInt : List Int → Option Int
  | [] => none
  | x :: l => some (l.foldl max x)

/-- The effective reading before any substitution of R681 (R678, R679). -/
def State.ownReading (s : State) (d i : Nat) : Option Int :=
  (s.mon d i).map (fun m =>
    let x := if m.broken then (match maxInt (s.nearMons d i) with | some y => y + 80 | none => deg (s.thrDamp d)) else m.reading
    if SMap.getD s.therm.uncal d false then x + 80 else x)

/-! ## Plausibility (R680 to R682) -/

/-- A Hearth monitor that a failing check treats as too hot. -/
def State.tooHot (s : State) (i : Nat) : Bool :=
  s.therm.leak.failing || (SMap.getD s.therm.bracket i Check.none).failing || (SMap.getD s.therm.corr i Check.none).failing

/-- The effective reading of a monitor (R681). -/
def State.effective (s : State) (d i : Nat) : Option Int :=
  (s.ownReading d i).map (fun x => if d = 1 ∧ s.tooHot i then max x (deg (s.thrDamp 1)) else x)

/-- The hottest effective reading of a die, its diode included. -/
def State.dieHot (s : State) (d : Nat) : Option Int :=
  let diode := match SMap.find s.therm.diodes d with
    | some x => if SMap.getD s.therm.diodeBad d false then [] else [x]
    | none => []
  maxInt ((List.range (dieMons d)).filterMap (s.effective d) ++ diode)

/-- One evaluation of a check: it fails after `need` evaluations in a row with its condition, and ends after `stop` without. -/
def Check.eval (c : Check) (cond : Bool) (need stop : Nat) : Check :=
  if cond then
    let h := c.held + 1
    { failing := c.failing || decide (need ≤ h), held := h, clear := 0 }
  else
    let k := c.clear + 1
    if c.failing && decide (k < stop) then { failing := true, held := 0, clear := k } else Check.none

/-- A check starts to fail: fault summary, cause and first capture (R681, R683, R684). -/
def State.plausFailed (s : State) (check part : Nat) : State :=
  let s1 := (s.logFault 5).setCause pgThm Reg.causeThmPlaus
  let s2 := if s1.flag pgThm Reg.thmFirstPlValid then s1
    else s1.wrs pgThm [(Reg.thmFirstPlValid, 1), (Reg.thmFirstPlCheck, check), (Reg.thmFirstPlPart, part)]
  s2.err pgThm 0xF0 (s2.rd pgThm Reg.thmFirstPlPart)

/-! ## The thermal step (R673, R674) -/

/-- Set the step; a diode that is broken keeps it at 1 or more; rises are captured (R673, R679, R684). -/
def State.setStep (s : State) (n : Nat) : State :=
  let lo := if s.rd pgThm Reg.thmStateDiodeBad = 0 then 0 else 1
  let n := max lo (min 3 n)
  let was := s.rd pgThm Reg.thmStateStep
  let s1 := s.wr pgThm Reg.thmStateStep n
  if n ≤ was then s1
  else
    let s2 := s1.setCause pgThm Reg.causeThmStep
    if n = 3 then s2.err pgThm 0xF3 0 else s2

/-- Show the hottest readings, and the counts of THM_STATE (R670, R683). -/
def State.showTherm (s : State) : State :=
  let s1 := (List.range 3).foldl (fun (s : State) d => s.wrs pgThm
    [(Reg.thmHotEff d, match s.dieHot d with | some x => ofInt 16 x | none => 0),
     (Reg.thmHotDiode d, ofInt 16 (SMap.getD s.therm.diodes d 0))]) s
  let hot := (List.range 160).filter s1.tooHot
  s1.wrs pgThm [(Reg.thmStatePlausFail, b2n (decide (hot ≠ []))), (Reg.thmStatePlfail, hot.length),
    (Reg.thmStateBroken, (s1.therm.mons.filter (fun e => e.2.broken)).length),
    (Reg.thmStateDiodeBad, maskOf ((List.range 3).filter (fun d => SMap.getD s1.therm.diodeBad d false))),
    (Reg.thmTleak, ofInt 16 s1.therm.tleak)]

/-- Evaluate the dies after readings changed: hot, cool, WARN, and the step that rises at once (R673, R674). -/
def State.evalDies (s : State) : State :=
  let s0 := s.showTherm
  let was := s0.therm.hot
  let isHot := fun d => match s0.dieHot d with | some x => decide (deg (s0.thrDamp d) ≤ x) | none => false
  let isCool := fun d => match s0.dieHot d with | some x => decide (x < deg (s0.thrDamp d) - deg (s0.thrHyst d)) | none => true
  let set := fun (f : Nat → Bool) => ((List.range 3).filter f).map (fun d => (d, true))
  let s1 := s0.updTherm (fun t => { t with hot := set isHot, cool := set isCool })
  let newly := (List.range 3).any (fun d => isHot d && !SMap.getD was d false)
  let s2 := if newly then s1.setStep (s1.rd pgThm Reg.thmStateStep + 1) else s1.setStep (s1.rd pgThm Reg.thmStateStep)
  let warm := (List.range 3).any (fun d => match s2.dieHot d with | some x => decide (deg (s2.thrWarn d) ≤ x) | none => false)
  let below := (List.range 3).all (fun d => match s2.dieHot d with
    | some x => decide (x < deg (s2.thrWarn d) - deg (s2.thrHyst d)) | none => true)
  if warm then (if s2.flag pgThm Reg.thmStateWarn then s2 else (s2.wr pgThm Reg.thmStateWarn 1).setCause pgThm Reg.causeThmWarn)
  else if below then s2.wr pgThm Reg.thmStateWarn 0 else s2

/-- THERMAL_STEP_TIMER: STEP_MS ms more with a hot die, or with every die cool (R673). -/
def execThermalStepTimer (s : State) : Host.Outcome State Fault Refusal :=
  let n := s.rd pgThm Reg.thmStateStep
  answer (if (List.range 3).any (fun d => SMap.getD s.therm.hot d false) then s.setStep (n + 1)
    else if (List.range 3).all (fun d => SMap.getD s.therm.cool d false) then s.setStep (n - 1)
    else s)

/-! ## Shutdown (R675 to R677) -/

/-- A monitor or leakage trip: quench, hand-off, and THERMTRIP_N 20 µs later (R675). -/
def State.tripSoon (s : State) (r : TripRec) : State :=
  if s.therm.trip.isSome ∨ s.mod.tripped then s
  else ((s.updTherm (fun t => { t with trip := some r })).quench 4 false).handOff false

/-! ## Samples (R669, R678, R679) -/

/-- A new reading of a monitor: raw value and self-count. -/
def State.readMon (s : State) (d i : Nat) (raw : Int) (ok : Bool) : State :=
  match s.mon d i with
  | none => s
  | some m =>
    let m1 := { m with raw := raw }
    let bad := !ok || !inRange m1.reading
    s.updTherm (fun t => { t with mons := SMap.ins t.mons (monKey d i) { m1 with
      broken := m.broken || bad, trips := if deg (s.thrTrip d) ≤ m1.reading then m.trips + 1 else 0 } })

/-- A monitor that differs by more than 15 °C from the mean of its valid neighbours for 1 s is broken. -/
def State.judgeMon (s : State) (d i : Nat) : State :=
  match s.mon d i with
  | none => s
  | some m =>
    let l := s.nearMons d i
    let n : Int := l.length
    let off := decide (l ≠ []) && decide (240 * n < (n * m.reading - l.foldl (· + ·) 0).natAbs)
    let a := if off then m.apart + 1 else 0
    s.updTherm (fun t => { t with mons := SMap.ins t.mons (monKey d i) { m with apart := a, broken := m.broken || decide (10000 ≤ a) } })

/-- A monitor broke between two states: cause and capture (R678, R684). -/
def State.newBroken (old : State) (s : State) (d i : Nat) : State :=
  match s.mon d i with
  | some b =>
    if b.broken && !(match old.mon d i with | some a => a.broken | none => false) then
      (s.setCause pgThm Reg.causeThmBroken).err pgThm 0xF1 (monKey d i)
    else s
  | none => s

/-- The bracket check of a partition at a sample (R680). -/
def State.bracketAt (s : State) (i : Nat) : State :=
  match s.ownReading 1 i, s.effective 0 i with
  | some h, some f =>
    let lim := min 4 (s.rd pgThm Reg.thmPlausBracket)
    let c := SMap.getD s.therm.bracket i Check.none
    let c' := c.eval (decide (h + deg lim < f)) 2 10000
    let s1 := s.updTherm (fun t => { t with bracket := SMap.setD t.bracket i Check.none c' })
    if c'.failing && !c.failing then s1.plausFailed 1 i else s1
  | _, _ => s

/-- MONITOR_SAMPLE: die and monitor, raw reading, self-count passed; a bracket is evaluated at a sample of one of its two
monitors. -/
def execMonitorSample (l : List (Fin 3 × Fin 160 × BitVec 16 × Bool)) (s : State) : Host.Outcome State Fault Refusal :=
  let s1 := l.foldl (fun (s : State) e => s.readMon e.1 e.2.1 e.2.2.1.toInt e.2.2.2) s
  let s2 := l.foldl (fun (s : State) e => s.judgeMon e.1 e.2.1) s1
  let s3 := l.foldl (fun (t : State) e => State.newBroken s t e.1 e.2.1) s2
  let s4 := ((List.range 160).filter (fun i => l.any (fun e => decide (e.1.val < 2) && decide (e.2.1.val = i)))).foldl State.bracketAt s3
  let s5 := s4.evalDies
  answer (match l.find? (fun e => match s5.mon e.1 e.2.1 with | some m => decide (2 ≤ m.trips) | none => false) with
    | some e => s5.tripSoon { die := e.1, source := 1, mon := e.2.1, stk := s.rd pgStk Reg.stkNum % 2 ^ 32
                              reading := match s5.mon e.1 e.2.1 with | some m => ofInt 16 m.reading | none => 0 }
    | none => s5)

/-- One diode's reading; `ok` false when it reads open or shorted. -/
def State.readDiode (s : State) (d : Nat) (x : Int) (ok : Bool) : State :=
  let bad := !ok || !inRange x
  let was := SMap.getD s.therm.diodeBad d false
  let s1 := s.updTherm (fun t => { t with
    diodes := SMap.ins t.diodes d x, diodeBad := SMap.setD t.diodeBad d false bad })
  if bad && !was then (s1.setCause pgThm Reg.causeThmDiodeBad).err pgThm 0xF2 d else s1

/-- DIODE_SAMPLE. -/
def execDiodeSample (l : List (Fin 3 × BitVec 16 × Bool)) (s : State) : Host.Outcome State Fault Refusal :=
  answer (l.foldl (fun (s : State) e => s.readDiode e.1 e.2.1.toInt e.2.2) s).evalDies

/-- The hottest Hearth reading of the leakage check (R680). -/
def State.hearthOwn (s : State) : Option Int := maxInt ((List.range 160).filterMap (s.ownReading 1))

/-- The corrections check of a partition (R680). -/
def State.corrAt (s : State) (i : Nat) : State :=
  let n := (s.therm.ceWindow.map (fun m => SMap.getD m i 0)).foldl (· + ·) 0
  let c := SMap.getD s.therm.corr i Check.none
  let c' := c.eval (decide (s.rd pgThm Reg.thmPlausCeMax < n)) 1 100
  let s1 := s.updTherm (fun t => { t with corr := SMap.setD t.corr i Check.none c' })
  if c'.failing && !c.failing then s1.plausFailed 3 i else s1

/-- PLAUS_EVAL: the leakage and corrections checks, with T_leak as Tender computes it from the static current (R680). -/
def execPlausEval (tleak : BitVec 16) (s : State) : Host.Outcome State Fault Refusal :=
  let s1 := s.updTherm (fun t => { t with
    tleak := tleak.toInt, ceNow := [], ceWindow := (t.ceWindow ++ [t.ceNow]).drop (t.ceWindow.length + 1 - 100) })
  let s2 := (List.range 160).foldl State.corrAt s1
  let cond := match s2.hearthOwn with
    | some h => decide (h + deg (s2.rd pgThm Reg.thmPlausLeakDelta) < tleak.toInt)
    | none => false
  let c := s2.therm.leak
  let c' := c.eval cond 1 100
  let s3 := s2.updTherm (fun t => { t with leak := c' })
  let s4 := (if c'.failing && !c.failing then s3.plausFailed 2 0xFF else s3).evalDies
  answer (if deg (s4.thrTrip 1) ≤ tleak.toInt then
      s4.tripSoon { die := 1, source := 2, mon := 0xFF, reading := tleak.toNat, stk := s.rd pgStk Reg.stkNum % 2 ^ 32 }
    else s4)

/-- Tender calibrates every monitor against its die's diode at step 7 (R669, R679). -/
def State.calibrate (s : State) (diodes : List (Nat × Int)) (mons : List (Nat × Int)) (broken : List Nat) : State :=
  let s1 := diodes.foldl (fun (s : State) e => s.readDiode e.1 e.2 (!broken.contains e.1)) s
  let bad := fun d => SMap.getD s1.therm.diodeBad d false
  let s2 := s1.updTherm (fun t => { t with
    uncal := ((List.range 3).filter bad).map (fun d => (d, true))
    mons := mons.foldl (fun m e =>
      let d := e.1 / 256
      let off : Int := if bad d then 0 else SMap.getD t.diodes d 0 - e.2
      if e.1 % 256 < dieMons d ∧ d < 3 then
        SMap.ins m e.1 { raw := e.2, offset := off, broken := !inRange (e.2 + off), apart := 0, trips := 0 } else m) [] })
  (s2.therm.mons.foldl (fun (t : State) e => State.newBroken s t (e.1 / 256) (e.1 % 256)) s2).evalDies

end Sys2Proof.Machine
end

