-- ==== Sys2Proof/Machine/TrainRecord.lean ====
section
/-! DEFINITION. The saved training record: its bytes in flash, and what Tender reads back (spec/18 R625, R626). -/
namespace Sys2Proof.Machine

/-- The bytes of an entry: 16 of header, and DATA in a multiple of 8. -/
def TrainEntry.bytes (e : TrainEntry) : List Byte :=
  let data := e.data ++ List.replicate ((8 - e.data.length % 8) % 8) 0
  leBytes 1 e.kind ++ leBytes 1 0 ++ leBytes 2 e.index ++ leBytes 8 e.peer ++ leBytes 2 e.result ++ leBytes 2 data.length ++ data

/-- The bytes of a record. -/
def TrainRec.bytes (r : TrainRec) : List Byte :=
  let body := r.entries.flatMap TrainEntry.bytes
  leBytes 4 0x0C445452 ++ leBytes 2 1 ++ leBytes 2 r.entries.length ++ leBytes 8 r.serial ++ leBytes 4 r.seq ++ leBytes 2 r.talgo ++
    leBytes 1 r.temp ++ leBytes 1 r.fuses ++ Hash.sha384 body ++ leBytes 56 0 ++ body

/-- A field of a record. -/
def recField (l : List Byte) (off n : Nat) : Nat := leNat ((l.drop off).take n)

/-- The entries that follow a header. -/
def readEntries : Nat → List Byte → List TrainEntry
  | 0, _ => []
  | n + 1, l =>
    let m := recField l 14 2
    { kind := recField l 0 1, index := recField l 2 2, peer := recField l 4 8, result := recField l 12 2,
      data := (l.drop 16).take m } :: readEntries n (l.drop (16 + m))

/-- A copy is found where MAGIC and VERSION are correct. -/
def recFound (l : List Byte) : Bool := decide (recField l 0 4 = 0x0C445452) && decide (recField l 4 2 = 1)

/-- The record of a copy whose HASH is correct too. -/
def readRec (l : List Byte) : Option TrainRec :=
  if recFound l ∧ (l.drop 24).take 48 = Hash.sha384 (l.drop 128) then
    some { serial := recField l 8 8, seq := recField l 16 4, talgo := recField l 20 2, temp := recField l 22 1, fuses := recField l 23 1,
           entries := readEntries (recField l 6 2) (l.drop 128) }
  else none

/-- The SEQ of a copy; 0 where it holds no record. -/
def recSeq (l : List Byte) : Nat := match readRec l with | some r => r.seq | none => 0

end Sys2Proof.Machine
end

