-- ==== Sys2Proof/Machine/BringUp.lean ====
section
/-! DEFINITION. Resets, the bring-up order, kindling waves, microcode broadcast, training and ready (spec/18). -/
namespace Sys2Proof.Machine

def State.updBoot (s : State) (f : Boot → Boot) : State := { s with boot := f s.boot }
def State.bootStep (s : State) : Nat := s.rd pgTnd Reg.tndBootStep
def State.stepDone (s : State) (n : Nat) : State := s.wr pgTnd Reg.tndBootStep n

/-- A bring-up runs, with a step as its last completed one. -/
def State.booting (s : State) (n : Nat) : Bool := s.boot.running && decide (s.bootStep = n)

/-! ## Module reset (R601 to R604, R676) -/

/-- The power mode shows in its registers (R638, R640; spec/19 R665, R666). -/
def State.setMode (s : State) (compat : Bool) : State :=
  (List.range 16).foldl (fun (s : State) k => s.wr (pgHob k) Reg.hobStateBypass (b2n compat))
    ((s.wr pgDev Reg.devStatePmode (b2n compat)).wrs pgPwr
      [(Reg.pwrStateMode, b2n compat), (Reg.pwrCapCapW, if compat then 1900 else 2400)])

/-- The state right after a reset source: fuses, flash, pins and the power mode stay (R604). -/
def State.cleared (s : State) : State :=
  { State.reset with
    pending := s.pending, out := s.out, fresh := s.fresh, flash := s.flash, fuses := s.fuses,
    regs := resetRegs s.flash s.fuses,
    mod := { Module.off with pwrGood := s.mod.pwrGood, resetN := s.mod.resetN, perst0N := s.mod.perst0N, tripped := s.mod.tripped } }

/-- The whole module resets: every output takes its reset level (R602); `cause` numbers the source (R632). -/
def State.moduleReset (s : State) (cause : Nat) : State :=
  ((((s.cleared.setMode s.compat).wr pgTnd Reg.tndResetCause (2 ^ cause)).emit (.pin "PERST1_N" false)).emit
    (.pin "PAIR_HB_TX" false)).emit (.pin "STOKE_SYNC_OUT" false)

/-! ## Failing (R606) -/

/-- A bring-up fails and waits for a reset source. -/
def State.bootFail (s : State) (code : Nat) : State :=
  ((s.wr pgTnd Reg.tndBootFail code).updBoot (fun b => { b with running := false, failed := true })).event 0x02

/-! ## Fences of a bring-up (R612, R619) -/

/-- Tiles are fenced at bring-up. -/
def State.bootFence (s : State) (l : List Nat) : State :=
  match (l.eraseDups).filter (fun n => !s.flag (pgTil n) Reg.statFenced) with
  | [] => s
  | l => ((l.foldl State.closeTile s).bump pgDev Reg.devTilesFencedSvc l.length).renumber

/-- A partition is fenced at bring-up together with the tile above it. -/
def State.bootFencePart (s : State) (n : Nat) : State :=
  ((partPages n).foldl (fun (s : State) p => s.setFenced p true) s).bootFence [n]

/-- A channel takes no part in the map (R387, R619, R621). -/
def State.bootCloseChan (s : State) (c : Nat) (peer : Nat) : State :=
  (((s.wr (pgGdc c) Reg.gdcStatePstate 2).closeChan c).setCause (pgGdc c) Reg.causeGdcFenced).updBoot
    (fun b => { b with chans := SMap.ins b.chans c { narrow := false, fenced := true, fast := false, peer := peer, settings := [] } })

/-- A channel is fenced in step 9 or 10 (R619, R621, R632). -/
def State.bootFenceChan (s : State) (c : Nat) (peer : Nat) : State :=
  ((s.bootCloseChan c peer).bump pgTnd Reg.tndGddrFenced 1).setCause pgTnd Reg.causeTndChFence

/-! ## Steps 3 to 7 (R605 to R608, R687, R359, R375) -/

/-- A bank is out of service: its role and the counts of its partition. -/
def State.bootRetire (s : State) (k : Nat) : State :=
  let n := k / 24
  let ret := withBit (s.rd (pgHrt n) Reg.hrtRetmaskRetired) (k % 24)
  (s.wr (pgHrtx n) (Reg.hrtBankRole (k % 24)) 3).wr (pgHrt n) Reg.hrtRetmaskRetired ret

/-- A flue is faulty from the start. -/
def State.bootFlue (s : State) (e : Nat × Nat × Nat) : State :=
  s.updFlues (fun u => { u with
    masks := SMap.ins u.masks (bundleKey e.1 e.2.1) (withBit (SMap.getD u.masks (bundleKey e.1 e.2.1) 0) e.2.2) })

/-- A flue that the power-on test finds is recorded and shown (R375, R388, R389). -/
def State.testFlue (s : State) (e : Nat × Nat × Nat) : State :=
  if bitAt (s.fluMask e.1 e.2.1) e.2.2 || 68 ≤ e.2.2 || fluBundles e.1 ≤ e.2.1 || !fluPages.contains e.1 then s
  else
    let s1 := s.bootFlue e
    let s2 := { s1 with flash := { s1.flash with repFlues := s1.flash.repFlues ++ [e] } }
    (s2.wrs (pgFlu e.1) [(Reg.fluLastValid, 1), (Reg.fluLastSource, 2), (Reg.fluLastBundle, e.2.1), (Reg.fluLastFlue, e.2.2)]).err
      (pgFlu e.1) 0x70 (256 * e.2.1 + e.2.2)

/-- A port's state after the power-on test (R377, R387). -/
def State.bootPort (s : State) (e : Nat × Nat × Nat) : State :=
  let s1 := s.setPort e
  if e.2.2 ≠ 2 then s1
  else if e.1 < 160 then s1.bootFence [e.1]
  else if e.2.1 < 9 then s1.bootCloseChan (9 * (e.1 - 256) + e.2.1) 0
  else s1

/-- Step 3: the ROM verifies both firmware slots and boots one (R687, R689). -/
def State.bootFirmware (s : State) (k : Nat) : State :=
  let img := s.slot k
  ((s.wrs pgSec [(Reg.secStateFwSlot, k % 2), (Reg.secStateFwKey, imgKey img), (Reg.secSvnFwImg, imgSvn img)]).wr pgTnd
    Reg.tndFwVersion (imgBuild img)).setMeas 0 (Hash.sha384 (imgHead img))

/-- Step 5: the flue fuse map and the repair record (R608). -/
def State.applyRepairs (s : State) : State :=
  let s1 := (s.fuses.flues ++ s.flash.repFlues).foldl State.bootFlue s
  let s2 := s.flash.repBanks.foldl State.bootRetire s1
  let s3 := s.flash.repParts.foldl State.bootFencePart s2
  { s3 with hub := { s3.hub with repairs := s.flash.repGddr } }

/-- Step 6: the flue test (R375, R377). -/
def State.flueTest (s : State) (l : List (Nat × Nat × Nat)) : State :=
  let s1 := l.foldl State.testFlue s
  s1.portChanges.foldl State.bootPort s1

/-- Banks of a partition in service after its self-test; too few, or a failed unit, fence it. -/
def State.partUp (s : State) (n : Nat) (failed : Bool) : State :=
  let ret := s.rd (pgHrt n) Reg.hrtRetmaskRetired
  let s1 := s.wr (pgHrt n) Reg.hrtStateInservice (24 - popCount 24 ret)
  if (popCount 24 ret ≤ 8 ∧ !failed) ∨ s1.flag (pgHrt n) Reg.statFenced then s1
  else ({ s1 with flash := { s1.flash with repParts := s1.flash.repParts ++ [n] } }).bootFencePart n

/-- A bank that fails its self-test is retired, and shown (R359 to R361). -/
def State.findBank (s : State) (k : Nat) : State :=
  ((s.bootRetire k).setCause (pgHrt (k / 24)) Reg.causeHrtBankRetire).err (pgHrt (k / 24)) 0x64 (k % 24)

/-- Step 7: banks that fail their self-test are retired and recorded; partitions come up, but those of which the controller, the reduction
unit or the router fails (R358, R359). -/
def State.partTest (s : State) (l units : List Nat) : State :=
  let new := (l.eraseDups).filter (fun k => !s.flash.repBanks.contains k && decide (k < 24 * 160))
  let s1 := new.foldl State.findBank { s with flash := { s.flash with repBanks := s.flash.repBanks ++ new } }
  (List.range 160).foldl (fun s n => s.partUp n (units.contains n)) s1

/-- Partitions in service. -/
def State.partsUp (s : State) : Nat := ((List.range 160).filter (fun n => !s.flag (pgHrt n) Reg.statFenced)).length

/-- Steps 3 to 7 from time 0: each step ends, fails, or passes its limit. -/
def State.bringUp (s : State) (f : Findings) : State :=
  let s0 := (s.stepDone 2).updBoot (fun b => { b with running := true })
  if f.hang = 3 then s0.bootFail 1
  else
    let s1 := (s0.checkSlot 0).checkSlot 1
    match s1.bootSlot 0 with
    | none => s1.bootFail 2
    | some k =>
      let s3 := (s1.bootFirmware k).stepDone 3
      if f.hang = 4 then s3.bootFail 1
      else if f.hang = 5 then (s3.stepDone 4).bootFail 1
      else
        let s5 := s3.applyRepairs.stepDone 5
        if f.hang = 6 then s5.bootFail 1
        else
          let s6 := (s5.flueTest f.flues).stepDone 6
          if f.hang = 7 then s6.bootFail 1
          else
            let s7 := (s6.partTest f.banks f.units).calibrate (f.diodes.map (fun e => (e.1, e.2.toInt)))
              (f.monitors.map (fun e => (e.1, e.2.toInt))) f.broken
            if s7.partsUp < 80 then (s7.stepDone 7).bootFail 4 else s7.stepDone 7

/-- A bring-up starts once PWR_GOOD, RESET_N and PERST0_N are all high, unless THERMTRIP_N is held (R604, R676). -/
def State.tryBringUp (s : State) (f : Findings) : State :=
  if s.mod.pwrGood && s.mod.resetN && s.mod.perst0N && !s.mod.tripped then s.bringUp f else s

/-- POWER_GOOD_RISE: the strap is sampled, and the module starts from nothing (R604, R638). -/
def execPowerGoodRise (strap : Bool) (f : Findings) (s : State) : Host.Outcome State Fault Refusal :=
  answer (if s.mod.pwrGood then s
    else (((s.updMod (fun m => { m with pwrGood := true })).moduleReset 0).setMode strap).tryBringUp f)

/-- POWER_GOOD_FALL: THERMTRIP_N is let go (R601, R676). -/
def execPowerGoodFall (s : State) : Host.Outcome State Fault Refusal :=
  answer (if s.mod.pwrGood then
      ((s.updMod (fun m => { m with pwrGood := false, tripped := false })).moduleReset 0)
    else s)

/-- RESET_N_ASSERT: low for 100 ns or longer (R601, R603). -/
def execResetNAssert (s : State) : Host.Outcome State Fault Refusal :=
  answer ((s.updMod (fun m => { m with resetN := false })).moduleReset 1)

/-- RESET_N_RELEASE: the TAP returns to BYPASS (R604, R719). -/
def execResetNRelease (f : Findings) (s : State) : Host.Outcome State Fault Refusal :=
  answer (if s.mod.resetN then s
    else (s.updMod (fun m => { m with resetN := true, tap := .bypass })).tryBringUp f)

/-- PERST0_N_ASSERT. -/
def execPerst0NAssert (s : State) : Host.Outcome State Fault Refusal :=
  answer ((s.updMod (fun m => { m with perst0N := false })).moduleReset 2)

/-- PERST0_N_RELEASE. -/
def execPerst0NRelease (f : Findings) (s : State) : Host.Outcome State Fault Refusal :=
  answer (if s.mod.perst0N then s else (s.updMod (fun m => { m with perst0N := true })).tryBringUp f)

/-- CXP0_HOT_RESET: a hot reset or link disable resets the module, which starts again (R597, R601). -/
def execCxp0HotReset (f : Findings) (s : State) : Host.Outcome State Fault Refusal :=
  answer ((s.moduleReset 3).tryBringUp f)

/-- WATCHDOG_EXPIRY (R601). -/
def execWatchdogExpiry (f : Findings) (s : State) : Host.Outcome State Fault Refusal :=
  answer ((s.moduleReset 5).tryBringUp f)

/-! ## THERMTRIP_N (spec/20 R675 to R677) -/

/-- THERMTRIP_N is asserted: a trip record goes to flash and the module resets. -/
def State.thermtrip (s : State) (r : TripRec) : State :=
  (((({ s with flash := { s.flash with trip := some r } } : State).updMod (fun m => { m with tripped := true })).moduleReset 4).emit
    (.pin "THERMTRIP_N" false))

/-- THERMTRIP_ASSERT: 20 µs after the quench of a monitor or leakage trip. -/
def execThermtripAssert (s : State) : Host.Outcome State Fault Refusal :=
  answer (match s.therm.trip with
    | some r => s.thermtrip r
    | none => s)

/-- DIODE_TRIP: a die's comparator finds its diode at TRIP, without Tender; with the rails off nothing operates (spec/00 R4). -/
def execDiodeTrip (die : Fin 3) (reading : BitVec 16) (s : State) : Host.Outcome State Fault Refusal :=
  answer (if !s.mod.pwrGood || SMap.getD s.therm.diodeBad die false || s.mod.tripped || decide (reading.toInt < deg (s.thrTrip die)) then s
    else s.thermtrip { die := die, source := 0, mon := 0xFF, reading := reading.toNat, stk := s.rd pgStk Reg.stkNum % 2 ^ 32 })

/-- THM_TRIP_CLEAR: the registers clear and the record is erased (R677). -/
def State.tripClear (s : State) : State :=
  ({ s with flash := { s.flash with trip := none } }).wrs pgThm [(Reg.thmTripValid, 0), (Reg.thmTripDie, 0),
    (Reg.thmTripSource, 0), (Reg.thmTripMon, 0), (Reg.thmTripReading, 0), (Reg.thmTripStk, 0)]
def execThmTripClear (s : State) : Host.Outcome State Fault Refusal := answer s.tripClear

/-! ## Step 8: kindling waves (R609 to R611) -/

/-- Stages closed of a hob. -/
def State.stages (s : State) (k : Nat) : Nat := SMap.getD s.boot.stages k 0

/-- KINDLING_STAGE: all four hobs of a wave close their next stage. -/
def execKindlingStage (wave : Fin 4) (stage : Fin 8) (s : State) : Host.Outcome State Fault Refusal :=
  let l := (List.range 4).map (fun i => wave.val + 4 * i)
  let due := l.all (fun k => decide (s.stages k = stage.val)) &&
    ((List.range 16).filter (fun k => decide (k % 4 < wave.val))).all (fun k => decide (s.stages k = 8))
  answer (if s.booting 7 && due then
      l.foldl (fun (s : State) k => (s.updBoot (fun b => { b with stages := SMap.ins b.stages k (stage.val + 1) })).wr (pgHob k)
        Reg.hobState 3) s
    else s)

/-- The array self-test of a tile: the recorded substitution is applied, the spare goes to a row the test finds, and a
tile whose array fails with the spare in use, whatever row fails, is fenced (R214). `found` are the logical rows that fail with the
recorded substitution in place. -/
def State.arrayTest (s : State) (n : Nat) (found : List Nat) : State :=
  match SMap.find s.flash.repRows n, found.eraseDups with
  | none, [] => s
  | none, [r] => s.mapSpare n r
  | some r, [] => s.mapSpare n r
  | none, _ => s.bootFence [n]
  | some r, _ => (s.mapSpare n r).bootFence [n]

/-- The line self-test of a tile enters every failing line in its bad-line table; an overflow fences it (R298). -/
def State.lineTest (s : State) (n : Nat) (l : List (Bool × Nat × Nat)) : State :=
  let s1 := l.foldl (fun (s : State) e => s.addBadLine n e.1 e.2.1 e.2.2) s
  if (s1.tile n).fencePending then s1.bootFence [n] else s1

/-- A hob stays dark until the next bring-up; its tiles are fenced (R610, R611, R633). -/
def State.bootDark (s : State) (k : Nat) : State :=
  ((((s.goDark k).updPower (fun p => { p with fenceHobs := p.fenceHobs.filter (· ≠ k) })).bootFence (hobTiles k)).wr pgTnd
    Reg.tndHobsDark (withBit (s.rd pgTnd Reg.tndHobsDark) k)).setCause pgTnd Reg.causeTndHobDark |>.err pgTnd 0xD1 k

/-- Before step 9 Tender chooses the microcode (R687, R689; R515 UCODE_HASH). -/
def State.bootMicrocode (s : State) : State :=
  let s1 := (s.checkSlot 2).checkSlot 3
  match s1.bootSlot 1 with
  | none => s1.bootFail 2
  | some k =>
    let img := s1.slot k
    let h := Hash.sha384 (imgBody img)
    let s2 := (s1.wrs pgSec [(Reg.secStateUcSlot, k % 2), (Reg.secStateUcKey, imgKey img), (Reg.secSvnUcImg, imgSvn img)]).setMeas 1 h
    { s2 with record := { s2.record with ucodeHash := h } }

/-- Step 8 ends when every hob is judged. -/
def State.endKindling (s : State) : State :=
  if (List.range 16).any (fun k => decide (s.rd (pgHob k) Reg.hobState = 0 ∨ s.rd (pgHob k) Reg.hobState = 3)) then s
  else if (List.range 16).all (fun k => decide (s.rd (pgHob k) Reg.hobState ≠ 1)) then (s.stepDone 8).bootFail 3
  else (s.stepDone 8).bootMicrocode

/-- HOB_UP_CHECK: voltage, resistance baseline and slices that fail their test; then the self-tests of its tiles: failing
rows (tile, logical row) and failing lines (tile, scratchpad, bank, index). -/
def execHobUpCheck (hob : Fin 16) (mv base : BitVec 16) (slices : BitVec 24) (rows : List (Nat × Nat))
    (lines : List (Nat × Bool × Nat × Nat)) (s : State) : Host.Outcome State Fault Refusal :=
  answer (if !s.booting 7 || decide (s.stages hob ≠ 8) || decide (s.rd (pgHob hob) Reg.hobState ≠ 3) then s
    else
      let s1 := s.testSlices hob slices.toNat
      let s2 := if s1.rd (pgHob hob) Reg.hobStateFailed = 0 then s1 else s1.setCause (pgHob hob) Reg.causeHobSliceFail
      if s2.regulated hob mv.toNat ∧ s2.rd (pgHob hob) Reg.hobStateFailed ≤ 3 then
        let s3 := s2.hobUp hob mv.toNat base.toNat
        let live := (hobTiles hob).filter (fun n => !s3.flag (pgTil n) Reg.statFenced)
        (live.foldl (fun (s : State) n =>
          let a := s.arrayTest n ((rows.filter (fun e => decide (e.1 = n))).map (fun e => e.2))
          if a.flag (pgTil n) Reg.statFenced then a
          else a.lineTest n ((lines.filter (fun e => decide (e.1 = n))).map (fun e => e.2))) s3).endKindling
      else (s2.bootDark hob).endKindling)

/-! ## Step 9: microcode (R613 to R619) -/

/-- Class of a receiver, and the tile, partition or channel it belongs to (R613). -/
def rxClass (r : Nat) : Nat := if r < 160 then 0 else if r < 1440 then 1 else if r < 1600 then 2 else if r < 1744 then 3 else 4
def rxOwner (r : Nat) : Nat := if r < 160 then r else if r < 1440 then (r - 160) / 8 else if r < 1600 then r - 1440 else r - 1600

/-- The expected set (R614). -/
def State.expected (s : State) (r : Nat) : Bool :=
  let n := rxOwner r
  match rxClass r with
  | 0 | 1 => !s.fuses.tiles.contains n && !s.flag (pgTil n) Reg.statDark
  | 2 => !s.flag (pgHrt n) Reg.statFenced
  | _ => decide (r < 1750)

/-- A receiver is fenced, with its outcome (R619, R633). -/
def State.fenceRx (s : State) (r : Nat) : State :=
  if SMap.getD s.boot.fenced r false then s
  else
    let s1 := ((s.updBoot (fun b => { b with fenced := SMap.ins b.fenced r true })).bump pgTnd Reg.tndUcFenced 1)
    let s2 := if s1.rd pgTnd Reg.tndUcFirstReceiver = 0x7FF then s1.wr pgTnd Reg.tndUcFirstReceiver r else s1
    let s3 := (s2.setCause pgTnd Reg.causeTndUcFence).err pgTnd 0xD0 r
    match rxClass r with
    | 0 | 1 => s3.bootFence [rxOwner r]
    | 2 => s3.bootFencePart (rxOwner r)
    | 3 => s3.bootFenceChan (rxOwner r) 0
    | _ => if r ≤ 1745 then s3.bootFail 5 else s3

/-- A receiver is out: fenced itself, or fenced with its tile, whose control core, a sequencer or the partition beneath was fenced; the
latter is no fence of its own in TND_UC.FENCED (R618, R619). -/
def State.rxGone (s : State) (r : Nat) : Bool :=
  let out := fun (k : Nat) => SMap.getD s.boot.fenced k false
  let n := rxOwner r
  out r || (decide (r < 1440) && (out n || out (1440 + n) || (List.range 8).any (fun k => out (160 + 8 * n + k))))

/-- The bytes of a packet's header (R615). -/
def pktAt (p : List Byte) (off n : Nat) : Nat := leNat ((p.drop off).take n)
def pktOk (p : List Byte) : Bool :=
  decide (p.length = 4160) && decide (Hash.crc32c (p.take 60 ++ p.drop 64) = pktAt p 60 4) && decide (pktAt p 0 2 < pktAt p 2 2)

/-- A receiver is complete: every packet of its class received, and the stored image's CRC right (R616). -/
def State.rxComplete (s : State) (r npkt icrc : Nat) : Bool :=
  let got := SMap.getD s.boot.got r 0
  ((List.range npkt).all (fun q => match SMap.find s.boot.classes q with
    | some c => !bitAt c (rxClass r) || bitAt got q
    | none => false)) &&
  decide (Hash.crc32c ((SMap.getD s.boot.store r []).flatMap (fun e => e.2)) = icrc)

/-- One receiver gets a packet: it stores the payload and reads it back, or switches a row to a spare (R616, R618). -/
def State.rxPacket (s : State) (p : List Byte) (r : Nat) (misread : Bool) : State :=
  if !s.expected r || s.rxGone r || !bitAt (pktAt p 4 1) (rxClass r) then s
  else if misread then
    let n := SMap.getD s.boot.spares r 0 + 1
    let s1 := s.updBoot (fun b => { b with spares := SMap.ins b.spares r n })
    if n = 1 then s1.bump pgTnd Reg.tndUcSpareCount 1 else if 3 ≤ n then s1.fenceRx r else s1
  else
    let s1 := s.updBoot (fun b => { b with
      got := SMap.ins b.got r (withBit (SMap.getD b.got r 0) (pktAt p 0 2))
      store := SMap.ins b.store r (SMap.ins (SMap.getD b.store r []) (pktAt p 8 4) ((p.drop 64).take (pktAt p 12 2))) })
    if s1.rxComplete r (pktAt p 2 2) (pktAt p 16 4) then s1.updBoot (fun b => { b with complete := SMap.ins b.complete r true }) else s1

/-- MICROCODE_PACKET: a packet reaches receivers; `lost` get it with a bad CRC, `misread` read back something else. -/
def execMicrocodePacket (packet : List (BitVec 8)) (recv : List (Fin 1750)) (lost misread : List Nat) (s : State) :
    Host.Outcome State Fault Refusal :=
  answer (if !s.booting 8 || !pktOk packet then s
    else
      let s1 := (s.updBoot (fun b => { b with classes := SMap.ins b.classes (pktAt packet 0 2) (pktAt packet 4 1) })).wr pgTnd
        Reg.tndUcPackets (pktAt packet 2 2)
      ((recv.map (fun r => r.val)).filter (fun r => !lost.contains r)).foldl (fun (s : State) r =>
        if s.boot.running then s.rxPacket packet r (misread.contains r) else s) s1)

/-- Receivers that are neither complete nor fenced. -/
def State.incomplete (s : State) : List Nat :=
  (List.range 1750).filter (fun r => s.expected r && !SMap.getD s.boot.complete r false && !s.rxGone r)

/-- Step 10 starts: the copy of the training record is chosen; a TREC_DISCARD given before is spent on this bring-up (R626, R629, R633). -/
def State.chooseRecord (s0 : State) : State :=
  let fl := s0.flash
  let s := { s0 with flash := { fl with discarded := false }, boot := { s0.boot with discard := fl.discarded } }
  let all := [(0, fl.trainA), (1, fl.trainB)].filter (fun e => recFound e.2)
  let known := (all.filterMap (fun e => (readRec e.2).map (fun r => (e.1, r)))).filter (fun e =>
    decide (e.2.serial = s.rd pgDev Reg.devSerial))
  let fit := known.filter (fun e => decide (e.2.talgo = Config.talgo (s.rd pgTnd Reg.tndFwVersion)) &&
    decide (e.2.fuses = s.rd (pgGdc 0) Reg.gdcStateSpeed + 4 * s.rd (pgGdc 0) Reg.gdcStateDensity))
  let state := fun (n : Nat) => s.wr pgTnd Reg.tndTrecState n
  if !fl.fastNext then state 5
  else if fl.discarded then state 4
  else if all.isEmpty then state 1
  else if known.isEmpty then (state 2).err pgTnd 0xD3 2
  else match fit with
    | [] => (state 3).err pgTnd 0xD3 3
    | e :: l =>
      let best := l.foldl (fun b x => if b.2.seq < x.2.seq then x else b) e
      (s.updBoot (fun b => { b with trec := some best.1 })).wrs pgTnd [(Reg.tndTrecState, 0), (Reg.tndTrecCopy, best.1)]

/-- Step 9 ends. -/
def State.endMicrocode (s : State) : State := if s.boot.running then (s.stepDone 9).chooseRecord else s

/-- MICROCODE_ROUND: the poll that ends a round; after round 3 what is not complete is fenced (R617, R618). -/
def execMicrocodeRound (s : State) : Host.Outcome State Fault Refusal :=
  answer (if !s.booting 8 then s
    else
      let r := s.boot.rounds
      let s1 := s.wr pgTnd Reg.tndUcRounds r
      match s1.incomplete with
      | [] => s1.endMicrocode
      | l => if r < 3 then s1.updBoot (fun b => { b with rounds := r + 1 }) else (l.foldl State.fenceRx s1).endMicrocode)

/-! ## Steps 10 and 11: channels (R620, R621, R625 to R628) -/

/-- The record in use. -/
def State.trainRec (s : State) : Option TrainRec :=
  match s.boot.trec with
  | some 0 => readRec s.flash.trainA
  | some _ => readRec s.flash.trainB
  | none => none

/-- An entry that is used: kind and index, temperature within 20 °C, and its PEER where `peer` is given (R627). -/
def State.entryFor (s : State) (kind index : Nat) (peer : Option Nat) : Option TrainEntry :=
  match s.trainRec with
  | none => none
  | some r =>
    let now := toSigned 16 (s.rd pgThm (Reg.thmHotEff 2))
    if (now - 16 * toSigned 8 r.temp).natAbs ≤ 320 then
      r.entries.find? (fun e => decide (e.kind = kind) && decide (e.index = index) &&
        (match peer with | some p => decide (e.peer = p) | none => true))
    else none

/-- Rows per channel by density (spec/11 R396). -/
def usableRows (density : Nat) : Nat := [3169030, 4846751, 6524473].getD density 0

/-- Step 10 ends when every channel is trained or fenced: the map is built, and near memory is wiped (R621, R606, R411). -/
def State.endChannels (s : State) : State :=
  if !s.booting 9 || decide (s.boot.chans.length < 144) then s
  else
    let live := (s.boot.chans.filter (fun e => !e.2.fenced)).map (fun e => e.1)
    let s1 := (s.relabel live).wr pgTnd Reg.tndGddrLive live.length
    if live.length < 72 then (s1.stepDone 10).bootFail 6
    else
      let s2 := s1.stepDone 10
      { s2 with hub := { s2.hub with wiping := true }, pair := { s2.pair with journal := [] } }

/-- A channel is trained. -/
def State.chanUp (s : State) (c : Nat) (t : ChanTrain) : State :=
  let p := pgGdc c
  let s1 := (s.updBoot (fun b => { b with chans := SMap.ins b.chans c t, unsaved := b.unsaved || !t.fast })).wrs p
    [(Reg.gdcStatePstate, b2n t.narrow), (Reg.gdcStateRpc, rowSlots (s.rd p Reg.gdcStateSpeed) t.narrow),
     (Reg.gdcRowsUsable, usableRows (s.rd p Reg.gdcStateDensity))]
  let s2 := if t.fast then (s1.bump pgTnd Reg.tndTrecChFast 1).wr pgTnd Reg.tndBootFast 1 else s1.bump pgTnd Reg.tndTrecChCold 1
  if t.narrow then (s2.bump pgTnd Reg.tndGddrNarrow 1).setCause p Reg.causeGdcNarrow else s2

/-- A channel fails its training (R620, R621, R633). -/
def State.chanFail (s : State) (c peer : Nat) : State := (s.bootFenceChan c peer).err pgTnd 0xD2 c

/-- CHANNEL_TRAINED: device identity, speed and density; the verify pass of a used entry; the attempts that pass, three at
x32, then narrow on [15:0], then on [31:16]. -/
def execChannelTrained (chan : Fin 144) (peer : BitVec 64) (speed density : Fin 4) (verified : Bool) (passes : List Bool)
    (settings : List (BitVec 8)) (s : State) : Host.Outcome State Fault Refusal :=
  let p := pgGdc chan
  answer (if !s.booting 9 || (SMap.find s.boot.chans chan).isSome then s
    else
      let s1 :=
        if s.rd p Reg.gdcStateSpeed ≠ speed.val ∨ s.rd p Reg.gdcStateDensity ≠ density.val then s.chanFail chan peer.toNat
        else
          match s.entryFor 0 chan (some peer.toNat), verified with
          | some e, true => s.chanUp chan
              { narrow := decide (bitsAt e.result 0 5 = 16), fenced := false, fast := true, peer := peer.toNat, settings := e.data }
          | _, _ =>
            match (passes.take 5).idxOf? true with
            | some k => s.chanUp chan
                { narrow := decide (3 ≤ k), fenced := false, fast := false, peer := peer.toNat, settings := settings }
            | none => s.chanFail chan peer.toNat
      s1.endChannels)

/-- A pending life-cycle transition completes after step 11 (spec/21 R701, R702). -/
def State.completeLc (s : State) : State :=
  match s.fuses.lcPending with
  | none => s
  | some t =>
    let was := s.fuses.lcState
    let f := s.fuses
    let f1 := if t = 3 then { f with uds := List.replicate 32 0xFF, revoked := 0xF } else f
    let s1 := { s with fuses := { f1 with done := withBit f1.done t } }
    ((s1.wrs pgLcy [(Reg.lcyState, t), (Reg.lcyStatePending, 0), (Reg.lcyStatePendTo, 0)]).setCause pgLcy Reg.causeLcyDone |>.wr
      pgSec Reg.secStateRevoked s1.fuses.revoked).logAppend 0x03
        (leBytes 1 was ++ leBytes 1 t ++ leBytes 1 (s.rd (pgFar 0) Reg.farSanResult) ++ leBytes 5 0)

/-- NEAR_WIPE_DONE: near-memory accesses proceed, those that waited first (R411); at bring-up step 11 ends and step 12 starts: PERST1_N rises, and
Kenka takes its mode from flash (R622, R623). -/
def execNearWipeDone (s : State) : Host.Outcome State Fault Refusal :=
  let s1 := (s.hub.waiting.map (fun e => e.1)).foldl State.retry { s with hub := { s.hub with wiping := false } }
  answer (if s.booting 10 then
      ((((s1.stepDone 11).completeLc).wr pgKnk Reg.knkCtrlK1 (b2n s1.flash.k1)).updMod (fun m => { m with perst1N := true })).emit
        (.pin "PERST1_N" true)
    else s1)

/-! ## Step 12: links (R622 to R624, R627, R628) -/

/-- A link engine of microcode is fenced: LE2 for CXP1, LE3 to LE5 for Kenka (R619). -/
def State.linkFenced (s : State) (i : Nat) : Bool :=
  ((if i = 1 then [1746] else if i = 2 then [1747, 1748, 1749] else [1744, 1745]).any
    (fun r => SMap.getD s.boot.fenced r false))

/-- A link has trained within step 12: from the record, or cold. -/
def State.linkTrained (s : State) (i : Nat) (fast : Bool) (peer result : Nat) : State :=
  let s1 := s.updBoot (fun b => { b with
    links := SMap.ins b.links i { fast := fast, peer := peer, result := result }, unsaved := b.unsaved || !fast })
  if fast then (s1.wr pgTnd Reg.tndTrecLinkFast (withBit (s1.rd pgTnd Reg.tndTrecLinkFast) i)).wr pgTnd Reg.tndBootFast 1 else s1

/-- CXP_LINK_UP: a CXP link trains to a mode, width and rate; at bring-up an entry of the record may be used, and CXP1's
devices are enumerated. A flush that waited for CXP0 goes on (spec/22 R714). -/
def execCxpLinkUp (port : Fin 2) (mode : Fin 7) (width rate : Nat) (verified : Bool) (devs : List FarDev) (s : State) :
    Host.Outcome State Fault Refusal :=
  answer (if s.linkFenced port || decide (mode.val = 0) then s
    else
      let s0 := s.cxpUp port mode width rate
      let s1 := if port.val = 0 then s0.flushOn else s0
      if !s.booting 11 then s1
      else
        let res := s1.rd (pgCxp port) Reg.cxpLinkWidth + 32 * s1.rd (pgCxp port) Reg.cxpLinkRate
        let s2 := s1.linkTrained port ((s1.entryFor (1 + port.val) 0 none).isSome && verified) 0 res
        if port.val = 1 then (devs.filter farPlaced).foldl State.farEnum s2 else s2)

/-- KENKA_LINK_UP: Kenka trains on the lanes good in both directions, with the partner's DEV_SERIAL (R530, R627). -/
def execKenkaLinkUp (good : BitVec 16) (verified : Bool) (peer : BitVec 64) (s : State) : Host.Outcome State Fault Refusal :=
  answer (if s.linkFenced 2 then s
    else
      let s1 := s.kenkaUp good.toNat
      if !s.booting 11 || decide (s1.knk Reg.knkStateWidth = 0) then s1
      else
        let k1 := s1.flag pgKnk Reg.knkCtrlK1
        let used := match s1.entryFor 3 0 (some peer.toNat) with
          | some e => bitAt e.result 13 == k1
          | none => false
        s1.linkTrained 2 (used && verified) peer.toNat
          (s1.knk Reg.knkStateWidth + 32 * (if k1 then 56 else 112) + 8192 * b2n k1))

/-! ## Limits (R606, R621, R624) -/

/-- A link that has not trained at the limit of step 12. -/
def State.linkLate (s : State) (i : Nat) : State :=
  if (SMap.find s.boot.links i).isSome then s
  else
    let s1 := (s.setCause pgTnd Reg.causeTndLinkLate).err pgTnd 0xD4 i
    if i = 0 then s1.event 0x03 else s1

/-- STEP_LIMIT_EXPIRY: the step in progress passes its limit. -/
def execStepLimitExpiry (s : State) : Host.Outcome State Fault Refusal :=
  answer (if !s.boot.running then s
    else if s.bootStep < 8 then s.bootFail 1
    else if s.bootStep = 9 then
      (((List.range 144).filter (fun c => (SMap.find s.boot.chans c).isNone)).foldl (fun (s : State) c => s.chanFail c 0) s).endChannels
    else if s.bootStep = 11 then ((List.range 3).foldl State.linkLate s).stepDone 12
    else s)

/-! ## Ready (R630; spec/21 R688, R689; spec/20 R677) -/

/-- Valid images of a kind. -/
def State.validSlots (s : State) (kind : Nat) : List Nat := [2 * kind, 2 * kind + 1].filter s.slotValid

/-- The fused SVN of a kind rises to the lower of those of its valid images (R688). -/
def State.advanceSvn (s : State) (kind : Nat) : State :=
  match s.validSlots kind with
  | [] => s
  | k :: l =>
    let n := l.foldl (fun m j => min m (imgSvn (s.slot j))) (imgSvn (s.slot k))
    if n ≤ s.fuses.svn kind then s
    else if kind = 0 then ({ s with fuses := { s.fuses with svnFw := n } }).wr pgSec Reg.secSvnFwFuse n
    else ({ s with fuses := { s.fuses with svnUc := n } }).wr pgSec Reg.secSvnUcFuse n

/-- One key slot named in REVOKE of the booted firmware (R688). -/
def State.revokeSlot (s : State) (k : Nat) : State :=
  let used := (List.range 4).any (fun j => s.slotValid j && decide (imgKey (s.slot j) = k))
  let lastOne := decide (k < 3) && ((List.range 3).filter (fun j => !bitAt s.fuses.revoked j) == [k])
  if used || lastOne || bitAt s.fuses.revoked k then s
  else
    let s1 := { s with fuses := { s.fuses with revoked := withBit s.fuses.revoked k } }
    (((s1.wr pgSec Reg.secStateRevoked s1.fuses.revoked).logAppend 0x04 (leBytes 1 k ++ leBytes 7 0)).setCause pgSec
      Reg.causeSecRevoke).err pgSec 0x22 k

/-- The 16-byte configuration block of M2 (R689). -/
def State.configBlock (s : State) : List Byte :=
  byteList [s.fuses.lcState, s.rd pgDev Reg.devIdGrade, s.rd pgDev Reg.devStatePmode, s.fuses.svnFw, s.fuses.svnUc,
    s.fuses.revoked, s.rd pgSec Reg.secStateFwKey, s.rd pgSec Reg.secStateUcKey] ++ leBytes 8 0

/-- What secure boot does at ready. -/
def State.secReady (s : State) : State :=
  let fw := s.slot (s.rd pgSec Reg.secStateFwSlot)
  let s1 := (bitList 4 (imgRevoke fw)).foldl State.revokeSlot ((s.advanceSvn 0).advanceSvn 1)
  s1.setMeas 2 (Hash.sha384 s1.configBlock)

/-- A trip record held in flash is reported (R677). -/
def State.reportTrip (s : State) : State :=
  match s.flash.trip with
  | none => s
  | some r => ((s.wrs pgThm [(Reg.thmTripValid, 1), (Reg.thmTripDie, r.die), (Reg.thmTripSource, r.source), (Reg.thmTripMon, r.mon),
      (Reg.thmTripReading, r.reading), (Reg.thmTripStk, r.stk)]).setCause pgThm Reg.causeThmTripLast).event 0x04

/-- READY: step 13, in one cycle; Tender's times are given. -/
def execReady (totalMs trainMs : BitVec 16) (s : State) : Host.Outcome State Fault Refusal :=
  answer (if !s.boot.running || !(decide (s.bootStep = 12) || (decide (s.bootStep = 11) && (SMap.find s.boot.links 0).isSome)) then s
    else
      let s1 := (s.stepDone 13).secReady
      let s2 := [pgSec, pgLcy, pgTnd, pgPwr].foldl (fun (s : State) p => s.wr p Reg.ctrlLock 1) s1
      let s3 := (s2.wrs pgTnd [(Reg.tndTimeTotalMs, totalMs.toNat), (Reg.tndTimeTrainMs, trainMs.toNat)]).wrs pgStk
        [(Reg.stkState, 0), (Reg.stkNum, 0)]
      let s4 := ((s3.wr pgDev Reg.devStateReady 1).setCause pgDev Reg.causeDevReady).keepRecord.reportSize
      (s4.updBoot (fun b => { b with running := false, upStokes := 0, upUs := 0 })).event 0x01 |>.reportTrip)

/-! ## The training record and its settings (R625, R629) -/

/-- The entries of the last training. -/
def State.trainEntries (s : State) : List TrainEntry :=
  (s.boot.chans.filter (fun e => !e.2.fenced)).map (fun e =>
    { kind := 0, index := e.1, peer := e.2.peer, data := e.2.settings,
      result := (if e.2.narrow then 16 else 0) + 32 * [32, 36, 40, 48].getD (s.rd (pgGdc e.1) Reg.gdcStateSpeed) 0 }) ++
  s.boot.links.map (fun e => { kind := e.1 + 1, index := 0, peer := e.2.peer, result := e.2.result, data := [] })

/-- TRAINING_RECORD_SAVE: a new record goes to the copy of lower SEQ; in a bring-up that TREC_DISCARD made cold to both (R629). -/
def execTrainingRecordSave (s : State) : Host.Outcome State Fault Refusal :=
  answer (if !s.flag pgDev Reg.devStateReady || !s.boot.unsaved then s
    else
      let a := s.flash.trainA
      let b := s.flash.trainB
      let rec_ : TrainRec :=
        { serial := s.rd pgDev Reg.devSerial, seq := max (recSeq a) (recSeq b) + 1,
          talgo := Config.talgo (s.rd pgTnd Reg.tndFwVersion), temp := ofInt 8 (toSigned 16 (s.rd pgThm (Reg.thmHotEff 2)) / 16),
          fuses := s.rd (pgGdc 0) Reg.gdcStateSpeed + 4 * s.rd (pgGdc 0) Reg.gdcStateDensity, entries := s.trainEntries }
      let toA := s.boot.discard || decide (recSeq a ≤ recSeq b)
      let toB := s.boot.discard || !toA
      let s1 := { s with flash := { s.flash with
        trainA := if toA then rec_.bytes else a, trainB := if toB then rec_.bytes else b } }
      (s1.updBoot (fun x => { x with unsaved := false })).setCause pgTnd Reg.causeTndTrecSaved)

/-- TREC_DISCARD: both copies are invalid for the next bring-up. -/
def State.trecDiscard (s : State) : State := { s with flash := { s.flash with discarded := true } }
def execTrecDiscard (s : State) : Host.Outcome State Fault Refusal := answer s.trecDiscard

/-- FAST_NEXT_WRITE: the setting goes to flash. -/
def State.fastNextWrite (s : State) (v : Bool) : State :=
  ({ s with flash := { s.flash with fastNext := v } }).wr pgTnd Reg.tndCtrlFastNext (b2n v)
def execFastNextWrite (v : Bool) (s : State) : Host.Outcome State Fault Refusal := answer (s.fastNextWrite v)

end Sys2Proof.Machine
end

