-- ==== Sys2Proof/Machine/Secure.lean ====
section
/-! DEFINITION. The DOE mailboxes: certificates, reports, firmware update and life-cycle transitions (spec/21 R692 to R705;
spec/17 R574; spec/11 R420). -/
namespace Sys2Proof.Machine

def State.ready (s : State) : Bool := s.flag pgDev Reg.devStateReady

/-- A response on mailbox 1: the request's header with OP + 0x80 and STATUS, and the payload. -/
def State.doeAnswer (s : State) (op status tag : Nat) (payload : List Byte) : State :=
  s.emit (.response "DOE 1" (leBytes 1 (op + 0x80) ++ leBytes 1 status ++ leBytes 2 tag ++ leBytes 4 payload.length ++ payload))

/-- CDAT_READ: the Table Access protocol of mailbox 0 (R574). -/
def execCdatRead (s : State) : Host.Outcome State Fault Refusal :=
  answer (if s.ready then s.emit (.response "DOE 0" (Config.cdat (s.rd (pgCxp 0) Reg.cxpHdmSize) 700 120)) else s)

/-- TRNG_HEALTH_FAIL: the TRNG stays off until reset (R694, R705). -/
def execTrngHealthFail (s : State) : Host.Outcome State Fault Refusal :=
  answer (((s.wr pgSec Reg.secStateTrngOk 0).setCause pgSec Reg.causeSecTrngFail).err pgSec 0x21 0)

/-! ## Reading identity, reports and the log (R695, R696) -/

/-- A certificate preceded by its length. -/
def certBytes (l : List Byte) : List Byte := leBytes 4 l.length ++ l

/-- The alias key: the key store derives it anew at every bring-up, and it stays there (R692). -/
def State.aliasKey (s : State) : Nat := Keys.alias_ s.fuses.uds (s.meas 0) (s.meas 1)

/-- Both certificates (R693). -/
def State.certs (s : State) : List Byte :=
  certBytes (s.flash.dik.getD []) ++ certBytes (Keys.certificate (Keys.identity s.fuses.uds)
    (Config.aliasTbs (Keys.publicKey s.aliasKey) (s.meas 0) (s.meas 1) (s.rd pgLcy Reg.lcyState)))

/-- Bytes 0 to 471 of a report (R695). -/
def State.reportBody (s : State) (nonce : List Byte) : List Byte :=
  leBytes 4 0x0C445250 ++ leBytes 2 1 ++ leBytes 1 (s.rd pgLcy Reg.lcyState) ++
  leBytes 1 (s.rd pgLcy Reg.lcyStatePending + 2 * b2n (s.flag pgSec Reg.secLogLost)) ++
  leBytes 8 (s.rd pgDev Reg.devSerial) ++ nonce ++ leBytes 8 (s.rd pgStk Reg.stkNum) ++
  byteList [s.rd pgSec Reg.secSvnFwImg, s.rd pgSec Reg.secSvnUcImg, s.rd pgSec Reg.secSvnFwFuse, s.rd pgSec Reg.secSvnUcFuse,
    s.rd pgSec Reg.secStateFwKey, s.rd pgSec Reg.secStateUcKey, s.rd pgSec Reg.secStateRevoked, 0] ++
  s.meas 0 ++ s.meas 1 ++ s.meas 2 ++ s.meas 3 ++ s.detrec ++ leBytes 4 (s.rd pgSec Reg.secLogLen) ++
  leBytes 4 (s.rd pgSec Reg.secLogLost) ++ Hash.sha384 s.sec.log

/-- A signed report. -/
def State.report (s : State) (nonce : List Byte) : List Byte :=
  s.reportBody nonce ++ Keys.signature s.aliasKey (s.reportBody nonce)

/-! ## Firmware update (R698) -/

/-- The slot of a kind that was not booted. -/
def State.spareSlot (s : State) (kind : Nat) : Nat :=
  2 * kind + 1 - s.rd pgSec (if kind = 0 then Reg.secStateFwSlot else Reg.secStateUcSlot)

/-- Bytes of flash with data written at an offset; erased flash reads all ones. -/
def flashWrite (old : List Byte) (off : Nat) (data : List Byte) : List Byte :=
  (old ++ List.replicate (off - old.length) 0xFF).take off ++ data ++ old.drop (off + data.length)

def State.slotOpen (s : State) (kind : Nat) : Bool := if kind = 0 then s.sec.openFw else s.sec.openUc
def State.setOpen (s : State) (kind : Nat) (b : Bool) : State :=
  s.updSec (fun x => if kind = 0 then { x with openFw := b } else { x with openUc := b })

/-- FW_WRITE: kind, offset and length must be valid. -/
def State.fwWrite (s : State) (tag kind off : Nat) (data : List Byte) : State :=
  if 1 < kind ∨ 61440 < data.length ∨ 2 ^ 24 < off + data.length then s.doeAnswer 0x10 2 tag []
  else
    let k := s.spareSlot kind
    let s1 := if s.slotOpen kind then s else s.setSlot k []
    (((s1.setSlot k (flashWrite (s1.slot k) off data)).setOpen kind true).wrs pgSec
      [(Reg.secUpdState, 1), (Reg.secUpdKind, kind)]).doeAnswer 0x10 0 tag []

/-- FW_COMMIT: an image that fails leaves the slot erased. -/
def State.fwCommit (s : State) (tag kind : Nat) : State :=
  if 1 < kind then s.doeAnswer 0x11 2 tag []
  else
    let k := s.spareSlot kind
    let st := imgStatus s.fuses kind (s.slot k)
    let s1 := ((s.setOpen kind false).wrs pgSec
      [(Reg.secUpdState, if st = 0 then 3 else 4), (Reg.secUpdKind, kind), (Reg.secUpdStatus, st)]).setCause pgSec Reg.causeSecUpdDone
    let s2 := if st = 0 then s1 else (s1.setSlot k []).err pgSec 0x23 st
    s2.doeAnswer 0x11 st tag []

/-! ## Life-cycle transitions (R699 to R702) -/

/-- Next states of a life-cycle state (R699). -/
def lcNext (a b : Nat) : Bool := (a = 0 && (b = 1 || b = 3)) || (a = 1 && (b = 2 || b = 3)) || (a = 2 && b = 3)

/-- The STATUS of a token: 0 when every check of R700 holds (notes/assumptions/24.md). -/
def State.tokenStatus (s : State) (t : List Byte) : Nat :=
  let key := imgAt t 50 2
  let pub := (t.drop 56).take 96
  if t.length ≠ 248 ∨ imgAt t 0 4 ≠ 0x0C444C43 ∨ imgAt t 4 2 ≠ 1 ∨ 1 < imgAt t 48 2 ∨ imgAt t 52 4 ≠ 0 ∨
     imgAt t 8 8 ≠ s.rd pgDev Reg.devSerial then 2
  else if imgAt t 6 1 ≠ s.fuses.lcState ∨ !lcNext (imgAt t 6 1) (imgAt t 7 1) ∨ s.rd pgStk Reg.stkState ≠ 0 ∨
     ¬(s.rd pgKnk Reg.knkStatePstate = 0 ∨ s.rd pgKnk Reg.knkStatePstate = 4) then 3
  else if s.sec.nonce ≠ some ((t.drop 16).take 32) then 7
  else if 2 < key ∨ bitAt s.fuses.revoked key ∨ !keyAccepted s.fuses.lcState key then 6
  else if !keyOk s.fuses key pub ∨ !Keys.verify pub (t.take 152) ((t.drop 152).take 96) then 4
  else 0

/-- The result of a token is held and answered. -/
def State.tokenResult (s : State) (tag : Nat) (t : List Byte) (san status : Nat) : State :=
  (s.wrs pgLcy [(Reg.lcyLastValid, 1), (Reg.lcyLastFrom, imgAt t 6 1), (Reg.lcyLastTo, imgAt t 7 1), (Reg.lcyLastSan, san),
    (Reg.lcyLastStatus, status)]).doeAnswer 0x21 status tag []

/-- The nonce is no longer outstanding. -/
def State.dropNonce (s : State) : State := (s.updSec (fun x => { x with nonce := none })).wr pgLcy Reg.lcyStateNonceOut 0

/-- Steps 2 and 3 of R701: the PEND fuse of TO is blown, the answer goes out, and the CX-4 resets. -/
def State.blowPend (s : State) (tag : Nat) (t : List Byte) (f : Findings) : State :=
  let s1 := { s with fuses := { s.fuses with pend := withBit s.fuses.pend (imgAt t 7 1) } }
  let s2 := (s1.setCause pgLcy Reg.causeLcyAccepted).tokenResult tag t (s.rd (pgFar 0) Reg.farSanResult) 0
  (s2.moduleReset 6).tryBringUp f

/-- Step 1 of R701 is over. -/
def State.afterSanitize (s : State) (tag : Nat) (t : List Byte) (f : Findings) : State :=
  let r := s.rd (pgFar 0) Reg.farSanResult
  if (r = 2 ∨ r = 3) ∧ !bitAt (imgAt t 48 2) 0 then (s.err pgLcy 0x29 0).tokenResult tag t r 8
  else s.blowPend tag t f

/-- LC_TOKEN: checked, and refused or taken to the sanitize of slot 0. -/
def State.lcToken (s : State) (tag : Nat) (t : List Byte) (f : Findings) : State :=
  let st := s.tokenStatus t
  let s1 := s.dropNonce
  if st ≠ 0 then
    (((s1.bump pgLcy Reg.lcyRefusedCount 1).setCause pgLcy Reg.causeLcyRefused).err pgLcy 0x28 st).tokenResult tag t 0 st
  else
    let s2 := s1.skipSanitize
    let wait := s2.updSec (fun x => { x with wait := some (tag, t) })
    if s2.farDirect 0 then wait.startSanitize 0
    else if s2.rd (pgFar 0) Reg.farState = 3 then wait
    else s2.blowPend tag t f

/-! ## One request at a time (R696) -/

/-- Tender answers a request. -/
def State.doeRun (s : State) (tag : Nat) (r : DoeReq) (f : Findings) : State :=
  match r with
  | .certs => s.doeAnswer 0x01 0 tag s.certs
  | .report nonce => if nonce.length = 32 then s.doeAnswer 0x02 0 tag (s.report nonce) else s.doeAnswer 0x02 2 tag []
  | .log off => s.doeAnswer 0x03 0 tag ((s.sec.log.drop off).take 61440)
  | .write kind off data => s.fwWrite tag kind off data
  | .commit kind => s.fwCommit tag kind
  | .nonce random =>
    let s1 := s.dropNonce
    if s.flag pgSec Reg.secStateTrngOk then
      let n := leBytes 32 random.toNat
      ((s1.updSec (fun x => { x with nonce := some n })).wr pgLcy Reg.lcyStateNonceOut 1).doeAnswer 0x20 0 tag n
    else s1.doeAnswer 0x20 9 tag []
  | .token bytes => s.lcToken tag bytes f

/-- A request arrives on mailbox 1; while a transition waits for its sanitize it waits too. -/
def State.doe (s : State) (tag : Nat) (r : DoeReq) (f : Findings) : State :=
  if !s.ready then s
  else if s.sec.wait.isSome then s.updSec (fun x => { x with queue := x.queue ++ [(tag, r)] })
  else s.doeRun tag r f

/-- The requests that waited are answered in order, until one waits again. -/
def State.doeDrain (s : State) (f : Findings) : State :=
  let l := s.sec.queue
  l.foldl (fun (s : State) e => s.doe e.1 e.2 f) (s.updSec (fun x => { x with queue := [] }))

def noFindings : Findings := { hang := 0, flues := [], banks := [], units := [], diodes := [], monitors := [], broken := [] }

/-- GET_CERTS. -/
def execGetCerts (tag : BitVec 16) (s : State) : Host.Outcome State Fault Refusal := answer (s.doe tag.toNat .certs noFindings)
/-- GET_REPORT. -/
def execGetReport (tag : BitVec 16) (nonce : List (BitVec 8)) (s : State) : Host.Outcome State Fault Refusal :=
  answer (s.doe tag.toNat (.report nonce) noFindings)
/-- GET_LOG. -/
def execGetLog (tag : BitVec 16) (off : BitVec 32) (s : State) : Host.Outcome State Fault Refusal :=
  answer (s.doe tag.toNat (.log off.toNat) noFindings)
/-- FW_WRITE. -/
def execFwWrite (tag : BitVec 16) (kind : BitVec 8) (off : BitVec 32) (data : List (BitVec 8)) (s : State) :
    Host.Outcome State Fault Refusal :=
  answer (s.doe tag.toNat (.write kind.toNat off.toNat data) noFindings)
/-- FW_COMMIT. -/
def execFwCommit (tag : BitVec 16) (kind : BitVec 8) (s : State) : Host.Outcome State Fault Refusal :=
  answer (s.doe tag.toNat (.commit kind.toNat) noFindings)
/-- LC_NONCE, with the bytes that the TRNG gives. -/
def execLcNonce (tag : BitVec 16) (random : BitVec 256) (s : State) : Host.Outcome State Fault Refusal :=
  answer (s.doe tag.toNat (.nonce random) noFindings)
/-- LC_TOKEN, with what a bring-up after it finds. -/
def execLcToken (tag : BitVec 16) (bytes : List (BitVec 8)) (f : Findings) (s : State) : Host.Outcome State Fault Refusal :=
  answer (s.doe tag.toNat (.token bytes) f)

/-- FAR_SANITIZE_DONE: the result is recorded, and a transition that waits for slot 0 goes on (R420, R701). -/
def execFarSanitizeDone (slot : Fin 8) (result : Fin 3) (seconds : BitVec 32) (f : Findings) (s : State) :
    Host.Outcome State Fault Refusal :=
  answer (if s.rd (pgFar slot) Reg.farState ≠ 3 then s
    else
      let s1 := s.endSanitize slot (result.val + 1) seconds.toNat
      match s1.sec.wait with
      | some (tag, t) =>
        if slot.val = 0 then ((s1.updSec (fun x => { x with wait := none })).afterSanitize tag t f).doeDrain f else s1
      | none => s1)

end Sys2Proof.Machine
end

