-- ==== Sys2Proof/Machine/Board.lean ====
section
/-! DEFINITION. The board controller's interfaces: I3C frames, recovery of the firmware, and the test access port
(spec/22 R718 to R720; spec/23 R737 to R741). -/
namespace Sys2Proof.Machine

/-! ## I3C (R737 to R739) -/

/-- From time 0 the target answers; steps 3 to 7 are one command, so from then on it answers frames too (R737). -/
def State.i3cUp (s : State) : Bool := s.boot.running || s.boot.failed || s.ready

/-- I3C_ADDRESS_ASSIGN: SETDASA with a static address, or ENTDAA. -/
def execI3cAddressAssign (static : Option (BitVec 7)) (addr : BitVec 7) (s : State) : Host.Outcome State Fault Refusal :=
  answer (if s.i3cUp && (static.getD 0x4C == 0x4C) then s.updMod (fun m => { m with dynAddr := some addr.toNat }) else s)

/-- The CRC of a frame: over bytes 0 to 3 and the payload (R738). -/
def frameCrc (cmd status : Nat) (payload : List Byte) : Nat :=
  Hash.crc32c (leBytes 1 cmd ++ leBytes 1 status ++ leBytes 2 payload.length ++ payload)

/-- A response is held until it is read or a new request discards it (R738). -/
def State.reply (s : State) (cmd status : Nat) (payload : List Byte) : State :=
  let c := cmd + 0x80
  s.updMod (fun m => { m with resp := some (leBytes 1 c ++ leBytes 1 status ++ leBytes 2 payload.length ++
    leBytes 4 (frameCrc c status payload) ++ payload) })

/-- What every frame checks before its own meaning: the target answers, and the CRC matches. -/
def State.frame (s : State) (cmd : Nat) (payload : List Byte) (crc : BitVec 32) (f : State → State) : State :=
  if !s.i3cUp then s
  else if frameCrc cmd 0 payload ≠ crc.toNat then s.reply cmd 4 []
  else f s

/-- EVENT_READ: the oldest event with its DROPPED count, removed (R739, R740). -/
def execEventRead (payload : List (BitVec 8)) (crc : BitVec 32) (s : State) : Host.Outcome State Fault Refusal :=
  answer (s.frame 0x01 payload crc (fun s =>
    if payload.length ≠ 0 then s.reply 0x01 2 []
    else
      match s.mod.events with
      | [] => s.reply 0x01 0 []
      | e :: l => ((s.updMod (fun m => { m with events := l, dropped := 0 })).alertPin false).reply 0x01 0
          (e.set 1 (BitVec.ofNat 8 s.mod.dropped))))

/-- LEGACY_READ: a value of the legacy page (spec/02 R83). -/
def execLegacyRead (payload : List (BitVec 8)) (crc : BitVec 32) (s : State) : Host.Outcome State Fault Refusal :=
  answer (s.frame 0x02 payload crc (fun s =>
    if payload.length ≠ 2 then s.reply 0x02 2 []
    else (s.reply 0x02 0 (leBytes 4 (s.legacy (leNat payload)))).legacyDrawn (leNat payload)))

/-! ## Recovery (R687, R741) -/

/-- Banks HB0 to HB16 of a partition. -/
def recBase (n : Nat) : Nat := 2 ^ 24 * n
def recBytes : Nat := 17 * 2 ^ 19

/-- The buffer's banks are zeroed. -/
def State.zeroBuffer (s : State) (n : Nat) : State :=
  let out := fun (a : Nat) => decide (a < recBase n) || decide (recBase n + recBytes ≤ a)
  { s with
    mem := s.mem.filter (fun e => out e.1), memBad := s.memBad.filter (fun e => out (8 * e.1))
    vague := s.vague.cut (recBase n) (recBase n + recBytes) }

/-- REC_BEGIN: the lowest of HP0 to HP7 that passes the ROM's march test holds the new image. -/
def execRecBegin (payload : List (BitVec 8)) (crc : BitVec 32) (passing : List (Fin 8)) (s : State) :
    Host.Outcome State Fault Refusal :=
  answer (s.frame 0x10 payload crc (fun s =>
    if !s.boot.failed then s.reply 0x10 3 []
    else if payload.length ≠ 4 ∨ 2 ^ 23 + 320 < leNat payload then s.reply 0x10 2 []
    else
      match (List.range 8).find? (fun n => passing.any (fun k => k.val = n)) with
      | none => s.reply 0x10 3 []
      | some n => ((s.zeroBuffer n).updMod (fun m => { m with
          recovery := some { part := n, len := leNat payload, got := 0 } })).reply 0x10 0 []))

/-- REC_DATA: data at the next offset. -/
def execRecData (payload : List (BitVec 8)) (crc : BitVec 32) (s : State) : Host.Outcome State Fault Refusal :=
  answer (s.frame 0x11 payload crc (fun s =>
    match s.boot.failed, s.mod.recovery with
    | true, some r =>
      let data := payload.drop 4
      if payload.length < 4 ∨ 1016 < data.length ∨ leNat (payload.take 4) ≠ r.got ∨ r.len < r.got + data.length then
        s.reply 0x11 2 []
      else ((s.setBytes (recBase r.part + r.got) data).updMod (fun m => { m with
        recovery := some { r with got := r.got + data.length } })).reply 0x11 0 []
    | _, _ => s.reply 0x11 3 []))

/-- REC_COMMIT: a valid image goes to FWA. -/
def execRecCommit (payload : List (BitVec 8)) (crc : BitVec 32) (s : State) : Host.Outcome State Fault Refusal :=
  answer (s.frame 0x12 payload crc (fun s =>
    match s.boot.failed, s.mod.recovery with
    | true, some r =>
      let img := s.bytesAt (recBase r.part) r.len
      if payload.length ≠ 0 then s.reply 0x12 2 []
      else if imgValid s.fuses 0 img then (s.setSlot 0 img).reply 0x12 0 []
      else s.reply 0x12 5 []
    | _, _ => s.reply 0x12 3 []))

/-! ## The test access port (R718 to R720) -/

/-- The IDCODE. -/
def idcode : Nat := 0x2 * 2 ^ 28 + 0x0C44 * 2 ^ 12 + Config.jedec.toNat * 2 + 1

def State.setTap (s : State) (t : Tap) : State := s.updMod (fun m => { m with tap := t })

/-- Instructions other than BYPASS and IDCODE take effect only while RESET_N is low. -/
def State.tapLow (s : State) (f : State → State) : State := if s.mod.resetN then s else f s

/-- TAP_BYPASS. -/
def execTapBypass (s : State) : Host.Outcome State Fault Refusal := answer (s.setTap .bypass)
/-- TAP_IDCODE: the value is shifted out. -/
def execTapIdcode (s : State) : Host.Outcome State Fault Refusal := answer ((s.setTap .idcode).emit (.tdo idcode 32))

/-- A number from bits, least significant first. -/
def bitsNat (l : List Bool) : Nat := l.foldr (fun b n => b2n b + 2 * n) 0

/-- TAP_SAMPLE_PRELOAD: the pins' levels are shifted out while a preload is shifted in. -/
def execTapSamplePreload (pins preload : List Bool) (s : State) : Host.Outcome State Fault Refusal :=
  answer (s.tapLow (fun s => ((s.setTap .sample).updMod (fun m => { m with boundary := bitsNat preload })).emit
    (.tdo (bitsNat pins) pins.length)))
/-- TAP_EXTEST: the boundary register drives its pins. -/
def execTapExtest (s : State) : Host.Outcome State Fault Refusal :=
  answer (s.tapLow (fun s => (s.setTap .extest).emit (.pulse "boundary drive" s.mod.boundary)))
/-- TAP_CLAMP: the outputs hold the boundary register's values. -/
def execTapClamp (s : State) : Host.Outcome State Fault Refusal :=
  answer (s.tapLow (fun s => (s.setTap .clamp).emit (.pulse "boundary drive" s.mod.boundary)))
/-- TAP_HIGHZ: the outputs float. -/
def execTapHighz (s : State) : Host.Outcome State Fault Refusal :=
  answer (s.tapLow (fun s => (s.setTap .highz).emit (.pulse "boundary float" 0)))

end Sys2Proof.Machine
end

