-- ==== Sys2Proof/Machine/Scrub.lean ====
section
/-! DEFINITION. Scrubs of ranges and of bank classes: the SCRUB command of FQ0, a scrub's end and its
64-byte summary (spec/14 R504 to R508). -/
namespace Sys2Proof.Machine

def State.setScrubs (s : State) (l : List Scrub) : State := s.updFeed (fun d => { d with scrubs := l })

/-- The 64-byte summary (R508). -/
def summaryBytes (tag status rows words corr ue pois first start end_ : Nat) : List Byte :=
  let b := leBytes 2 tag ++ leBytes 1 status ++ leBytes 1 0 ++ leBytes 4 (min rows (2 ^ 32 - 1)) ++ leBytes 8 words ++
    leBytes 4 corr ++ leBytes 4 ue ++ leBytes 4 pois ++ leBytes 4 0 ++ leBytes 8 first ++ leBytes 8 start ++ leBytes 8 end_
  b ++ leBytes 4 (Hash.crc32c b) ++ leBytes 4 0

/-- Start and stoke numbers of a summary: a scrub that never started has no stoke of start (R508), a free value. -/
def State.scrubStart (s : State) (b : Option Nat) : Nat × State :=
  match b with
  | some n => (n, s)
  | none => (s.freeBits 64, s.tookFree)

/-- A summary without counts: a refused or a stopped scrub. -/
def State.bareSummary (s : State) (tag status sumAddr : Nat) (begun : Option Nat) : State :=
  let (n, s1) := s.scrubStart begun
  s1.emit (.hostWrite sumAddr (summaryBytes tag status 0 0 0 0 0 0 n (s.rd pgStk Reg.stkNum)) [])

/-- The range lies wholly in the hearth window or wholly in the near window (R505). -/
def State.scrubRangeOk (s : State) (a n : Nat) : Bool :=
  decide (a + n ≤ hearthEnd) || (decide (nearBase ≤ a) && decide (a + n ≤ nearBase + s.nearLen))

/-- A descriptor obeys the table of R504. -/
def State.scrubOk (s : State) (d a n sum : Nat) : Bool :=
  decide (d % 2 ^ 46 = 0) && decide (bitsAt d 46 2 ≠ 3) && decide (sum % 64 = 0) &&
  (if bitsAt d 46 2 = 0 then decide (a % 512 = 0) && decide (n % 512 = 0) && decide (n ≠ 0) && s.scrubRangeOk a n
   else decide (a = 0) && decide (n = 0))

/-- The scrub at the front starts at once (R506). -/
def State.beginScrub (s : State) : State :=
  match s.feed.scrubs with
  | [] => s
  | c :: l => if c.begun.isSome then s else s.setScrubs ({ c with begun := some (s.rd pgStk Reg.stkNum) } :: l)

/-- SCRUB: queued behind the running one, or refused: a summary with STATUS 1 and completion 0x02 (R505, R583). Four
wait at most behind the one that runs. -/
def execScrub (s : State) : Host.Outcome State Fault Refusal :=
  answer (s.startCmd 0x30 (fun s tag ws =>
    let d := ws.getD 1 0
    let c : Scrub := { tag := bitsAt d 48 16, cmdTag := tag, mode := bitsAt d 46 2, start := ws.getD 2 0,
                       len := ws.getD 3 0, sumAddr := ws.getD 4 0, begun := none }
    if !s.scrubOk d c.start c.len c.sumAddr ∨ 5 ≤ s.feed.scrubs.length then
      (s.bareSummary c.tag 1 c.sumAddr none).complete 0 tag 0x02 0
    else (s.setScrubs (s.feed.scrubs ++ [c])).beginScrub))

/-- The banks of a role, as keys 32 × partition + bank. -/
def State.banksOf (s : State) (role : Nat) : List Nat :=
  (List.range 160).flatMap (fun n =>
    if s.flag (pgHrt n) Reg.statFenced then []
    else ((List.range 24).filter (fun b => s.rd (pgHrtx n) (Reg.hrtBankRole b) = role)).map (fun b => 32 * n + b))

/-- Valid sectors of the cached lines whose near row starts in an extent. -/
def State.cachedSectors (s : State) (a n : Nat) : Nat :=
  ((s.hub.cache.filter (fun e => decide (a ≤ nearBase + 512 * e.2.row) && decide (nearBase + 512 * e.2.row < a + n))).map
    (fun e => popCount 8 e.2.valid.toNat)).foldl (· + ·) 0

/-- Rows and words that a scrub checks, and the words it covers (R506): every bank row of a hearth range whose
bank serves; the slots of a near range with the valid sectors of cached copies; whole banks in modes 1 and 2. -/
def State.scrubExtent (s : State) (c : Scrub) : Nat × Nat × (Nat → Bool) :=
  if c.mode = 0 then
    if isNear c.start then
      (c.len / 512, c.len / 8 + 8 * s.cachedSectors c.start c.len,
       fun w => decide (c.start ≤ 8 * w) && decide (8 * w < c.start + c.len))
    else
      let rows := fun (k : Nat) =>
        let lo := k * 2 ^ 19
        (min (lo + 2 ^ 19) (c.start + c.len) - max lo c.start) / 512
      let n := ((s.banksOf 0 ++ s.banksOf 1 ++ s.banksOf 2).map rows).foldl (· + ·) 0
      (n, 64 * n, fun w => decide (c.start ≤ 8 * w) && decide (8 * w < c.start + c.len))
  else
    let l := s.banksOf (if c.mode = 1 then 0 else 1)
    (1024 * l.length, 65536 * l.length, fun w =>
      if c.mode = 1 then decide (nearBase ≤ 8 * w) && (s.bankOf (8 * w)).isSome
      else decide (8 * w < hearthEnd) && l.contains (8 * w / 2 ^ 19))

/-- What a decoder finds in a cell that a scrub reads. -/
def State.scrubFind (s : State) (device : Bool) (w : Nat) : Gw.Heard :=
  Gw.hear (Gw.stored 0 (s.badAt (8 * w)) ^^^ SMap.getD (if device then s.hub.devErr else s.hub.bankErr) w 0)

/-- One word that a scrub reads: a correction is counted and written back at once; an uncorrectable word is counted as a read of it is, and
written back poisoned (R506). -/
def State.scrubWord (s : State) (device : Bool) (w : Nat) : State := (s.meet device w).freshCell device w

/-- The head scrub leaves the queue, and the next starts. -/
def State.nextScrub (s : State) : State := (s.setScrubs (s.feed.scrubs.drop 1)).beginScrub

/-- SCRUB_END: the running scrub ends; faults have changed cells of its range by then. Every word it covers has been read: its summary
is written and its completion posted (R506, R508). A scrub of near memory waits for a wipe. -/
def execScrubEnd (bankCells devCells : List CellFault) (s : State) : Host.Outcome State Fault Refusal :=
  answer (match s.feed.scrubs with
    | [] => s
    | c :: _ =>
      let (rows, words, cover) := s.scrubExtent c
      if s.hub.wiping ∧ c.mode = 0 ∧ isNear c.start then s
      else
        let inDev := decide (c.mode = 0) && isNear c.start
        let s0 := (bankCells.filter (fun e => cover (e.1.toNat / 8))).foldl (fun s e => s.spoilCell false (e.1.toNat / 8) e.2) s
        let s1 := if inDev then
            (devCells.filter (fun e => cover (e.1.toNat / 8))).foldl (fun s e => s.spoilCell true (e.1.toNat / 8) e.2) s0
          else s0
        let bank := (s1.hub.bankErr.map (fun e => (false, e.1))).filter (fun e => cover e.2)
        let dev := if inDev then (s1.hub.devErr.map (fun e => (true, e.1))).filter (fun e => cover e.2) else []
        let found := (bank ++ dev).map (fun e => (e.2, s1.scrubFind e.1 e.2))
        let ues := found.filter (fun e => e.2.lost)
        let pois := (s1.memBad.filter (fun e => cover e.1)).length
        let s2 := (bank ++ dev).foldl (fun s e => s.scrubWord e.1 e.2) s1
        let (begun, s3) := s2.scrubStart c.begun
        let sum := summaryBytes c.tag 0 rows words (found.filter (fun e => e.2.fixed ≠ 0)).length ues.length pois
          ((ues.map (fun e => 8 * e.1)).headD 0) begun (s.rd pgStk Reg.stkNum)
        ((s3.emit (.hostWrite c.sumAddr sum [])).complete 0 c.cmdTag 0 0).nextScrub)

/-- A wipe stops every scrub, each with a summary of STATUS 2 (R507). -/
def State.stopScrubs (s : State) : State :=
  s.feed.scrubs.foldl (fun s c => (s.bareSummary c.tag 2 c.sumAddr c.begun).complete 0 c.cmdTag 0 0)
    (s.setScrubs [])

end Sys2Proof.Machine
end

