-- ==== Sys2Proof/Machine/Boundary.lean ====
section
/-! DEFINITION. The stoke event and the boundary interval, step by step (spec/01 R18 to R47, R754, R758; with
what other chapters place at these steps). Each step acts once per stoke, after the step before it. -/
namespace Sys2Proof.Machine

/-- The module is ready and stands in a phase of its stoke. -/
def State.inPhase (s : State) (p : Phase) : Bool := s.ready && decide (s.stoke.phase = p)

/-- Go on to a phase, at a cycle of the boundary interval counted from B. -/
def State.toPhase (s : State) (p : Phase) (c : Nat) : State :=
  (s.updStoke (fun u => { u with phase := p })).atCycle (s.cycleB + c)

/-! ## STOKE_EVENT (R18, R20 to R24, R43) -/

/-- A tile at local cycle 0: nothing resident, every token complete. -/
def Tile.newStoke (t : Tile) : Tile :=
  { t with launched := false, overrun := false, excTaken := false, lastExit := 0, ops := [], copies := [], refilled := []
           stop := none, marks := [], barStall := false, resident := [], poisonUsed := false }

/-- A live tile at local cycle 0: its list starts, event flags and flag summary clear (R92, R232). A tile of a hob that rests
hears no stoke event: its fields read as it left them (spec/19 R651). A disabled tile shows 1 in STATE while a stoke works: the
table of R134 has no code for it (notes/assumptions/64.md). -/
def State.newTile (s : State) (n : Nat) : State :=
  if s.flag (pgTil n) Reg.statDark then s
  else ((s.updTile n Tile.newStoke).wrs (pgTil n) [(Reg.tilState, b2n s.stoke.working), (Reg.tilStateEntry, 0), (Reg.tilEvt, 0)]).wr
    (pgVec n) Reg.vecStkFlags 0

/-- A partition at local cycle 0 (R334, R357; HRT_THR_TCc counts the stoke). -/
def State.newPart (s : State) (n : Nat) : State :=
  (List.range 5).foldl (fun (s : State) c => s.wr (pgHrtx n) (Reg.hrtThrCount c) 0)
    ((s.wr (pgHrt n) Reg.hrtRedFlags 0).wr (pgHrtx n) Reg.hrtThrLastReported (SMap.getD s.hub.thrashed n 0))

/-- The receiver joins a resynchronisation by a START that has not acted yet: its quench waits (R562). -/
def State.joining (s : State) : Bool :=
  decide (s.pstate = 5) && s.stoke.startCmd && decide (s.rd pgStk Reg.stkState = 0)

/-- The stoke unit at a stoke event. Sources that arose after the last commit point fail this stoke (R29); no cycle of it is
theirs, so that none of its own sources precedes them (R754). -/
def StokeUnit.next (u : StokeUnit) (st ended : Nat) (fol keep : Bool) : StokeUnit :=
  let working := decide (st = 1) || decide (st = 2)
  { u with
    phase := .work, period := u.nextPeriod, fails := if working then u.failsNext else [], failAt := 2 ^ 32,
    failsNext := if keep then u.failsNext else [], quenched := working && u.quenchNext, abandoned := working && u.quenchNext,
    quenchHold := working && u.quenchNext && u.quenchHoldNext, quenchNext := keep && u.quenchNext,
    quenchHoldNext := keep && u.quenchHoldNext,
    notice := u.notice.filter (fun w => decide (ended < w)), chosen := none, endClean := true, latchWay := .none,
    latched := false, stopAtCutoff := false, edge := none,
    noEdge := if fol && u.edge.isNone then u.noEdge + 1 else 0, ownStart := false, overruns := [],
    working := working, replaying := decide (st = 2) }

/-- The cause that STK_FAIL shows at the start of a stoke: the first source of a stoke that works; a quench of one that
does not (R43, R754). -/
def StokeUnit.firstCause (u : StokeUnit) (working : Bool) : Option Nat :=
  if working then u.failsNext.head? else u.failsNext.find? (fun c => decide (3 ≤ c))

/-- The registers of the stoke page at a stoke event. -/
def State.newStokeRegs (s : State) (lastUs : Nat) : State :=
  let s1 := s.wrs pgStk [(Reg.stkNum, s.rd pgStk Reg.stkNum + 1), (Reg.stkWork, s.stoke.nextWork), (Reg.stkLastUs, lastUs),
    (Reg.stkStateDampChg, 0), (Reg.stkStateInBoundary, 0), (Reg.stkCycle, 0)]
  let s2 := match s.stoke.edge with
    | some e => s1.wr pgStk Reg.stkSyncPhase (ofInt 32 ((e : Int) - (s.stoke.period : Int)))
    | none => s1
  match s.stoke.firstCause s.running with
  | some c => s2.wr pgStk Reg.stkFailCause c
  | none => s2

/-- What the hearth, the channels and the traffic unit clear at local cycle 0. -/
def State.newHub (s : State) : State :=
  let s1 := (List.range 160).foldl State.newPart s
  { s1 with hub := { s1.hub with thrashed := [], chanUe := [], blockCe := [], bgrStoke := [] } }

/-- STOKE_EVENT: the next stoke starts; `lastUs` is the duration of the one that ended (R50). A working stoke writes
the forwarded ingest blocks kept for it (R540). -/
def execStokeEvent (lastUs : BitVec 32) (s : State) : Host.Outcome State Fault Refusal :=
  answer (if !s.inPhase .cutoff then s
    else
      let st := s.rd pgStk Reg.stkState
      let s0 := { s with boot := { s.boot with upStokes := s.boot.upStokes + 1, upUs := s.boot.upUs + lastUs.toNat } }
      let s1 := (s0.newStokeRegs lastUs.toNat).updStoke (fun u => u.next st (s.rd pgStk Reg.stkWork) s.follower s.joining)
      let s2 := (s1.liveTiles.foldl State.newTile s1).newHub.updPlans (fun p => { p with dmaNext := [], dmaLast := [] })
      let s3 := if s2.stoke.abandoned then s2.setCause pgStk Reg.causeStkQuenchDone else s2
      let s4 := if s3.stoke.working && !s3.stoke.quenched then s3.writeForwarded else s3
      let s5 := if s4.flag pgStk Reg.stkCtrlSyncOutEn then s4.emit (.pulse "STOKE_SYNC_OUT" 32) else s4
      s5.smokeStart)

/-! ## WORK_DEADLINE (R26, R27, R29) -/

/-- Tiles in overrun at B fail the stoke: NTILES, the lowest logical tile, OVERRUN. -/
def State.takeOverruns (s : State) : State :=
  let l := (List.range s.liveTiles.length).filter (fun l => (s.tile (s.physOf l)).overrun)
  match l with
  | [] => s
  | t :: _ => (((s.updStoke (fun u => { u with overruns := l })).wrs pgStk
      [(Reg.stkFailNtiles, min 255 l.length), (Reg.stkFailTile, t)]).setCause pgStk Reg.causeStkOverrun).failWith 1

/-- STK_MARGIN: cycles from the last group exit to B; 0 after an overrun. -/
def State.setMargin (s : State) : State :=
  let last := (s.tiles.map (fun e => e.2.lastExit)).foldl max 0
  s.wr pgStk Reg.stkMargin (if s.stoke.overruns = [] then s.cycleB - last else 0)

/-- WORK_DEADLINE: tiles check their lists, overruns fail the stoke, what is not stored is discarded, unfinished
descriptors make Tender quench, and an unfinished checkpoint copy is void (R26, R29, R468, R589). -/
def execWorkDeadline (s : State) : Host.Outcome State Fault Refusal :=
  answer (if !s.inPhase .work then s
    else
      let s1 := s.atCycle s.cycleB |>.wr pgStk Reg.stkStateInBoundary 1
      let s2 := if s1.stoke.working ∧ !s1.stoke.quenched then s1.liveTiles.foldl State.tileAtB s1 else s1
      let s3 := if s2.stoke.working then s2.takeOverruns.setMargin else s2
      let s4 := if s3.stoke.abandoned then s3.stopTiles else s3.stopTiles.undoneAtB
      let s5 := match s4.plans.ckpt with
        | some c => if c.finished then s4 else s4.voidCkpt
        | none => s4
      s5.toPhase .drain 0)

/-! ## BOUNDARY_WRITEBACK (R26, R28, R342) -/

/-- A scratchpad is cleared to zero; what the copy engine has not written is dropped. -/
def Tile.clearScratch (t : Tile) : Tile :=
  { t with scratch := [], scratchBad := [], scratchDiff := [], scratchStuck := [], copies := [] }

/-- BOUNDARY_WRITEBACK: issued reductions are done, ordered adds close, every L1 is written back and invalid, and
scratchpads are cleared. -/
def execBoundaryWriteback (s : State) : Host.Outcome State Fault Refusal :=
  answer (if !s.inPhase .drain then s
    else
      let s1 := (s.drainReds (s.hub.redAcc.length + s.hub.redSent.length)).ordClose
      let s2 := (s1.tiles.map (fun e => e.1)).foldl State.flushL1 s1
      let cleared : SMap Tile := s2.tiles.map (fun e => (e.1, e.2.clearScratch))
      ({ s2 with tiles := cleared }).toPhase .writeback 64)

/-! ## COMMIT_POINT, DIGEST_FOLD, DIGEST_COMPARE (R26, R542, R544, R546, R709, R717) -/

/-- COMMIT_POINT: the hashes are frozen, records and counters are taken. -/
def execCommitPoint (s : State) : Host.Outcome State Fault Refusal :=
  answer (if !s.inPhase .writeback then s
    else
      let s1 := s.freezeRecords.addV.snapCounters
      ({ s1 with frozen := s1.hashes, hashes := [] }).toPhase .committed 1088)

/-- Word j of the digest of 304 hashes (R544). -/
def digestWord (h : SMap Nat) (j : Nat) : Word64 :=
  (List.range 76).foldl (fun (x : Word64) i =>
    let k := 4 * i + j
    x ^^^ mix (BitVec.ofNat 64 (SMap.getD h k 0) ^^^ mix (BitVec.ofNat 64 k))) 0

/-- DIGEST_FOLD: the digest of the frozen hashes is in KNK_DIG. -/
def execDigestFold (s : State) : Host.Outcome State Fault Refusal :=
  answer (if !s.inPhase .committed then s
    else (List.range 8).foldl (fun (s : State) w =>
      s.wr pgKnk (Reg.knkDigDigest w) (bitsAt (digestWord s.frozen (w / 2)).toNat (32 * (w % 2)) 32)) (s.atCycle (s.cycleB + 1119)))

/-- DIGEST_COMPARE: records are compared; the sender of a resynchronisation may quench the next stoke. -/
def execDigestCompare (s : State) : Host.Outcome State Fault Refusal :=
  answer (if !s.inPhase .committed then s
    else (s.atCycle (s.cycleB + 1100)).compareDigests.resyncQuench)

/-! ## REPLAY_DECISION (R36 to R43, R51, R758) -/

/-- A command that does not act captures code 0x03 (R36, R51). -/
def State.ignoredCmd (s : State) (b : Bool) : State := if b then s.err pgStk 0x03 (Reg.regOff Reg.stkCmdStart) else s

/-- A failed stoke may be replayed (the conditions above R36; R41, R552, R664). -/
def State.replayAllowed (s : State) : Bool :=
  s.replayable && s.flag pgStk Reg.stkCtrlReplayEn &&
  decide (s.rd pgStk Reg.stkStateReplayCnt < s.rd pgStk Reg.stkCtrlReplayMax) &&
  (!s.stoke.quenched || (s.flag pgStk Reg.stkCtrlQuenchAct && !s.stoke.quenchHold))

/-- The next stoke repeats work stoke w. -/
def State.enterReplay (s : State) (w cnt : Nat) : State :=
  ((s.wrs pgStk [(Reg.stkState, 2), (Reg.stkStateReplayCnt, min 3 cnt)]).updStoke (fun u => { u with
    nextWork := w, chosen := some w, latchWay := .none })).setCause pgStk Reg.causeStkReplay

/-- A partner notice turns a clean boundary into a replay: cause 6 (R36, R50), with its broken-guarantee record. -/
def State.mirrorReplay (s : State) (w cyc : Nat) : State :=
  ((s.wrs pgStk [(Reg.stkFailCause, 6), (Reg.stkFailWork, w)]).enterReplay w (s.stoke.countWas + 1)).writeBgr 3 4 7 6 8 0 cyc 0 0

/-- The stoke unit enters HELD: the regions that the failed stoke wrote are undefined, descriptors are abandoned, the pair logic is told (R40, R553, R557, R562, R591). -/
def State.enterHeld (s : State) (w : Nat) : State :=
  let s1 := (((s.loseWork.wr pgStk Reg.stkState 3).updStoke (fun u => { u with nextWork := w, latchWay := .none })).setCause pgStk
    Reg.causeStkHeld).abandonXfers.judgeSplit.resyncHeld
  if s.stoke.fails.contains 5 then s1 else s1.handOff true

/-- The records of a failed stoke: its work stoke, no tile in overrun unless one was; a checkpoint copy is void. -/
def State.noteFailure (s : State) (w : Nat) : State :=
  let s1 := s.wr pgStk Reg.stkFailWork w
  (if s.stoke.overruns = [] then s1.wr pgStk Reg.stkFailNtiles 0 else s1).voidCkpt

/-- A stoke that failed: replay, with a notice to the partner, or HELD (R36, R38). -/
def State.decideFailed (s : State) (w : Nat) : State :=
  let s1 := s.noteFailure w
  if s1.replayAllowed then
    let s2 := s1.enterReplay w (s1.rd pgStk Reg.stkStateReplayCnt + 1)
    if s2.pairEn then s2.knkSend 0x02 [w] [] else s2
  else s1.enterHeld w

/-- A stoke that ended clean: a checkpoint copy stays complete, the last clean work stoke is noted (R468, R757). -/
def State.noteClean (s : State) (w : Nat) : State :=
  ({ s.updPlans (fun p => { p with ckpt := none }) with vague := { s.vague with wrote := [] } } : State).updPair
    (fun p => { p with lastClean := some (max w (p.lastClean.getD 0)) })

/-- Work goes on at work stoke n. -/
def State.enterRun (s : State) (n : Nat) (way : LatchWay) : State :=
  (s.wrs pgStk [(Reg.stkState, 1), (Reg.stkStateReplayCnt, 0)]).updStoke (fun u => { u with nextWork := n, latchWay := way })

/-- START or RESUME acts: STK_RESUME is the next work stoke, a chain starts, the engines read again (R36, R547, R591). -/
def State.enterAt (s : State) (way : LatchWay) : State :=
  let r := s.rd pgStk Reg.stkResume
  ((s.enterRun r way).startChain r).resumeReading

/-- The decision of RUN and REPLAY, without a STOP. -/
def State.decideRunning (s : State) (w : Nat) (failed mirrored : Bool) : State :=
  if failed then s.decideFailed w
  else if mirrored then (s.noteClean w).mirrorReplay w (s.cycleB + 1120)
  else (s.noteClean w).enterRun ((w + 1) % 2 ^ 64) .clean

/-- A STOP acts: IDLE follows at the cutoff; the work stoke advances after a clean stoke only (R758). -/
def State.decideStop (s : State) (w : Nat) (failed : Bool) : State :=
  let s1 := s.updStoke (fun u => { u with stopAtCutoff := true, latchWay := .none, nextWork := if failed then w else (w + 1) % 2 ^ 64 })
  if failed then (s1.noteFailure w).loseWork else s1.noteClean w

/-- The state table of R36. -/
def State.decideNext (s : State) (w : Nat) (failed mirrored : Bool) : State :=
  let u := s.stoke
  match s.rd pgStk Reg.stkState with
  | 0 =>
    let s1 := s.updStoke (fun u => { u with nextWork := w })
    if u.stopCmd then (s1.ignoredCmd u.startCmd).ignoredCmd u.resumeCmd
    else
      let s2 := s1.ignoredCmd u.resumeCmd
      if !u.startCmd then s2 else if s2.stagedOk then s2.enterAt .start else s2.err pgStk 0x3A 0
  | 3 =>
    let s1 := (s.updStoke (fun u => { u with nextWork := w })).ignoredCmd u.startCmd
    if u.stopCmd then (s1.ignoredCmd u.resumeCmd).updStoke (fun u => { u with stopAtCutoff := true })
    else if u.resumeCmd then s1.enterAt .resume else s1
  | _ =>
    let s1 := (s.ignoredCmd u.startCmd).ignoredCmd u.resumeCmd
    if u.stopCmd then s1.decideStop w failed else s1.decideRunning w failed mirrored

/-- A notice for the work stoke that ends is due now: the partner's, or the own one of R549. -/
def State.noticeDue (s : State) (w : Nat) : Bool :=
  s.flag pgStk Reg.stkCtrlPairReplay && (s.stoke.lateNotice || decide (s.stoke.notice = some w))

/-- REPLAY_DECISION: the next state, then the trace group of the stoke (R36, R709). -/
def execReplayDecision (s : State) : Host.Outcome State Fault Refusal :=
  answer (if !s.inPhase .committed then s
    else
      let s0 := s.readyTick
      let w := s0.rd pgStk Reg.stkWork
      let failed := s0.stoke.working && !s0.stoke.fails.isEmpty
      let due := s0.noticeDue w
      let s1 := s0.updStoke (fun u => { u with
        countWas := s0.rd pgStk Reg.stkStateReplayCnt, endClean := !failed, lateNotice := false
        notice := u.notice.filter (fun v => Bool.not (decide (v = w))) })
      let s2 := if due && !s1.stoke.working then s1.err pgStk 0x03 0
        else if decide (s0.stoke.notice = some w) && due && !failed && !s1.replayable then s1.noticeUnfit else s1
      let s3 := (s2.decideNext w failed (due && s1.replayable)).updStoke (fun u => { u with startCmd := false, resumeCmd := false, stopCmd := false })
      (s3.wakeAll.formGroup failed failed).toPhase .decided 1120)

/-! ## LATCH_POINT (R45 to R47, R481) -/

/-- The kinds of pages by number. -/
def kindList : List Kind :=
  [.dev, .stk, .int, .sec, .lcy, .tnd, .trf, .thm, .pwr, .smk, .til, .seq, .mxa, .vec, .tlm, .hrt, .hrtx, .gdc, .flu, .cxp, .far, .knk,
   .hob, .smkc, .fq]

/-- The page and field of a register key. -/
def keyPage (k : Nat) : Page := ⟨kindList.getD (k / 32768 % 64) .dev, k / 32768 / 64⟩
def keyField (k : Nat) : Option Fld := (Reg.fieldsOf (keyPage k).kind).find? (fun f => decide (f.bit = k % 32768))

/-- Shape changes due, with the tiles of hobs that went dark; a wipe stops scrubs (R481 step 1, R507, R610, R649). -/
def State.latchShape (s : State) : State :=
  let s1 := (s.fenceTiles (s.power.fenceHobs.flatMap hobTiles)).updPower (fun p => { p with fenceHobs := [] })
  let s2 := s1.applyShape
  if s2.liveChans ≠ s1.liveChans then s2.stopScrubs else s2

/-- A START whose plan was withdrawn at this point is refused (R477). -/
def State.refuseStart (s : State) : State :=
  if s.stoke.latchWay = .start ∧ !s.stagedOk then
    (((s.wr pgStk Reg.stkState 0).updStoke (fun u => { u with latchWay := .none, nextWork := s.rd pgStk Reg.stkWork })).abandonXfers).err
      pgStk 0x3A 0
  else s

/-- A set of shares whose sum exceeds 64 is not applied (R431). -/
def State.shareCheck (s : State) : State :=
  if 64 < ((List.range 4).map (fun i => s.shadowOf pgTrf (Reg.trfShareW i))).foldl (· + ·) 0 then
    let keys := (List.range 4).map (fun i => regKey pgTrf (Reg.trfShareW i))
    (({ s with shadow := s.shadow.filter (fun e => !keys.contains e.1) }).setCause pgTrf Reg.causeTrfShareBad).err pgTrf 0xA1 0
  else s

/-- One shadow takes effect. -/
def State.applyShadow (s : State) (e : Nat × Nat) : State :=
  match keyField e.1 with
  | some f => s.wr (keyPage e.1) f e.2
  | none => s

/-- A page that had a shadow pending shows the stoke (R45, R62). -/
def State.stampPage (s : State) (k : Nat) : State :=
  s.wrs (keyPage k) [(Reg.statShadowPend, 0), (Reg.latchStk, s.rd pgStk Reg.stkNum)]

/-- Host-written shadows take effect after the plan's values (R47, R60). -/
def State.applyShadows (s : State) : State :=
  let keys := s.shadow.map (fun e => e.1)
  let s1 := s.shareCheck
  keys.foldl State.stampPage { s1.shadow.foldl State.applyShadow s1 with shadow := [] }

/-- Corrected-error buckets leak, and re-arm at half their limit (R503). -/
def State.leakBucket (s : State) (c : Nat) : State :=
  let l := s.rd (pgGdc c) Reg.gdcBucketLevel - s.rd (pgGdc c) Reg.gdcBucketLeak
  let s1 := s.wr (pgGdc c) Reg.gdcBucketLevel l
  if l ≤ 32 * s.rd (pgGdc c) Reg.gdcBucketLimit then { s1 with hub := { s1.hub with disarmed := SMap.del s1.hub.disarmed c } } else s1

/-- STATUS of the stoke record (R595). -/
def State.stokeStatus (s : State) : Nat :=
  if s.stoke.abandoned then 3 else if s.stoke.endClean then 0 else if s.rd pgStk Reg.stkState = 2 then 1 else 2

/-- The period of the next stoke: the active plan's, or STK_PERIOD (R16). -/
def State.fixPeriod (s : State) : State :=
  let p := match s.plans.active with | some p => p.period | none => s.rd pgStk Reg.stkPeriod
  s.updStoke (fun u => { u with nextPeriod := p })

/-- A plan whose shape the module no longer has is refused: a module in a pair hands its work to its partner (spec/00 R8; spec/09 R358;
spec/10 R384, R387; spec/11 R411). -/
def State.handShape (s : State) : State :=
  match s.plans.active with
  | some p => match s.checkShape p true with
    | some e => if e.1 = 0x33 ∨ e.1 = 0x34 then s else s.handOff false
    | none => s
  | none => s

/-- LATCH_POINT. -/
def execLatchPoint (s : State) : Host.Outcome State Fault Refusal :=
  answer (if !s.inPhase .decided then s
    else
      let s1 := s.latchShape.recheckActive.handShape.recheckStaged.refuseStart.trySwap
      let s2 := ((List.range 144).foldl State.leakBucket s1.applyShadows).wakeAll.latchRole.fixPeriod
      let s3 := (s2.checkHreg (s2.rd pgSmk Reg.smkHregRegion)).keepRecord.reportSize
      let s4 := if s3.stoke.working then s3.postStokeRecord (s3.rd pgStk Reg.stkWork) s3.stokeStatus else s3
      s4.toPhase .latched 1152)

/-! ## DIGEST_SEND, TABLE_SWITCH (R467, R537, R545, R548) -/

/-- The record of the stoke that ends. -/
def State.digRec (s : State) : DigRec :=
  let w := s.rd pgStk Reg.stkWork
  { chain := s.pair.chainNo, work := w, dg := (List.range 4).map (fun j => (digestWord s.frozen j).toNat)
    run := (if s.pair.runOf.1 = w then s.pair.runOf.2 + 1 else 1) % 256, isVoid := !s.stoke.endClean, crc := s.recCrc
    faults := s.knk Reg.knkFaults, devStk := s.rd pgStk Reg.stkNum
    hashes := (List.range 304).map (fun i => SMap.getD s.frozen i 0) }

/-- DIGEST_SEND: the record goes into the mirror journal and to the partner, whose record is awaited. -/
def execDigestSend (s : State) : Host.Outcome State Fault Refusal :=
  answer (if !s.inPhase .latched || !s.stoke.working then s
    else
      let d := s.digRec
      let held := s.pair.theirs.any (fun r => decide (r.work = d.work) && !r.isVoid)
      let s1 := (s.atCycle (s.cycleB + 1153)).updPair (fun p => { p with
        journal := (p.journal ++ [d]).drop (p.journal.length + 1 - 65536), runOf := (d.work, d.run)
        awaited := if s.pairEn && !d.isVoid && !held then p.awaited ++ [(d.work, d.devStk)] else p.awaited })
      if s1.pairEn then s1.knkSend 0x01 d.words [] else s1)

/-- TABLE_SWITCH: the next stoke's tables; a checkpoint stoke freezes its dirty maps (R26, R467). -/
def execTableSwitch (s : State) : Host.Outcome State Fault Refusal :=
  answer (if !s.inPhase .latched then s
    else (s.freezeCkpt (s.rd pgStk Reg.stkWork)).toPhase .tabled 1216)

/-! ## MIRROR_REPLAY_CUTOFF, WORK_LIST_PREFETCH (R26, R36, R483, R586, R650, R652, R660) -/

/-- The stoke unit enters IDLE: STOP, or the active plan was withdrawn (R36, R483, R591). -/
def State.enterIdle (s : State) : State :=
  let s1 := (if s.stoke.working && s.stoke.endClean then s.retireSet else s).abandonXfers
  ((s1.wr pgStk Reg.stkState 0).dropPlan).fixPeriod

/-- A notice after the decision turns RUN into REPLAY, unless a plan has latched (R36); a stoke of a plan that is not
replayable is not replayed (R33; notes/assumptions/63.md). -/
def State.lateMirror (s : State) : State :=
  let w := s.rd pgStk Reg.stkWork
  if s.mirrorDue && !s.stoke.latched then (s.updStoke (fun u => { u with notice := none })).mirrorReplay w (s.cycleB + 1536)
  else if decide (s.stoke.notice = some w) && s.stoke.working && s.stoke.endClean && !s.replayable then s.noticeUnfit
  else s

/-- The sets of the next stoke: retired and fixed anew, or the same once more (R34, R586, R588). -/
def State.nextSet (s : State) : State :=
  let s1 := if s.stoke.working && s.stoke.endClean && decide (s.rd pgStk Reg.stkState ≠ 2) then s.retireSet else s
  match s1.rd pgStk Reg.stkState with
  | 1 => s1.fixSet s1.stoke.nextWork
  | 2 => s1.rearmSet
  | _ => s1

/-- MIRROR_REPLAY_CUTOFF. -/
def execMirrorReplayCutoff (s : State) : Host.Outcome State Fault Refusal :=
  answer (if !s.inPhase .tabled then s
    else
      let s1 := if s.stoke.stopAtCutoff then s.enterIdle else s.lateMirror.nextSet
      let s2 := ([1, 2, 3].foldl State.readXfers s1).readCmds.openCracked
      (s2.restsAt s2.stoke.nextWork).toPhase .cutoff 1536)

/-- WORK_LIST_PREFETCH: the fetch of entries changes no state (R26). -/
def execWorkListPrefetch (s : State) : Host.Outcome State Fault Refusal := answer s

end Sys2Proof.Machine
end

