-- ==== Sys2Proof/Machine/MatrixMath.lean ====
section
/-! DEFINITION. The numbers a matrix array forms: exact sums, FP64 by slices, MX alignment, rounded
chains, fragment sums (spec/05 R193, R200; spec/06 R219, R220, R233 to R241). -/
namespace Sys2Proof.Machine

open Sys2Proof.Fp (FVal)

/-! ## Exact sums (R236, R237) -/

/-- A sum of terms: a NaN among them, INVALID, infinities of each sign, and the finite part v × 2^e. -/
structure ExSum where
  nan : Bool
  invalid : Bool
  pinf : Bool
  ninf : Bool
  v : Int
  e : Int
  deriving DecidableEq, Repr

def ExSum.zero : ExSum := ⟨false, false, false, false, 0, 0⟩

/-- Add one exact term; a term `.nan true` is an invalid operation. -/
def ExSum.add (x : ExSum) (t : FVal) : ExSum :=
  match t with
  | .nan bad => { x with nan := true, invalid := x.invalid || bad }
  | .inf neg => if neg then { x with ninf := true } else { x with pinf := true }
  | .num neg m e =>
    let k := min x.e e
    { x with v := x.v * ((2 ^ (x.e - k).toNat : Nat) : Int) + Fp.signed neg (m * 2 ^ (e - k).toNat), e := k }

/-- The exact sum of terms. -/
def exactSum (l : List FVal) : ExSum := l.foldl ExSum.add ExSum.zero

/-- A sum converted once to a format, nearest with ties to even (R236, R237). -/
def ExSum.narrow (f : FpFmt) (x : ExSum) : Nat × Nat :=
  let bad := x.invalid || (x.pinf && x.ninf)
  if x.nan || bad then (Fp.canonNan f, if bad then Fp.flInvalid else 0)
  else if x.pinf then (Fp.infCode f false, 0)
  else if x.ninf then (Fp.infCode f true, 0)
  else Fp.narrowInt f 0 false false x.v x.e

/-- A NaN operand of the array sets no flag (R237). -/
def quietOperand (a : FVal) : FVal := match a with
  | .nan _ => .nan false
  | b => b

/-! ## FP64 by slices (R238 to R241) -/

/-- The exponent of a nonzero finite value, as normalised. -/
def topExp (a : FVal) : Option Int := match a with
  | .num _ m e => if m = 0 then none else some ((bitLength m : Int) - 1 + e)
  | _ => none

/-- The anchor of a row: the exponent of its largest finite element, 0 where it has none (R238). -/
def rowAnchor (l : List FVal) : Int :=
  match l.filterMap topExp with
  | [] => 0
  | x :: xs => xs.foldl max x

/-- The integer q of R239, and whether rounding discarded bits. -/
def sliceInt (n : Nat) (anchor : Int) (a : FVal) : Int × Bool :=
  match a with
  | .num neg m e =>
    let r := Fp.roundTo 0 neg m (e + 61 - anchor) (64 - 8 * (n : Int))
    (Fp.signed neg r.1, r.2)
  | _ => (0, false)

/-- The digits d_0 to d_(n−1) of q: the top digit first. -/
def digits : Nat → Int → List Int
  | 0, _ => []
  | 1, q => [q]
  | k + 2, q =>
    let d := (q + 128) % 256 - 128
    digits (k + 1) ((q - d) / 256) ++ [d]

/-- The slice products kept of one term, as a multiple of 2^(112 − 8(n−1)) (R240). -/
def slicePairs (n : Nat) (d e : List Int) : Int :=
  ((List.range n).flatMap (fun t => (List.range (n - t)).map (fun u =>
    d.getD t 0 * e.getD u 0 * ((2 ^ (8 * (n - 1 - t - u)) : Nat) : Int)))).foldl (· + ·) 0

/-- Slicing of a row discards bits (R239). -/
def sliceAligns (n : Nat) (l : List FVal) : Bool := l.any (fun a => (sliceInt n (rowAnchor l) a).2)

/-! ## MX operands (R220, R234) -/

/-- The row anchor of scale codes: the largest but 0xFF. -/
def mxAnchor (scales : List Nat) : Nat := (scales.filter (· ≠ 255)).foldl max 0

/-- An element of a block of scale code s in a row of anchor x, as it enters the array, and whether bits
were lost. A scale code of 0xFF makes it an invalid NaN (R237). -/
def mxElem (f : FpFmt) (x s code : Nat) : FVal × Bool :=
  if s = 255 then (.nan true, false)
  else match Fp.decode f code with
    | .num neg m e =>
      let q : Int := 1 - (f.bias : Int) - f.fbits - 20
      let r := Fp.roundTo 0 neg m (e - ((x - s : Nat) : Int)) q
      (.num neg r.1 q, r.2)
    | v => (quietOperand v, false)

/-! ## Operand rows -/

/-- TYPE is an MX type (R220). -/
def isMx (t : Nat) : Bool := 10 ≤ t && t ≤ 14

/-- The unit of a type's elements as they enter the array, as a power of two: that of the smallest subnormal, 2⁻²⁰ of it for an
MX type (R234); a product of two elements is a multiple of the unit squared, the weight of bit 0 in R233. -/
def unitExp (t : Nat) : Int :=
  if t = 15 then 0
  else (1 : Int) - (tyFmt t).bias - (tyFmt t).fbits - (if isMx t then 20 else 0)

/-- An operand element as it enters the array: its value, which says what is not finite, and what cells multiply: the n digits
of an F64 element (R239), one integer in the unit of its type otherwise. -/
structure Opd where
  val : FVal
  digs : List Int
  deriving DecidableEq, Repr

/-- The integer multiple of 2^u that a finite value is. -/
def unitsOf (u : Int) (a : FVal) : Int := match a with
  | .num neg m e => Fp.signed neg (m * 2 ^ (e - u).toNat)
  | _ => 0

/-- The exact product of two elements, in units of the accumulator's bit 0 (R233, R240). -/
def Opd.mul (a b : Opd) : Int := slicePairs a.digs.length a.digs b.digs

/-- The magnitude of the product of two elements. -/
def Opd.mag (a b : Opd) : Nat := (a.mul b).natAbs

/-- A row of operand elements as they enter the array, its poison, whether aligning it lost bits, and the exponent that with
that of the other operand's row gives the weight of an accumulator's bit 0. -/
structure OpRow where
  opds : List Opd
  bad : Bool
  lost : Bool
  exp : Int
  deriving DecidableEq, Repr

/-- The element codes of a row of n elements of w bits (R219). -/
def rowCodes (w n x : Nat) : List Nat := (List.range n).map (fun e => bitsAt x (w * e) w)

/-- The value of an element code of a type that is not MX. -/
def codeVal (t c : Nat) : FVal :=
  if t = 15 then
    let v := toSigned 8 c
    .num (decide (v < 0)) v.natAbs 0
  else quietOperand (Fp.decode (tyFmt t) c)

/-- A row of values by n slices: the weight of an accumulator's bit 0 is 2^(EA + EB − 2 − 8n) (R233, R239). -/
def slicedRow (n : Nat) (vals : List FVal) (bad : Bool) : OpRow :=
  let anchor := rowAnchor vals
  { opds := vals.map (fun v => { val := v, digs := digits n (sliceInt n anchor v).1 })
    bad := bad, lost := sliceAligns n vals, exp := anchor - 1 - 4 * (n : Int) }

/-- A row of a type that is not MX: codes of TYPE t. -/
def plainRow (t slices : Nat) (codes : List Nat) (bad : Bool) : OpRow :=
  let vals := codes.map (codeVal t)
  if t = 4 then slicedRow slices vals bad
  else
    { opds := vals.map (fun v => { val := v, digs := [unitsOf (unitExp t) v] })
      bad := bad, lost := false, exp := unitExp t }

/-- A row of an MX type with its scale codes: bit 0 of an accumulator weighs 2^(Xa + Xb − 254) of the unit squared (R233, R234). -/
def mxRow (t : Nat) (codes scales : List Nat) (bad : Bool) : OpRow :=
  let x := mxAnchor scales
  let es := (List.range codes.length).map (fun k => mxElem (tyFmt t) x (scales.getD (k / 32) 255) (codes.getD k 0))
  { opds := es.map (fun e => { val := e.1, digs := [unitsOf (unitExp t) e.1] })
    bad := bad, lost := es.any (fun e => e.2), exp := unitExp t + x - 127 }

/-! ## Data cells (R193, R200, R233) -/

/-- What a data cell holds when its accumulator is final: a fixed-point sum in units of bit 0, or the code of a binary32
accumulator; what was not finite; the flags raised; the sign of a single product. -/
structure Cell where
  acc : Int
  nan : Bool
  invalid : Bool
  pinf : Bool
  ninf : Bool
  fl : Nat
  neg : Bool
  deriving DecidableEq, Repr

def Cell.zero : Cell := ⟨0, false, false, false, false, 0, false⟩

/-- Add the product of two elements. -/
def Cell.addMul (x : Cell) (a b : Opd) : Cell :=
  match Fp.prodVal a.val b.val with
  | .nan bad => { x with nan := true, invalid := x.invalid || bad }
  | .inf neg => if neg then { x with ninf := true } else { x with pinf := true }
  | .num neg _ _ => { x with acc := x.acc + a.mul b, neg := neg }

/-- The exact sum of the products of two rows. -/
def Cell.dot (a b : List Opd) : Cell := (a.zip b).foldl (fun x p => x.addMul p.1 p.2) Cell.zero

/-- A cell as a sum whose bit 0 weighs 2^e. -/
def Cell.sum (x : Cell) (e : Int) : ExSum := ⟨x.nan, x.invalid, x.pinf, x.ninf, x.acc, e⟩

/-- A single product as a value (R193). -/
def Cell.prod (x : Cell) (e : Int) : FVal :=
  if x.nan then .nan x.invalid else if x.pinf then .inf false else if x.ninf then .inf true
  else .num (if x.acc = 0 then x.neg else decide (x.acc < 0)) x.acc.natAbs e

/-- The F32 descriptor chain: one fused multiply-add per term in K order from +0 (R200). -/
def fmaChain (a b : List FVal) : Nat × Nat :=
  (a.zip b).foldl (fun acc p =>
    let r := Fp.fmaVal Fp.f32 0 false p.1 p.2 (quietOperand (Fp.decode Fp.f32 acc.1))
    (r.1, acc.2 ||| r.2)) (0, 0)

/-- The F16 and BF16 descriptor chain: four products summed exactly, added with one rounding (R200). -/
def quadChain : Nat → List FVal → List FVal → Nat × Nat → Nat × Nat
  | 0, _, _, acc => acc
  | k + 1, a, b, acc =>
    let terms := ((a.take 4).zip (b.take 4)).map (fun p => Fp.prodVal p.1 p.2)
    let r := ((exactSum terms).add (quietOperand (Fp.decode Fp.f32 acc.1))).narrow Fp.f32
    quadChain k (a.drop 4) (b.drop 4) (r.1, acc.2 ||| r.2)

/-- The data cell of a row of A and a row of Bᵀ on the descriptor path. -/
def descCell (t : Nat) (a b : OpRow) : Cell :=
  let vals := fun (r : OpRow) => r.opds.map (fun o => o.val)
  let code := fun (c : Nat × Nat) => { Cell.zero with acc := c.1, fl := c.2 }
  if t = 5 then code (fmaChain (vals a) (vals b))
  else if t = 6 ∨ t = 7 then code (quadChain (a.opds.length / 4) (vals a) (vals b) (0, 0))
  else Cell.dot a.opds b.opds

/-! ## Output elements (R193, R236, R237) -/

/-- An output element: its code and its flags. -/
structure Elt where
  code : Nat
  fl : Nat
  deriving DecidableEq, Repr

/-- A rounded accumulator plus C. -/
def chainOut (x : Cell) (c : Nat) : Elt :=
  let r := Fp.addVal Fp.f32 0 false (quietOperand (Fp.decode Fp.f32 x.acc.toNat)) (quietOperand (Fp.decode Fp.f32 c))
  { code := r.1, fl := x.fl ||| r.2 }

/-- An exact accumulator plus C, converted to F32 or F64 (R236). -/
def exactOut (f : FpFmt) (s : ExSum) (c : Nat) : Elt :=
  let r := (s.add (quietOperand (Fp.decode f c))).narrow f
  { code := r.1, fl := r.2 }

/-- An I8 accumulator plus C, wrapped or saturated (R236). -/
def intOut (acc : Int) (sat : Bool) (c : Nat) : Elt :=
  let r := Fp.wrapInt 32 true sat (acc + toSigned 32 c)
  { code := r.1, fl := r.2 }

/-- An output element of the descriptor path from its cell, the weight of the cell's bit 0, and C. -/
def descOut (t : Nat) (sat : Bool) (e : Int) (x : Cell) (c : Nat) : Elt :=
  if t = 4 then exactOut Fp.f64 (x.sum e) c
  else if t = 5 ∨ t = 6 ∨ t = 7 then chainOut x c
  else if t = 15 then intOut x.acc sat c
  else exactOut Fp.f32 (x.sum e) c

/-- The cell of 16 terms as one sum: the drain adders of an F64 fragment add exactly (R193). -/
def Cell.join (l : List Cell) : Cell :=
  l.foldl (fun x y => { x with
    acc := x.acc + y.acc, nan := x.nan || y.nan, invalid := x.invalid || y.invalid, pinf := x.pinf || y.pinf,
    ninf := x.ninf || y.ninf }) Cell.zero

/-- A fragment's output element from the cells of its 16 terms and the weight of their bit 0 (R193). -/
def fragOut (t : Nat) (e : Int) (cells : List Cell) (c : Nat) : Elt :=
  if t = 4 then exactOut Fp.f64 ((Cell.join cells).sum e) c
  else
    let bad := cells.any (fun x => x.nan && x.invalid)
    let add := fun (x y : FVal × Nat) =>
      let r := Fp.addVal Fp.f32 0 false x.1 y.1
      (quietOperand (Fp.decode Fp.f32 r.1), x.2 ||| y.2 ||| r.2)
    let p := fun k => (quietOperand ((cells.getD k Cell.zero).prod e), 0)
    let h := fun k => add (add (p (4 * k)) (p (4 * k + 1))) (add (p (4 * k + 2)) (p (4 * k + 3)))
    let c0 : FVal × Nat := (quietOperand (Fp.decode Fp.f32 c), 0)
    let d3 := add (add (add c0 (h 0)) (h 1)) (h 2)
    let r := Fp.addVal Fp.f32 0 false d3.1 (h 3).1
    { code := r.1, fl := d3.2 ||| (h 3).2 ||| r.2 ||| (if bad then Fp.flInvalid else 0) }

end Sys2Proof.Machine
end

