-- ==== Sys2Proof/Machine/MatrixCheck.lean ====
section
/-! DEFINITION. What proves the results of a matrix array: the feeder entries and their CRC, the checksum row, column and corner,
the comparison of each check (spec/05 R172, R175 to R178, R192, R200 to R206; spec/14 R490). -/
namespace Sys2Proof.Machine

open Sys2Proof.Fp (FVal)

/-! ## Feeder entries (R175 to R178) -/

/-- K elements carried by one entry (R173). -/
def kstep (t : Nat) : Nat :=
  if t = 4 then 8 else if t = 5 then 16 else if t = 6 ∨ t = 7 then 32 else if t = 14 then 128 else 64

/-- Cycles a data cell takes for the elements of one entry (R173). -/
def stepCycles (t slices : Nat) : Nat :=
  if t = 4 then slices * (slices + 1) / 2 else if t = 5 then 16 else 8

/-- CRC-32C over DATA and then SCALE (R176, R490). -/
def feedCrc (data : BitVec 512) (scale : BitVec 32) : BitVec 32 :=
  BitVec.ofNat 32 (Hash.crc32c (leBytes 64 data.toNat ++ leBytes 4 scale.toNat))

/-- The entry still has the CRC it was written with. -/
def FeedEntry.sound (e : FeedEntry) : Bool := e.crc == feedCrc e.data e.scale

/-- The entries of an operand row for a pass: its bytes and its scale bytes, with their poison. -/
def feedEntries (t pass k : Nat) (row scales : List (Byte × Bool)) : List FeedEntry :=
  let n := k / kstep t
  let len := kstep t * tyWidth t / 8
  let blocks := kstep t / 32
  (List.range n).map (fun e =>
    let d := (row.drop (len * e)).take len
    let c := (scales.drop (blocks * e)).take blocks
    let data := BitVec.ofNat 512 (leNat (d.map (fun x => x.1)))
    let scale := BitVec.ofNat 32 (leNat (c.map (fun x => x.1)))
    { data := data, scale := scale, crc := feedCrc data scale, type := BitVec.ofNat 4 t, pass := BitVec.ofNat 4 pass
      last := e + 1 = n, poison := (d ++ c).any (fun x => x.2) })

/-- The entries of a checksum feeder. Its operands are the exact sums of what the other feeders hold, which the spec gives no
place in DATA; they are formed from those entries, and this entry stands for its CRC, which is linear, and its POISON bit
(notes/assumptions/67.md). -/
def sumEntries (t pass k : Nat) : List FeedEntry :=
  let n := k / kstep t
  (List.range n).map (fun e =>
    { data := 0, scale := 0, crc := feedCrc 0 0, type := BitVec.ofNat 4 t, pass := BitVec.ofNat 4 pass, last := e + 1 = n, poison := false })

/-- Invert a bit of an entry, by the numbers of R175. -/
def flipEntry (e : FeedEntry) (b : Nat) : FeedEntry :=
  if b < 512 then { e with data := e.data ^^^ (1#512 <<< b) }
  else if b < 544 then { e with scale := e.scale ^^^ (1#32 <<< (b - 512)) }
  else if b < 576 then { e with crc := e.crc ^^^ (1#32 <<< (b - 544)) }
  else if b < 580 then { e with type := e.type ^^^ (1#4 <<< (b - 576)) }
  else if b < 584 then { e with pass := e.pass ^^^ (1#4 <<< (b - 580)) }
  else if b = 584 then { e with last := !e.last }
  else { e with poison := !e.poison }

/-- The feeders of a pass: by number, the entries that are written to each. -/
abbrev Feeds := SMap (List FeedEntry)

def flipFeed (f : Feeds) (u : Fin 131 × Nat × Fin 586) : Feeds :=
  f.map (fun q => if q.1 = u.1.val then (q.1, q.2.modify u.2.1 (fun e => flipEntry e u.2.2)) else q)

/-- The delay of a feeder's skew stage (R177). -/
def skewOf (feeder : Nat) : Nat := if feeder < 66 then feeder else feeder - 66

/-- Cycles, from the pass's first entry, at which entries with a CRC mismatch leave their skew stage: entry e of a feeder leaves
after the steps of the entries before it and its delay (R177, R178). -/
def badCycles (per : Nat) (f : Feeds) : List Nat :=
  f.flatMap (fun q => q.2.zipIdx.filterMap (fun e => if e.1.sound then none else some (e.2 * per + skewOf q.1)))

/-- What the queues of 32 entries hold when a pass is aborted at a cycle. -/
def leftInFeeds (per cyc : Nat) (f : Feeds) : Feeds :=
  f.map (fun q => (q.1, (q.2.drop ((cyc + per - skewOf q.1) / per)).take 32))

/-- The operand row that a feeder's entries carry. -/
def feedRow (t slices : Nat) (l : List FeedEntry) : OpRow :=
  let codes := l.flatMap (fun e => rowCodes (tyWidth t) (kstep t) e.data.toNat)
  let bad := l.any (fun e => e.poison)
  if isMx t then
    mxRow t codes (l.flatMap (fun e => (List.range (kstep t / 32)).map (fun b => bitsAt e.scale.toNat (8 * b) 8))) bad
  else plainRow t slices codes bad

/-! ## The array after its last step (R172, R192) -/

/-- What the cells of the array hold: accumulators in fixed point, binary32 accumulators, or exact products (R193, R200, R233). -/
inductive CellKind where
  | fixed
  | code
  | product
  deriving DecidableEq, Repr

def descKind (t : Nat) : CellKind := if t = 5 ∨ t = 6 ∨ t = 7 then .code else .fixed
def fragKind (t : Nat) : CellKind := if t = 4 then .fixed else .product

/-- The width of a data cell's accumulator (R233). For what R233 does not list, binary32 accumulators have 32 bits, and exact
products more than any product needs (notes/assumptions/67.md). -/
def accWidth (k : CellKind) (t : Nat) : Nat := match k with
  | .code => 32
  | .product => 1024
  | .fixed => if t = 15 then 32 else if t = 8 then 56 else if t = 9 then 88 else if t = 4 then 96 else 128

/-- A checksum cell's accumulator: 24 bits wider; exact in rounded modes (notes/assumptions/67.md). -/
def sumWidth (k : CellKind) (t : Nat) : Nat := match k with
  | .fixed => accWidth k t + 24
  | _ => 1024

/-- A checksum cell: its sum, and in rounded modes its magnitude sum, both in units of the product's bit 0. -/
structure SumCell where
  s : Int
  t : Nat
  deriving DecidableEq, Repr

/-- The cells of the array when every accumulator is final: 64 × 64 data cells by logical row, the checksum row by column, the
checksum column by row, and the corner. -/
structure Grid where
  cells : List (List Cell)
  row : List SumCell
  col : List SumCell
  corner : SumCell
  deriving DecidableEq, Repr

/-- Sums of operand elements: the digits of Σ a, and Σ |a| for the magnitude sums. -/
structure SumOpd where
  digs : List Int
  mag : Nat
  deriving DecidableEq, Repr

def SumOpd.add (x : SumOpd) (o : Opd) : SumOpd :=
  { digs := (List.range (max x.digs.length o.digs.length)).map (fun i => x.digs.getD i 0 + o.digs.getD i 0)
    mag := x.mag + (o.digs.headD 0).natAbs }

/-- The sums over rows, term by term. -/
def sumRows (rows : List (List Opd)) (k : Nat) : List SumOpd :=
  (List.range k).map (fun j => rows.foldl (fun x r => x.add (r.getD j ⟨.num false 0 0, []⟩)) ⟨[], 0⟩)

def SumOpd.ofOpd (o : Opd) : SumOpd := { digs := o.digs, mag := (o.digs.headD 0).natAbs }

/-- A checksum cell over terms: Σ a × b, and Σ |a × b| over the terms of the data cells it checks. -/
def sumCell (l : List (SumOpd × SumOpd)) : SumCell :=
  l.foldl (fun x p => { s := x.s + slicePairs (max p.1.digs.length p.2.digs.length) p.1.digs p.2.digs, t := x.t + p.1.mag * p.2.mag }) ⟨0, 0⟩

/-- The array on the descriptor path: 64 rows of A, 64 rows of Bᵀ (Checksums). -/
def descGrid (t : Nat) (a b : List OpRow) : Grid :=
  let k := (a.headD ⟨[], false, false, 0⟩).opds.length
  let sa := sumRows (a.map (fun r => r.opds)) k
  let sb := sumRows (b.map (fun r => r.opds)) k
  let of := fun (r : OpRow) => r.opds.map SumOpd.ofOpd
  { cells := a.map (fun x => b.map (fun y => descCell t x y))
    row := b.map (fun y => sumCell (sa.zip (of y)))
    col := a.map (fun x => sumCell ((of x).zip sb))
    corner := sumCell (sa.zip sb) }

/-- The array on the fragment path: the product of output (i, j) and term k = 4a + c in row 4i + a, column 4j + c (R192). `a` holds
the 16 rows of A, `b` the 16 columns of B. -/
def fragGrid (a b : List OpRow) : Grid :=
  let none : Opd := ⟨.num false 0 0, []⟩
  let at_ := fun (l : List OpRow) (r k : Nat) => ((l.map (fun x => x.opds)).getD r []).getD k none
  let sa := sumRows (a.map (fun r => r.opds)) 16
  let sb := sumRows (b.map (fun r => r.opds)) 16
  let s := fun (l : List SumOpd) (k : Nat) => l.getD k ⟨[], 0⟩
  { cells := (List.range 64).map (fun p => (List.range 64).map (fun q =>
      let k := 4 * (p % 4) + q % 4
      Cell.zero.addMul (at_ a (p / 4) k) (at_ b (q / 4) k)))
    row := (List.range 64).map (fun q => sumCell ((List.range 4).map (fun x =>
      (s sa (4 * x + q % 4), SumOpd.ofOpd (at_ b (q / 4) (4 * x + q % 4))))))
    col := (List.range 64).map (fun p => sumCell ((List.range 4).map (fun c =>
      (SumOpd.ofOpd (at_ a (p / 4) (4 * (p % 4) + c)), s sb (4 * (p % 4) + c)))))
    corner := sumCell (sa.zip sb) }

/-! ## Faults of cells (R206, R217) -/

/-- Invert bits of an accumulator of a width, two's complement; a width of 32 that holds a code is not signed. -/
def flipAcc (w : Nat) (signed : Bool) (acc : Int) (bits : Nat) : Int :=
  let x : BitVec w := BitVec.ofInt w acc ^^^ BitVec.ofNat w bits
  if signed then x.toInt else x.toNat

/-- Invert bits of the accumulator at a logical row and column; 64 is the checksum row or column. -/
def Grid.flip (k : CellKind) (t : Nat) (g : Grid) (r c bits : Nat) : Grid :=
  let sum := fun (x : SumCell) => { x with s := flipAcc (sumWidth k t) true x.s bits }
  if r < 64 ∧ c < 64 then
    { g with cells := g.cells.modify r (fun l => l.modify c (fun x => { x with acc := flipAcc (accWidth k t) (k != .code) x.acc bits })) }
  else if c < 64 then { g with row := g.row.modify c sum }
  else if r < 64 then { g with col := g.col.modify r sum }
  else { g with corner := sum g.corner }

/-! ## The checks (R200, R201) -/

/-- The rule of a mode: exact sums, or the bound with s roundings. -/
inductive CheckRule where
  | exact
  | bound (s : Nat)
  deriving DecidableEq, Repr

def descRule (t k : Nat) : CheckRule := if t = 5 then .bound k else if t = 6 ∨ t = 7 then .bound (k / 4) else .exact
def fragRule (t : Nat) : CheckRule := if t = 4 then .exact else .bound 1

/-- In rounded modes values are compared in units of 2⁻²⁹⁸, which divides every product and every binary32 value. -/
def toGrain (t : Nat) (v : Int) : Int := v * ((2 ^ (298 + 2 * unitExp t).toNat : Nat) : Int)

/-- A data cell's value as its checks take it. -/
def Cell.value (k : CellKind) (t : Nat) (x : Cell) : Int := match k with
  | .fixed => x.acc
  | .product => toGrain t x.acc
  | .code => unitsOf (-298) (Fp.decode Fp.f32 x.acc.toNat)

def SumCell.value (r : CheckRule) (t : Nat) (x : SumCell) : Int := match r with
  | .exact => x.s
  | .bound _ => toGrain t x.s

/-- T: the magnitude sum rounded upward to binary32, in the same units; none when it is not finite (notes/assumptions/67.md). -/
def SumCell.mag (t : Nat) (x : SumCell) : Option Nat :=
  match Fp.decode Fp.f32 (Fp.narrow Fp.f32 2 false false x.t (2 * unitExp t)).1 with
  | .num _ m e => some (m * 2 ^ (e + 298).toNat)
  | _ => none

/-- A NaN or an infinity. -/
def Cell.nonfinite (k : CellKind) (x : Cell) : Bool := match k with
  | .code => (match Fp.decode Fp.f32 x.acc.toNat with | .num _ _ _ => false | _ => true)
  | _ => x.nan || x.pinf || x.ninf

/-- A check: skipped, or held or failed. -/
inductive Checked where
  | skipped
  | held
  | failed
  deriving DecidableEq, Repr

/-- Compare the sum of data values with a checksum cell: equal, or |D − S| ≤ (s + 2) × 2⁻²⁴ × T + 2⁻¹²⁶ (R200); skipped where a
value is not finite (R201). -/
def compareSum (r : CheckRule) (t : Nat) (nonfinite : Bool) (d : Int) (x : SumCell) : Checked :=
  if nonfinite then .skipped
  else match r with
    | .exact => if d = x.s then .held else .failed
    | .bound s => match x.mag t with
      | none => .skipped
      | some m => if (d - x.value r t).natAbs * 2 ^ 24 ≤ (s + 2) * m + 2 ^ 196 then .held else .failed

/-- What the checks of an attempt show: the failing logical data rows, the lowest failing column (64 for the corner), whether the
corner fails against the checksum row, and the checks skipped. -/
structure Verdict where
  rows : List Nat
  col : Option Nat
  corner : Bool
  skips : Nat
  deriving DecidableEq, Repr

def Verdict.ok (v : Verdict) : Bool := v.rows == [] && v.col == none

/-- Total of integers. -/
def total (l : List Int) : Int := l.foldl (· + ·) 0

/-- The checks of the array; `drains` are the data rows whose drain adders or conversions differed (R202). The corner is compared
with the sums of the checksum row and of the checksum column where all are finite; R201 counts row and column checks only
(notes/assumptions/67.md). -/
def Grid.verdict (k : CellKind) (r : CheckRule) (t : Nat) (g : Grid) (drains : List Nat) : Verdict :=
  let nf := g.cells.map (fun l => l.map (fun x => x.nonfinite k))
  let rows := (g.cells.zip g.col).map (fun e => compareSum r t (e.1.any (fun x => x.nonfinite k)) (total (e.1.map (fun x => x.value k t))) e.2)
  let cols := g.row.zipIdx.map (fun e => compareSum r t (nf.any (fun l => l.getD e.2 false))
    (total (g.cells.map (fun l => (l.getD e.2 Cell.zero).value k t))) e.1)
  let special := g.cells.any (fun l => l.any (fun x => x.nan || x.pinf || x.ninf))
  let corner := fun (l : List SumCell) => compareSum r t special (total (l.map (fun x => x.value r t))) g.corner == .failed
  let failing := fun (l : List Checked) => (l.zipIdx.filter (fun e => e.1 == .failed)).map (fun e => e.2)
  { rows := (List.range 64).filter (fun q => (failing rows).contains q || drains.contains q)
    col := match failing cols with
      | c :: _ => some c
      | [] => if corner g.row || corner g.col then some 64 else none
    corner := corner g.row
    skips := ((rows ++ cols).filter (fun c => c == .skipped)).length }

end Sys2Proof.Machine
end

