-- ==== Sys2Proof/Machine/Matrix.lean ====
section
/-! DEFINITION. The matrix arrays: descriptor and fragment instructions, releases, retries, the spare
row, retirement, the finished-tile queue (spec/05; spec/04 R159, R160, R750). -/
namespace Sys2Proof

/-! ## Fields of format X (R138) -/

def Issue.xFD (i : Issue) : Nat := i.bitsOf 38 6
def Issue.xFA (i : Issue) : Nat := i.bitsOf 32 6
def Issue.xFB (i : Issue) : Nat := i.bitsOf 26 6
def Issue.xFC (i : Issue) : Nat := i.bitsOf 20 6
def Issue.xSlices (i : Issue) : Nat := i.bitsOf 16 4
def Issue.xHint (i : Issue) : Nat := i.bitsOf 21 2
def Issue.xGlob (i : Issue) : Bool := i.bitsOf 20 1 = 1

end Sys2Proof

namespace Sys2Proof.Machine

open Sys2Proof.Fp (FVal)

/-- Change a tile's matrix array. -/
def State.updMx (s : State) (n : Nat) (f : MxArray → MxArray) : State :=
  s.updTile n (fun t => { t with mx := f t.mx })

/-- The array takes instructions: enabled and not retired (R182, R213). -/
def State.mxUp (s : State) (n : Nat) : Bool :=
  s.flag (pgMxa n) Reg.ctrlEnable && !(s.tile n).mx.retired

/-- A slice count of an instruction, 0 naming the plan default (R241). -/
def State.slicesOf (s : State) (n k : Nat) : Nat := if k = 0 then s.rd (pgMxa n) Reg.mxaStateSlices else k
def slicesOk (t k : Nat) : Bool := if t = 4 then k = 0 || (4 ≤ k && k ≤ 9) else k = 0

/-! ## Fragments: layout (R159, R191) -/

/-- Registers of an input fragment and of an accumulator. -/
def fragRegs (t : Nat) : Nat := if t = 4 then 16 else if t = 5 then 8 else 4
def accType (t : Nat) : Nat := if t = 4 then 4 else 5
/-- Bytes of an element. -/
def elBytes (t : Nat) : Nat := tyWidth t / 8

/-- The element at a row and column of a fragment of TYPE t whose first register is r, with its poison. -/
def Ctx.fragAt (x : Ctx) (t r row col : Nat) : Nat × Bool :=
  let j := 2 * row + col / 8
  let m := col % 8
  if t = 4 then (x.vreg (r + 2 * m) j + x.vreg (r + 2 * m + 1) j * 2 ^ 32,
    x.vpois (r + 2 * m) j != 0 || x.vpois (r + 2 * m + 1) j != 0)
  else if t = 5 then (x.vreg (r + m) j, x.vpois (r + m) j != 0)
  else (bitsAt (x.vreg (r + m / 2) j) (16 * (m % 2)) 16, bitsAt (x.vpois (r + m / 2) j) (2 * (m % 2)) 2 != 0)

/-- The accesses of MXF.LD and MXF.ST: registers of FD by lane, with their addresses (R160, R750). -/
def fragAccs (t fd base stride : Nat) : List LoadAcc :=
  let es := elBytes t
  let sz := if t = 4 then 8 else 4
  let per := if t = 4 then 2 else 1
  (List.range 32).flatMap (fun j => (List.range (fragRegs t / per)).map (fun k =>
    { reg := fd + per * k, lane := j, size := sz
      addr := (base + j / 2 * stride + 8 * (j % 2) * es + k * sz) % 2 ^ 64 }))

/-! ## Fragment instructions -/

/-- Fields every MXF instruction checks (R138, R159, R213). -/
def State.mxfOk (s : State) (i : Issue) : Bool :=
  4 ≤ i.type && i.type ≤ 7 && i.pq = 0 && !i.pneg && i.bitsOf 0 16 = 0 && s.mxUp i.tile

/-- The frame of MXF instructions: the exception of the accesses, then FRAG_PARTIAL unless all 32 lanes
are active (R113, R148); the group then holds fragments. DESIGN CHOICE (notes/assumptions/64.md): an access fault of one row of
MXF.LD or MXF.ST, to which the spec ties no lane, is captured with all enabled lanes. -/
def State.mxfIssue (s : State) (c : Instr) (i : Issue) (legal : Bool) (fault : State → Ctx → Option Nat)
    (body : State → Ctx → State) : State :=
  s.issueAs c i (fun _ => s.mxfOk i && legal) (fun s x u en =>
    match fault s x with
    | some code => s.raiseAt i x u code en
    | none =>
      if en ≠ BitVec.allOnes 32 then s.raiseAt i x u 0x18 en
      else body ((s.spoil i).updCtx i.tile i.ctx (fun x => { x with frag := true })) x)

/-- Row starts of MXF.LD and MXF.ST. -/
def mxfRows (i : Issue) (x : Ctx) : List Nat :=
  (List.range 16).map (fun r => (x.sreg i.xFA + r * x.sreg i.xFB) % 2 ^ 64)

/-- The exception of a fragment access (R154, R160). -/
def State.mxfFault (s : State) (i : Issue) (write : Bool) (x : Ctx) : Option Nat :=
  let len := 16 * elBytes i.type
  let l := (mxfRows i x).map (fun a => s.accessFault i.tile i.xGlob a len write)
  if l.any (· == some 0x11) then some 0x11
  else if l.any (· == some 0x12) then some 0x12 else none

def mxfMemLegal (i : Issue) : Bool :=
  i.xFD % fragRegs i.type = 0 && i.xSlices = 0 && i.bitsOf 23 3 = 0 && i.xHint ≤ 2

/-- MXF.LD (R149, R160, R750). -/
def execMxfLd (i : Issue) (s : State) : Host.Outcome State Fault Refusal :=
  answer (s.mxfIssue (.mxfLd i) i (mxfMemLegal i) (fun s x => s.mxfFault i false x) (fun s x =>
    let accs := fragAccs i.type i.xFD (x.sreg i.xFA) (x.sreg i.xFB)
    if i.xGlob then s.loadGlobal i i.xHint accs else (s.loadScratch i accs).past i))

/-- The value an access of MXF.ST stores. -/
def fragStoreVal (i : Issue) (x : Ctx) (a : LoadAcc) : Nat × Bool :=
  if a.size = 8 then (x.vreg a.reg a.lane + x.vreg (a.reg + 1) a.lane * 2 ^ 32,
    x.vpois a.reg a.lane != 0 || x.vpois (a.reg + 1) a.lane != 0 || i.parity)
  else (x.vreg a.reg a.lane, x.vpois a.reg a.lane != 0 || i.parity)

/-- MXF.ST (R149, R160, R293, R750). -/
def execMxfSt (i : Issue) (s : State) : Host.Outcome State Fault Refusal :=
  answer (s.mxfIssue (.mxfSt i) i (mxfMemLegal i) (fun s x => s.mxfFault i true x) (fun s x =>
    let accs := fragAccs i.type i.xFD (x.sreg i.xFA) (x.sreg i.xFB)
    let addrs := accs.map (fun a => a.addr)
    if i.xGlob then
      let s1 := s.checkStore i.tile i.ups addrs
      if s1.split i.tile < 4 && s1.dirtyWait i.tile addrs then s1.storeWaits i.tile
      else (accs.foldl (fun s a =>
        let v := fragStoreVal i x a
        s.globalStore i.tile ((s1.tile i.tile).l1Fresh addrs) a.addr a.size v.1 v.2 i.xHint) (s1.storeHits i.tile addrs)).past i
    else
      (accs.foldl (fun s a =>
        let v := fragStoreVal i x a
        s.scratchStore i.tile a.addr (leBytes a.size v.1) v.2)
        ((s.checkLines i.tile false i.ups addrs).bump (pgTlm i.tile) Reg.tlmConflictCycles
          (bankExtra addrs))).past i))

/-- Two register blocks overlap. -/
def blocksMeet (a ka b kb : Nat) : Bool := decide (a < b + kb) && decide (b < a + ka)

/-- Alignment and overlap of the blocks of MXF.MMA (R159, R160). -/
def mmaLegal (i : Issue) : Bool :=
  let k := fragRegs i.type
  let c := if i.type = 4 then 16 else 8
  i.xFA % k = 0 && i.xFB % k = 0 && i.xFC % c = 0 && i.xFD % c = 0 && slicesOk i.type i.xSlices &&
  !blocksMeet i.xFD c i.xFA k && !blocksMeet i.xFD c i.xFB k && !blocksMeet i.xFC c i.xFA k &&
  !blocksMeet i.xFC c i.xFB k && !blocksMeet i.xFA k i.xFB k &&
  (i.xFC = i.xFD || !blocksMeet i.xFD c i.xFC c)

/-- The registers a fragment product writes: register, lane, value, poison (R191). -/
def fragRegsOf (t fd : Nat) (elts : List (Nat × Bool)) : List (Nat × Nat × Nat × Bool) :=
  elts.zipIdx.flatMap (fun e =>
    let row := e.2 / 16
    let col := e.2 % 16
    let j := 2 * row + col / 8
    let m := col % 8
    if t = 4 then [(fd + 2 * m, j, e.1.1 % 2 ^ 32, e.1.2), (fd + 2 * m + 1, j, e.1.1 / 2 ^ 32, e.1.2)]
    else [(fd + m, j, e.1.1, e.1.2)])

/-- The 256 elements of a fragment, row by row. -/
def Ctx.fragment (x : Ctx) (t r : Nat) : List (Nat × Bool) :=
  (List.range 16).flatMap (fun row => (List.range 16).map (fun col => x.fragAt t r row col))

/-- MXF.MMA: the product starts from the registers as they are; the subgroup waits for its release (R192 to R195;
notes/assumptions/15.md). -/
def execMxfMma (i : Issue) (s : State) : Host.Outcome State Fault Refusal :=
  answer (s.mxfIssue (.mxfMma i) i (mmaLegal i) (fun _ _ => none) (fun s x =>
    let id := (s.tile i.tile).nextOp
    let m : MxFrag :=
      { id := id, ctx := i.ctx, serial := SMap.getD (s.tile i.tile).serials i.ctx 0
        type := i.type, slices := s.slicesOf i.tile i.xSlices, fd := i.xFD
        a := x.fragment i.type i.xFA, b := x.fragment i.type i.xFB, c := x.fragment (accType i.type) i.xFC
        spoilt := issueSpoils i }
    ((s.updMx i.tile (fun a => { a with frags := a.frags ++ [m] })).updTile i.tile (fun t =>
      { t with nextOp := id + 1 })).updCtx i.tile i.ctx (fun x => x.pastWait i.lane (.mma id))))

/-- SLICES is 0 outside MXF.MMA on F64 (R138). -/
def mxfRelLegal (i : Issue) : Bool := i.xSlices = 0

/-- MXF.REL ends the group's fragment holding (R113). -/
def execMxfRel (i : Issue) (s : State) : Host.Outcome State Fault Refusal :=
  answer (s.mxfIssue (.mxfRel i) i (mxfRelLegal i) (fun _ _ => none) (fun s _ =>
    (s.updCtx i.tile i.ctx (fun x => { x with frag := false })).past i))

/-! ## Descriptors (R179 to R187) -/

def mxK (ws : List Nat) : Nat := dfld ws 0 17 16 + 1
def mxMt (ws : List Nat) : Nat := dfld ws 0 37 4 + 1
def mxNt (ws : List Nat) : Nat := dfld ws 0 33 4 + 1
def mxOut (ws : List Nat) : Nat := dfld ws 0 56 4
def mxOutBytes (ws : List Nat) : Nat := if mxOut ws = 1 then 8 else 4

/-- A descriptor's fields are valid (R179, R182). -/
def mxValid (t : Nat) (ws : List Nat) : Bool :=
  let al := fun (k lo w : Nat) => dfld ws k lo w % 64 = 0
  dfld ws 0 60 4 = 1 && mxOut ws ≤ 2 && (dfld ws 0 55 1 = 0 || mxOut ws = 2) &&
  dfld ws 0 47 2 ≠ 3 && dfld ws 0 45 2 ≠ 3 && slicesOk t (dfld ws 0 41 4) && dfld ws 0 0 17 = 0 &&
  mxK ws % kstep t = 0 &&
  (if t = 4 then mxOut ws = 1 else if t = 15 then mxOut ws = 2 else mxOut ws = 0) &&
  al 1 0 64 && al 2 0 64 && al 5 0 32 && al 5 32 32 && al 6 0 32 && al 6 32 32 &&
  (dfld ws 0 50 1 = 0 || al 3 0 64) && (dfld ws 0 49 1 = 0 || al 4 0 64) &&
  (isMx t || ws.getD 7 0 = 0)

/-- Bytes of a row of K elements, and of a scale row. -/
def mxRowLen (t k : Nat) : Nat := k * tyWidth t / 8
def scaleRowLen (k : Nat) : Nat := 64 * ceilDiv k 2048

/-- The extents of C and D (R180). -/
def mxC (ws : List Nat) : Option Extent :=
  if dfld ws 0 50 1 = 1 then
    some ⟨dfld ws 0 52 1 = 1, dfld ws 3 0 64, dfld ws 6 0 32, 64 * mxMt ws, 64 * mxNt ws * mxOutBytes ws, false, 0⟩
  else none
def mxD (ws : List Nat) : Option Extent :=
  if dfld ws 0 49 1 = 1 then
    some ⟨dfld ws 0 51 1 = 1, dfld ws 4 0 64, dfld ws 6 32 32, 64 * mxMt ws, 64 * mxNt ws * mxOutBytes ws, true, 0⟩
  else none

/-- The extents of A and Bᵀ, with their scales (R180, R181). -/
def mxOperands (t : Nat) (ws : List Nat) : List Extent :=
  let k := mxK ws
  let m := 64 * mxMt ws
  let n := 64 * mxNt ws
  [⟨dfld ws 0 54 1 = 1, dfld ws 1 0 64, dfld ws 5 0 32, m, mxRowLen t k, false, dfld ws 0 47 2⟩,
   ⟨dfld ws 0 53 1 = 1, dfld ws 2 0 64, dfld ws 5 32 32, n, mxRowLen t k, false, dfld ws 0 45 2⟩] ++
  (if isMx t then
    [⟨dfld ws 0 54 1 = 1, dfld ws 1 0 64 + dfld ws 7 0 32, scaleRowLen k, m, k / 32, false, dfld ws 0 47 2⟩,
     ⟨dfld ws 0 53 1 = 1, dfld ws 2 0 64 + dfld ws 7 32 32, scaleRowLen k, n, k / 32, false, dfld ws 0 45 2⟩] else [])

/-- The extents of a descriptor. -/
def mxExtents (t : Nat) (ws : List Nat) : List Extent := mxOperands t ws ++ (mxC ws).toList ++ (mxD ws).toList

/-- Issued descriptors that are not complete (R185, R215). -/
def Tile.mxPending (t : Tile) : Nat := t.mx.descs.length + t.closingOf .mxd

/-- MXD.MMA: the descriptor is copied and checked, and queued on its token (R179 to R185). -/
def execMxdMma (i : Issue) (s : State) : Host.Outcome State Fault Refusal :=
  answer (s.descIssue (.mxdMma i) i (4 ≤ i.type && s.mxUp i.tile) (decide ((s.tile i.tile).mxPending < 8))
    (mxValid i.type) (mxExtents i.type) (fun s _ ws op =>
      s.updMx i.tile (fun a => { a with descs := a.descs ++
        [{ words := ws, type := i.type, token := tokenOf i, op := op, ctx := i.ctx
           serial := SMap.getD (s.tile i.tile).serials i.ctx 0, pass := 0, flags := 0 }] })))

/-! ## One pass (R185, R189) -/

def MxDesc.mt (d : MxDesc) : Nat := d.pass / mxNt d.words
def MxDesc.nt (d : MxDesc) : Nat := d.pass % mxNt d.words
def MxDesc.lastPass (d : MxDesc) : Bool := d.pass + 1 = mxMt d.words * mxNt d.words

/-- The default or named slice count of a descriptor. -/
def State.mxSlices (s : State) (n : Nat) (d : MxDesc) : Nat := s.slicesOf n (dfld d.words 0 41 4)

/-- The entries that a feeder writes for one operand row of a descriptor: A with `b` false, Bᵀ with `b` true (R175, R181). -/
def State.mxFeed (s : State) (n : Nat) (far : FarBytes) (d : MxDesc) (b : Bool) (r : Nat) : List FeedEntry :=
  let ws := d.words
  let k := mxK ws
  let glob := decide (dfld ws 0 (if b then 53 else 54) 1 = 1)
  let base := dfld ws (if b then 2 else 1) 0 64
  let row := s.readRow n glob far (base + r * dfld ws 5 (if b then 32 else 0) 32) (mxRowLen d.type k)
  let sc := if isMx d.type then s.readRow n glob far (base + dfld ws 7 (if b then 32 else 0) 32 + r * scaleRowLen k) (k / 32) else []
  feedEntries d.type (s.tile n).mx.passNo k row sc

/-- The physical row of a logical data row, and of the checksum row, in the row map (R172, R211). -/
def State.physRow (s : State) (n r : Nat) : Nat :=
  if r = 64 then s.rd (pgMxa n) Reg.mxaRowmapChkPhys
  else if s.rd (pgMxa n) Reg.mxaStateSpareFor ≤ r then r + 1 else r

/-- The logical row at a physical row: 64 for the checksum row, none for a row out of service. -/
def State.logRow (s : State) (n p : Nat) : Option Nat := (List.range 65).find? (fun r => decide (s.physRow n r = p))

/-- Every feeder of a pass with its entries: rows of A at their physical rows, columns of B, and the checksum feeders (R175). -/
def State.mxFeeds (s : State) (n : Nat) (far : FarBytes) (d : MxDesc) : Feeds :=
  let sum := sumEntries d.type (s.tile n).mx.passNo (mxK d.words)
  (List.range 64).map (fun r => (s.physRow n r, s.mxFeed n far d false (64 * d.mt + r))) ++ [(s.physRow n 64, sum)] ++
  (List.range 64).map (fun c => (66 + c, s.mxFeed n far d true (64 * d.nt + c))) ++ [(130, sum)]

/-- A row of 64 elements of C of the pass. -/
def State.mxCRow (s : State) (n : Nat) (far : FarBytes) (d : MxDesc) (m : Nat) : List (Nat × Bool) :=
  let ws := d.words
  let es := mxOutBytes ws
  if dfld ws 0 50 1 = 0 then List.replicate 64 (0, false)
  else
    let row := s.readRow n (dfld ws 0 52 1 = 1) far (dfld ws 3 0 64 + m * dfld ws 6 0 32 + d.nt * 64 * es) (64 * es)
    (List.range 64).map (fun c =>
      let e := (row.drop (es * c)).take es
      (rowNat e, rowBad e))

/-- The CRC checks of the scratchpad lines a pass reads (R296, R297). -/
def State.mxCheck (s : State) (n : Nat) (d : MxDesc) : State :=
  (mxExtents d.type d.words).foldl (fun s e =>
    if e.write then s else (List.range e.rows).foldl (fun s r => s.checkExtent n e.glob (e.addr + r * e.stride) e.len) s) s

/-- The physical faults of an attempt, and an armed MXA_FLIP, act on the cells (R206, R217). -/
def State.mxFaults (s : State) (n : Nat) (k : CellKind) (t : Nat) (ups : MxUpsets) (g : Grid) : Grid :=
  let p := pgMxa n
  let g1 := ups.cells.foldl (fun g u => match s.logRow n u.1 with
    | some r => g.flip k t r u.2.1 u.2.2.toNat
    | none => g) g
  if s.flag p Reg.mxaFlipArm ∧ s.rd p Reg.mxaFlipRow ≤ 64 ∧ s.rd p Reg.mxaFlipCol ≤ 64 then
    g1.flip k t (s.rd p Reg.mxaFlipRow) (s.rd p Reg.mxaFlipCol) (2 ^ s.rd p Reg.mxaFlipBit)
  else g1

/-- The data rows in whose sweep the duplicated drain adders differ (R202). -/
def State.mxDrains (s : State) (n : Nat) (ups : MxUpsets) : List Nat := ups.drains.filterMap (fun p => s.logRow n p.val)

/-- Results by 64-bit words, each with its GW80 check bits; a word with a poisoned element is poisoned (R203). -/
def guarded (es : Nat) (vals : List (Nat × Bool)) : List Gw.Word80 :=
  let l := elemBytes es vals
  (List.range (l.length / 8)).map (fun k =>
    let w := (l.drop (8 * k)).take 8
    Gw.stored (BitVec.ofNat 64 (rowNat w)) (rowBad w))

/-- The outcome of one attempt of a pass: aborted for feeder CRC mismatches, so many in the first cycle that shows one, with what
it leaves in the feeders; or its verdict with the 64 × 64 results, their flags, and whether an operand entry is poisoned. -/
inductive MxAttempt where
  | aborted (count : Nat) (left : Feeds)
  | checked (v : Verdict) (vals : List (Nat × Bool)) (flags : Nat) (poison : Bool)
  deriving DecidableEq, Repr

/-- One attempt of the head descriptor's pass (R175 to R178, R193, R200 to R205, R236): entries are written, leave the skew stages
with their CRC checked, and the results are taken from the cells as the drain reads them. -/
def State.mxAttempt (s : State) (n : Nat) (far : FarBytes) (ups : MxUpsets) (d : MxDesc) : MxAttempt :=
  let t := d.type
  let sl := s.mxSlices n d
  let k := mxK d.words
  let feeds := ups.feeds.foldl flipFeed (s.mxFeeds n far d)
  match badCycles (stepCycles t sl) feeds with
  | c :: cs =>
    let first := cs.foldl min c
    .aborted ((c :: cs).filter (fun x => x = first)).length (leftInFeeds (stepCycles t sl) first feeds)
  | [] =>
    let entries := fun (f : Nat) => SMap.getD feeds f []
    let rows := (List.range 64).map (fun r => feedRow t sl (entries (s.physRow n r)))
    let cols := (List.range 64).map (fun c => feedRow t sl (entries (66 + c)))
    let grid := s.mxFaults n (descKind t) t ups (descGrid t rows cols)
    let whole := (entries (s.physRow n 64) ++ entries 130).any (fun e => e.poison)
    let sat := decide (dfld d.words 0 55 1 = 1)
    let elts := (grid.cells.zip rows).zipIdx.flatMap (fun g =>
      let cr := s.mxCRow n far d (64 * d.mt + g.2)
      (g.1.1.zip cols).zipIdx.map (fun x =>
        let cc := cr.getD x.2 (0, false)
        (descOut t sat (g.1.2.exp + x.1.2.exp) x.1.1 cc.1, whole || g.1.2.bad || x.1.2.bad || cc.2)))
    .checked (grid.verdict (descKind t) (descRule t k) t (s.mxDrains n ups)) (elts.map (fun e => (e.1.code, e.2)))
      (elts.foldl (fun a e => a ||| e.1.fl) (if (rows ++ cols).any (fun r => r.lost) then Fp.flAlign else 0))
      (whole || (rows ++ cols).any (fun r => r.bad))

/-! ## Release (R186, R196 to R198, R203) -/

/-- Entries of the finished-tile queue that a pass needs. -/
def MxDesc.needs (d : MxDesc) : Nat :=
  if dfld d.words 0 49 1 = 1 then 0 else if mxOut d.words = 1 then 2 else 1

/-- A line of the queue from eight words: its CRC is formed from the data before the words are verified (R491, R492). -/
def ftqLine (ws : List Gw.Word80) : FtqLine :=
  let data := BitVec.ofNat 512 (leNat (ws.flatMap (fun w => leBytes 8 (Gw.data w).toNat)))
  { data := data, crc := BitVec.ofNat 32 (Hash.crc32c (leBytes 64 data.toNat))
    bad := BitVec.ofNat 8 (maskOf ((ws.zipIdx.filter (fun e => (Gw.hear e.1).bad)).map (fun e => e.2))) }

/-- A queue entry of a pass: 256 lines from a word on. -/
def MxDesc.entry (d : MxDesc) (words : List Gw.Word80) (lo half : Nat) (last : Bool) : FtqEntry :=
  { token := d.token, mti := d.mt, nti := d.nt, out := mxOut d.words, half := half, last := last
    lines := (List.range 256).map (fun k => ftqLine ((words.drop (lo + 8 * k)).take 8)) }

/-- Deliver a pass's results to memory or to the finished-tile queue. -/
def State.mxDeliver (s : State) (n : Nat) (d : MxDesc) (words : List Gw.Word80) : State :=
  let ws := d.words
  let es := mxOutBytes ws
  if dfld ws 0 49 1 = 1 then
    (List.range 64).foldl (fun s r =>
      let a := dfld ws 4 0 64 + (64 * d.mt + r) * dfld ws 6 32 32 + d.nt * 64 * es
      (List.range (8 * es)).foldl (fun s k =>
        let h := Gw.hear (words.getD (8 * es * r + k) 0)
        s.writeWordAt n d.op (dfld ws 0 51 1 = 1) (a + 8 * k) h.data.toNat h.bad)
        (if dfld ws 0 51 1 = 1 then s.askRow n a (64 * es) true 0 else s)) s
  else s.updMx n (fun a => { a with ftq := a.ftq ++
    (if mxOut ws = 1 then [d.entry words 0 0 false, d.entry words 2048 1 d.lastPass] else [d.entry words 0 0 d.lastPass]) })

/-- The head descriptor goes to its next pass, or, when its last write has been performed, completes its token with its flags
(R185, R186, R230). -/
def State.mxNext (s : State) (n : Nat) (d : MxDesc) (fl : Nat) : State :=
  let next : MxDesc := { d with pass := d.pass + 1, flags := d.flags ||| fl }
  let s1 := s.updMx n (fun a => { a with
    run := .fresh, held := none, passNo := a.passNo + 1, descs := if d.lastPass then a.descs.tail else next :: a.descs.tail })
  if d.lastPass then (s1.updTile n (fun t => t.gotRows (mxExtents d.type d.words))).finishOp n { op := d.op, ctx := d.ctx, serial := d.serial, flags := d.flags ||| fl, kind := .mxd } else s1

/-- Skipped checks are counted and shown; the trace marks them (R201). -/
def State.mxSkips (s : State) (n skips : Nat) : State :=
  if skips = 0 then s
  else ((s.bump (pgMxa n) Reg.mxaSkipSkipped skips).setCause (pgMxa n) Reg.causeMxaSkip).logFault 0

/-- A release counts; `transient` when a retry passed its checks (R208, R215). -/
def State.mxReleased (s : State) (n : Nat) (transient : Bool) : State :=
  let p := pgMxa n
  let s1 := s.wr p Reg.mxaPassPasses (s.rd p Reg.mxaPassPasses + 1)
  if transient then (s1.bump p Reg.mxaErrcntTransient 1).setCause p Reg.causeMxaTransient else s1

/-- D overlaps A, B or C, otherwise than by coinciding with C at equal stride: results are not defined (R184). -/
def mxUndefined (t : Nat) (ws : List Nat) : Bool :=
  match mxD ws with
  | some d => (mxOperands t ws).any (fun e => e.meets d) || (mxC ws).any (fun c => c != { d with write := false } && c.meets d)
  | none => false

/-- Results whose values the spec does not give, poisoned or not. -/
def State.freeResults (s : State) (k w : Nat) (bad : Bool) : List (Nat × Bool) :=
  (List.range k).map (fun j => (Config.freeValue (s.fresh + j) % 2 ^ w, bad))

/-- The results of a pass go out, or wait for free queue entries, which counts in MXA_FTQ_STALL (R198). -/
def State.mxRelease (s : State) (n : Nat) (d : MxDesc) (words : List Gw.Word80) (flags : Nat) : State :=
  if 8 < (s.tile n).mx.ftq.length + d.needs then
    (s.noteCycles (pgMxa n) Reg.mxaFtqStallCycles).updMx n (fun a => { a with held := some ⟨words, flags⟩ })
  else (s.mxDeliver n d words).mxNext n d flags

/-- A pass whose checks pass, or which holds poison and is released without retry (R189, R205, R208). -/
def State.mxPassed (s : State) (n : Nat) (d : MxDesc) (ok : Bool) (vals : List (Nat × Bool)) (flags : Nat) : State :=
  let es := mxOutBytes d.words
  let s1 := (s.mxReleased n (ok && (s.tile n).mx.run.phase == .again)).count (0x100 + n) 6 1
  if mxUndefined d.type d.words then
    { (s1.mxRelease n d (guarded es (s1.freeResults 4096 (8 * es) false)) flags) with fresh := s1.fresh + 4096 }
  else s1.mxRelease n d (guarded es vals) flags

/-- A poisoned operand entry enters the array (R205, R216, R496). -/
def State.mxPoisonOut (s : State) (n : Nat) : State :=
  ((s.setCause (pgMxa n) Reg.causeMxaPoisonOut).err (pgMxa n) 0x34 0).consumeAt n

/-! ## Failures (R206 to R213) -/

/-- The class of a failed attempt (R206). -/
def classOf (rows : List Nat) (corner : Bool) : MxClass :=
  match rows.eraseDups with
  | [r] => .row r
  | [] => if corner then .checksumRow else .multiple
  | _ => .multiple

def MxClass.code : MxClass → Nat
  | .row _ => 0
  | .checksumRow => 1
  | .multiple => 2
  | .feederCrc => 3

/-- A row that a class names: 64 for the checksum row. -/
def MxClass.single : MxClass → Option Nat
  | .row r => some r
  | .checksumRow => some 64
  | _ => none

/-- Capture an attempt in MXA_CHK, with its error (R204, R215, R216); `feeds` counts feeder CRC mismatches. -/
def State.mxCapture (s : State) (n : Nat) (cl : MxClass) (attempt : Nat) (v : Verdict) (feeds : Nat) : State :=
  let p := pgMxa n
  let s1 := s.wrs p [(Reg.mxaChkValid, 1), (Reg.mxaChkClass, cl.code), (Reg.mxaChkAttempt, min 3 attempt),
    (Reg.mxaChkNrows, v.rows.length), (Reg.mxaChkRow, v.rows.headD 255), (Reg.mxaChkCol, v.col.getD 255)]
  match cl with
  | .feederCrc => ((s1.bump p Reg.mxaErrcntFeedCrc feeds).setCause p Reg.causeMxaFeedCrc).err p 0x31 0
  | _ => s1.err p 0x30 (256 * s1.rd p Reg.mxaChkRow + s1.rd p Reg.mxaChkCol)

/-- What follows a failed attempt. -/
inductive MxAfter where
  | retry
  | subst (row : Nat)
  | retire
  deriving DecidableEq, Repr

/-- A row is declared faulty by this attempt (R209). -/
def MxRun.declares (run : MxRun) (cl : MxClass) : Bool := !run.substituted && cl.single.isSome && run.lastClass == some cl

/-- Retry, substitute or retire (R204, R207, R209, R212). After a substitution a failed check retires the array; an abort for a
feeder CRC, which is no failed check, is retried, whatever RETRY_MAX. -/
def State.mxAfter (s : State) (n : Nat) (run : MxRun) (cl : MxClass) : MxAfter :=
  let mx := max 1 (s.rd (pgMxa n) Reg.mxaCtrlRetryMax)
  if run.substituted then (if cl == .feederCrc then .retry else .retire)
  else if run.declares cl then
    if s.rd (pgMxa n) Reg.mxaStateSpareFor = 0x7F then .subst (cl.single.getD 0) else .retire
  else if mx ≤ run.attempt then .retire
  else .retry

/-- A declared row: HARD and its error (R209, R216). -/
def State.mxHard (s : State) (n : Nat) (yes : Bool) : State :=
  let p := pgMxa n
  if yes then (s.bump p Reg.mxaErrcntHard 1).err p 0x32 (256 * s.rd p Reg.mxaChkRow + s.rd p Reg.mxaChkCol) else s

/-- The array retires (R213): error, cause, an uncorrectable error for the stoke, the tile fenced at the
next latch point. -/
def State.mxRetire (s : State) (n : Nat) : State :=
  (((s.updTile n (fun t => { t with fencePending := true, mx := { t.mx with retired := true } })).setCause
    (pgMxa n) Reg.causeMxaRetired).err (pgMxa n) 0x33 0).consumeAt n

/-- The run after a failed attempt. -/
def MxRun.failed (run : MxRun) (frag : Bool) (cl : MxClass) (a : MxAfter) : MxRun :=
  match a with
  | .retry => { run with phase := .retryWait, frag := frag, attempt := run.attempt + 1, lastClass := some cl }
  | .subst _ => { phase := .substWait, frag := frag, attempt := run.attempt + 1, lastClass := none, substituted := true }
  | .retire => .fresh

/-- A failed attempt of the oldest work of a path, and whether the array retires: what is behind it on either path follows it
(R207). -/
def State.mxFailed (s : State) (n : Nat) (frag : Bool) (cl : MxClass) (v : Verdict) (count : Nat) (left : Feeds) : State × Bool :=
  let run := (s.tile n).mx.run
  let s1 := (s.mxCapture n cl run.attempt v count).mxHard n (run.declares cl)
  let a := s1.mxAfter n run cl
  let s2 := s1.updMx n (fun m => { m with
    run := run.failed frag cl a, feeds := left, faulty := match a with | .subst r => r | _ => m.faulty })
  if a == .retire then (s2.mxRetire n, true) else (s2, false)

/-- No failed attempt of other work keeps a path from running. -/
def MxRun.lets (run : MxRun) (frag : Bool) : Bool :=
  (run.phase == .ready || run.phase == .again) && (run.attempt == 0 || run.frag == frag)

/-- An armed MXA_FLIP is spent when it is applied (R215). -/
def State.mxFlipSpent (s : State) (n : Nat) : State :=
  if s.flag (pgMxa n) Reg.mxaFlipArm then s.wr (pgMxa n) Reg.mxaFlipArm 0 else s

/-- A verdict without rows, for an aborted attempt. -/
def Verdict.none : Verdict := ⟨[], Option.none, false, 0⟩

/-- The head descriptor's pass is attempted. -/
def State.mxTry (s : State) (n : Nat) (far : FarBytes) (ups : MxUpsets) (d : MxDesc) : State :=
  let s1 := (s.upsets n ups.lines).mxCheck n d
  let es := mxOutBytes d.words
  match s1.mxAttempt n far ups d with
  | .aborted count left =>
    let r := s1.mxFailed n false .feederCrc Verdict.none count left
    if r.2 then
      { (r.1.mxRelease n d (guarded es (r.1.freeResults 4096 (8 * es) true)) 0) with fresh := r.1.fresh + 4096 } else r.1
  | .checked v vals flags poison =>
    let s2 := (s1.mxFlipSpent n).mxSkips n v.skips
    if poison then (s2.mxPoisonOut n).mxPassed n d v.ok vals flags
    else if v.ok then s2.mxPassed n d true vals flags
    else
      let r := s2.mxFailed n false (classOf v.rows v.corner) v 0 []
      if r.2 then r.1.mxRelease n d (guarded es (vals.map (fun e => (e.1, true)))) 0 else r.1

/-- MXA_PASS_RELEASE: the head descriptor's pass is released, waits for queue entries, is retried, or
leads to substitution or retirement. -/
def execMxaPassRelease (tile : Fin 160) (ups : MxUpsets) (far : FarBytes) (s : State) :
    Host.Outcome State Fault Refusal :=
  let mx := (s.tile tile).mx
  match mx.descs with
  | [] => answer s
  | d :: _ => answer (match mx.held with
    | some h => s.mxRelease tile d h.words h.flags
    | none => if mx.retired || !mx.run.lets false then s else (s.farHeard far).mxTry tile far ups d)

/-! ## Fragment releases (R194, R208 to R213) -/

/-- Write a fragment product's registers; its subgroup goes on. -/
def State.fragWrite (s : State) (n : Nat) (m : MxFrag) (regs : List (Nat × Nat × Nat × Bool)) : State :=
  if s.sameGroup n m.ctx m.serial then
    s.updCtx n m.ctx (fun x => (regs.foldl (fun x r =>
      x.putV r.1 r.2.1 r.2.2.1 (if r.2.2.2 then 15 else 0)) x).wakeIf (fun w => w = .mma m.id))
  else s

/-- The rows of A, and the columns of B, of a fragment product. -/
def MxFrag.rows (m : MxFrag) : List OpRow :=
  (List.range 16).map (fun i => plainRow m.type m.slices ((List.range 16).map (fun k => (m.a.getD (16 * i + k) (0, false)).1))
    ((List.range 16).any (fun k => (m.a.getD (16 * i + k) (0, false)).2)))
def MxFrag.cols (m : MxFrag) : List OpRow :=
  (List.range 16).map (fun j => plainRow m.type m.slices ((List.range 16).map (fun k => (m.b.getD (16 * k + j) (0, false)).1))
    ((List.range 16).any (fun k => (m.b.getD (16 * k + j) (0, false)).2)))

/-- One attempt of a fragment product: its verdict, its elements with poison, and its flags (R192, R193, R200). -/
def State.fragAttempt (s : State) (n : Nat) (ups : MxUpsets) (m : MxFrag) : Verdict × List (Nat × Bool) × Nat :=
  let t := m.type
  let rows := m.rows
  let cols := m.cols
  let grid := s.mxFaults n (fragKind t) t ups (fragGrid rows cols)
  let elts := rows.zipIdx.flatMap (fun a => cols.zipIdx.map (fun b =>
    let cells := (List.range 16).map (fun k => (grid.cells.getD (4 * a.2 + k / 4) []).getD (4 * b.2 + k % 4) Cell.zero)
    let c := m.c.getD (16 * a.2 + b.2) (0, false)
    (fragOut t (a.1.exp + b.1.exp) cells c.1, m.spoilt || a.1.bad || b.1.bad || c.2)))
  (grid.verdict (fragKind t) (fragRule t) t (s.mxDrains n ups), elts.map (fun e => (e.1.code, e.2)),
    elts.foldl (fun a e => a ||| e.1.fl) (if (rows ++ cols).any (fun r => r.lost) then Fp.flAlign else 0))

/-- A fragment product leaves the array with its results (R194, R230). -/
def State.fragDone (s : State) (n : Nat) (m : MxFrag) (elts : List (Nat × Bool)) (flags : Nat) : State :=
  let s1 := s.fragWrite n m (fragRegsOf m.type m.fd elts)
  let s2 := if s1.sameGroup n m.ctx m.serial then s1.updCtx n m.ctx (fun x => x.orFlags flags) else s1
  s2.updMx n (fun a => { a with frags := a.frags.tail, run := .fresh })

/-- The oldest fragment product is attempted. -/
def State.fragTry (s : State) (n : Nat) (ups : MxUpsets) (m : MxFrag) : State :=
  let r := s.fragAttempt n ups m
  let s1 := (s.mxFlipSpent n).mxSkips n r.1.skips
  if r.1.ok then (s1.mxReleased n ((s1.tile n).mx.run.phase == .again)).fragDone n m r.2.1 r.2.2
  else
    let f := s1.mxFailed n true (classOf r.1.rows r.1.corner) r.1 0 []
    if f.2 then f.1.fragDone n m (r.2.1.map (fun e => (e.1, true))) 0 else f.1

/-- MXF_MMA_RELEASE: the oldest fragment product's checks complete. -/
def execMxfMmaRelease (tile : Fin 160) (ups : MxUpsets) (s : State) : Host.Outcome State Fault Refusal :=
  let mx := (s.tile tile).mx
  match mx.frags with
  | [] => answer s
  | m :: _ => answer (if mx.retired || !mx.run.lets true then s else s.fragTry tile ups m)

/-! ## After the waits (R207, R210, R211) -/

/-- MXA_RETRY_START: the failed pass or fragment instruction runs again, its feeders empty (R207). -/
def execMxaRetryStart (tile : Fin 160) (s : State) : Host.Outcome State Fault Refusal :=
  answer (if (s.tile tile).mx.run.phase = .retryWait then
      s.updMx tile (fun a => { a with run := { a.run with phase := .again }, feeds := [] })
    else s)

/-- SUBSTITUTION_DONE: the spare row serves for the faulty one; the repair record keeps it (R211, R214). -/
def execSubstitutionDone (tile : Fin 160) (s : State) : Host.Outcome State Fault Refusal :=
  let mx := (s.tile tile).mx
  if mx.run.phase ≠ .substWait then answer s
  else
    let s0 := { s with flash := { s.flash with repRows := SMap.ins s.flash.repRows tile mx.faulty } }
    answer (((s0.mapSpare tile mx.faulty).setCause (pgMxa tile) Reg.causeMxaSpareIn).updMx tile (fun a =>
      { a with run := { a.run with phase := .ready } }))

end Sys2Proof.Machine
end

