-- ==== Sys2Proof/Machine/Epilogue.lean ====
section
/-! DEFINITION. Epilogues of the vector engine and the copy engine (spec/07 R257 to R268;
spec/09 R347 to R355). -/
namespace Sys2Proof.Machine

/-! ## VEC.EPI (R257 to R259, R264) -/

def epiField (ws : List Nat) (lo w : Nat) : Nat := dfld ws 0 lo w
def epiOn (ws : List Nat) (b : Nat) : Bool := dfld ws 0 b 1 = 1

/-- A descriptor's fields are valid (R257, R259): every address and stride that the enabled stages use is a multiple of 64, and a
stride spans at least the row, 64 elements of ws bytes for the residual. -/
def epiValid (t ws' : Nat) (ws : List Nat) : Bool :=
  let al := fun (k lo w : Nat) => dfld ws k lo w % 64 = 0
  let h := dfld ws 1 32 32
  epiField ws 60 4 = 3 && epiField ws 51 3 ≤ 3 && epiField ws 48 3 ≤ 4 && epiField ws 40 2 ≠ 3 &&
  epiField ws 0 40 = 0 &&
  (if epiField ws 51 3 = 2 then !bitAt h 31 && !Fp.isNan (Fp.decode Fp.f32 h) else h = 0) &&
  (epiOn ws 54 || dfld ws 1 0 32 = 0) &&
  (!epiOn ws 59 || al 2 0 64) && (!epiOn ws 57 || al 3 0 64) &&
  (!epiOn ws 55 || (al 4 0 64 && al 6 0 32 && 64 * ws' ≤ dfld ws 6 0 32)) &&
  (!epiOn ws 47 || (al 5 0 64 && al 6 32 32 && 64 * elBytes t ≤ dfld ws 6 32 32)) &&
  (epiField ws 48 3 = 0 || al 7 0 64)

/-- Where a vector, residual or result of a working element size lies. -/
def epiExtents (t ws' : Nat) (ws : List Nat) : List Extent :=
  let v := epiOn ws 43
  (if epiOn ws 59 then [⟨v, dfld ws 2 0 64, 0, 1, 64 * ws', false, 0⟩] else []) ++
  (if epiOn ws 57 then [⟨v, dfld ws 3 0 64, 0, 1, 64 * ws', false, 0⟩] else []) ++
  (if epiOn ws 55 then [⟨v, dfld ws 4 0 64, dfld ws 6 0 32, 64, 64 * ws', false, 0⟩] else []) ++
  (if epiOn ws 47 then [⟨epiOn ws 42, dfld ws 5 0 64, dfld ws 6 32 32, 64, 64 * elBytes t, true, epiField ws 40 2⟩] else []) ++
  (if epiField ws 48 3 = 0 then [] else [⟨epiOn ws 42, dfld ws 7 0 64, 0, 1, 64 * ws', true, epiField ws 40 2⟩])

/-- An epilogue has started when it has taken its tile. -/
def Epi.started (e : Epi) : Bool := e.tile != []

/-- Epilogues issued and not complete (R264, R271). -/
def Tile.epiPending (t : Tile) : Nat := t.epis.length + t.closingOf .epi

/-- OUT of the tiles that are in the finished-tile queue, or will be from the descriptors issued so far, in order (R185, R196). -/
def MxArray.tileOuts (a : MxArray) : List Nat :=
  (a.ftq.filter (fun e => decide (e.half = 0))).map (fun e => e.out) ++
  a.descs.flatMap (fun d => if dfld d.words 0 49 1 = 1 then []
    else List.replicate (mxMt d.words * mxNt d.words - d.pass) (mxOut d.words))

/-- The bytes of a working-type element of the next VEC.EPI to issue: 8 when the tile it will stream is known to be an F64 tile
(R258). A tile that no issued descriptor announces yet has no type; it is taken as binary32 (notes/assumptions/16.md). -/
def Tile.epiBytes (t : Tile) : Nat :=
  if t.mx.tileOuts.getD (t.epis.filter (fun e => !e.started)).length 0 = 1 then 8 else 4

/-- VEC.EPI: TYPE 4 to 7 is the output type; at most 8 are held (R161, R257, R259, R264). -/
def execVecEpi (i : Issue) (s : State) : Host.Outcome State Fault Refusal :=
  let w := (s.tile i.tile).epiBytes
  answer (s.descIssue (.vecEpi i) i (4 ≤ i.type && i.type ≤ 7) (decide ((s.tile i.tile).epiPending < 8))
    (epiValid i.type w) (epiExtents i.type w) (fun s _ ws op =>
      s.updTile i.tile (fun t => { t with epis := t.epis ++
        [{ words := ws, type := i.type, token := tokenOf i, op := op, ctx := i.ctx
           serial := SMap.getD t.serials i.ctx 0, tile := [] }] })))

/-- The entries of the head tile, none while they are not all valid (R196, R264). -/
def MxArray.headTile (a : MxArray) : Option (List FtqEntry) :=
  match a.ftq with
  | [] => none
  | e :: es =>
    if e.out = 1 then (match es with | f :: _ => some [e, f] | [] => none) else some [e]

/-- Free the head entries. -/
def State.ftqFree (s : State) (n k : Nat) : State :=
  s.updMx n (fun a => { a with ftq := a.ftq.drop k, ftqHead := (a.ftqHead + k) % 8 })

/-- EPI_START: the oldest epilogue starts when the head tile is valid, and waits otherwise (R264, R271). It reads the entries to their
last rows, and they are free (R266). -/
def execEpiStart (tile : Fin 160) (s : State) : Host.Outcome State Fault Refusal :=
  match (s.tile tile).epis with
  | [] => answer s
  | e :: es =>
    if e.started then answer s
    else match (s.tile tile).mx.headTile with
      | none => answer (s.noteCycles (pgVec tile) Reg.vecEpiWaitCycles)
      | some l => answer ((s.updTile tile (fun t => { t with epis := { e with tile := l } :: es })).ftqFree tile l.length)

/-! ## The stages (R258, R261, R262) -/

/-- A value with its flags. -/
abbrev Flagged := Nat × Nat

/-- Follow a flagged value by a step. -/
def thenDo (x : Flagged) (f : Nat → Flagged) : Flagged :=
  let r := f x.1
  (r.1, x.2 ||| r.2)

/-- log₂ e rounded to binary32. -/
def log2e : Nat := 0x3FB8AA3B

/-- SIGMOID in binary32. -/
def sigmoid (rnd x : Nat) : Flagged :=
  let a := elMul 5 rnd false (elNeg 5 x).1 log2e
  let b := thenDo a (elFn 0)
  let c := thenDo b (fun y => elAdd 5 rnd false 0x3F800000 y)
  thenDo c (elFn 2)

/-- The activation in working type w (5 binary32, 4 binary64). -/
def activate (w rnd act h x : Nat) : Flagged :=
  match act with
  | 0 => (x, 0)
  | 1 => elMinMax w true x 0
  | 2 => thenDo (elMinMax w true x (elNeg w h).1) (fun y => elMinMax w false y h)
  | _ => if w = 4 then thenDo (thenDo (elCvt 4 5 rnd false x) (sigmoid rnd)) (elCvt 5 4 0 false) else sigmoid rnd x

/-- A binary32 constant of the descriptor in the working type. -/
def epiConst (w x : Nat) : Nat := if w = 4 then (elCvt 5 4 0 false x).1 else x

/-- One element through the stages: tile code, and the values of the vectors and the residual. -/
def epiElt (ws : List Nat) (w : Nat) (isInt : Bool) (x c r res : Nat) : Flagged :=
  let rnd := epiField ws 45 2
  let x0 : Flagged := if isInt then Fp.ofIntVal Fp.f32 rnd false (toSigned 32 x) else (x, 0)
  let x1 := if epiOn ws 54 then thenDo x0 (fun y => elMul w rnd false y (epiConst w (dfld ws 1 0 32))) else x0
  let x2 := if epiOn ws 59 then thenDo x1 (fun y => if epiOn ws 58 then elMul w rnd false y c else elAdd w rnd false y c) else x1
  let x3 := if epiOn ws 57 then thenDo x2 (fun y => if epiOn ws 56 then elMul w rnd false y r else elAdd w rnd false y r) else x2
  let x4 := if epiOn ws 55 then thenDo x3 (fun y => elAdd w rnd false y res) else x3
  thenDo x4 (activate w rnd (epiField ws 51 3) (epiConst w (dfld ws 1 32 32)))

/-- The elements of a row of bytes. -/
def rowElems (es : Nat) (l : List (Byte × Bool)) : List (Nat × Bool) :=
  (List.range (l.length / es)).map (fun k =>
    let e := (l.drop (es * k)).take es
    (rowNat e, rowBad e))

/-- 64 elements that a stage reads, zeros when the stage is off. -/
def State.epiRow (s : State) (n : Nat) (far : FarBytes) (on glob : Bool) (a es : Nat) : List (Nat × Bool) :=
  if on then rowElems es (s.readRow n glob far a (64 * es)) else List.replicate 64 (0, false)

/-- A fault in a stored line of the queue. -/
def FtqLine.flip (l : FtqLine) (b : Nat) : FtqLine :=
  if b < 512 then { l with data := l.data ^^^ (1#512 <<< b) } else { l with crc := l.crc ^^^ (1#32 <<< (b - 512)) }

/-- A line as an epilogue reads it: its CRC is verified, and a mismatch poisons its words (spec/14 R492). -/
def FtqLine.read (l : FtqLine) : FtqLine := if l.crc == lineCrc l.data then l else { l with bad := 0xFF }

/-- The elements of lines, of es bytes each, with their poison. -/
def tileElems (es : Nat) (l : List FtqLine) : List (Nat × Bool) :=
  l.flatMap (fun x => (List.range (64 / es)).map (fun k =>
    (bitsAt x.data.toNat (8 * es * k) (8 * es), x.bad.getLsbD (es * k / 8))))

/-- What an epilogue computes: elements in the working type with flags and poison. -/
def State.epiElems (s : State) (n : Nat) (far : FarBytes) (ws : List Nat) (w : Nat) (isInt : Bool)
    (tile : List (Nat × Bool)) : List (Nat × Nat × Bool) :=
  let es := elBytes w
  let v := epiOn ws 43
  let cv := s.epiRow n far (epiOn ws 59) v (dfld ws 2 0 64) es
  let rv := s.epiRow n far (epiOn ws 57) v (dfld ws 3 0 64) es
  (List.range 64).flatMap (fun m =>
    let res := s.epiRow n far (epiOn ws 55) v (dfld ws 4 0 64 + m * dfld ws 6 0 32) es
    (List.range 64).map (fun k =>
      let t := tile.getD (64 * m + k) (0, false)
      let c := cv.getD m (0, false)
      let r := rv.getD k (0, false)
      let q := res.getD k (0, false)
      let x := epiElt ws w isInt t.1 c.1 r.1 q.1
      (x.1, x.2, t.2 || c.2 || r.2 || q.2)))

/-- The reduction results (R263): over rows for RED 1 and 2, over columns for 3 and 4. -/
def epiReduce (ws : List Nat) (w : Nat) (l : List (Nat × Nat × Bool)) : List (Nat × Nat × Bool) :=
  let red := epiField ws 48 3
  let op := if red = 1 ∨ red = 3 then 0 else 2
  (List.range 64).map (fun a =>
    let leaves : List Leaf := (List.range 64).map (fun b =>
      let x := l.getD (if red ≤ 2 then 64 * a + b else 64 * b + a) (0, 0, false)
      some (x.1, 0, x.2.2))
    match treeRoot (redNode op w (epiField ws 45 2)) 6 leaves with
    | some (v, fl, p) => (redResult w v, fl, p)
    | none => (0, 0, false))

/-! ## Completion (R266 to R268) -/

/-- The CRC checks of the scratchpad lines an operation reads (R296, R297). -/
def State.checkReads (s : State) (n : Nat) (l : List Extent) : State :=
  l.foldl (fun s e => if e.write then s
    else (List.range e.rows).foldl (fun s r => s.checkExtent n e.glob (e.addr + r * e.stride) e.len) s) s

/-- A poisoned word was read: the error, the consumed entry, the cause once it was written (R268, R272, R496). -/
def State.epiPoison (s : State) (n : Nat) (read entry written : Bool) : State :=
  let s1 := if read then s.err (pgVec n) 0x40 0 else s
  let s2 := if entry then s1.consumeAt n else s1
  if written then s2.setCause (pgVec n) Reg.causeVecEpiPoison else s2

/-- Write D and the reduction results of an epilogue. -/
def State.epiWrite (s : State) (n : Nat) (e : Epi) (w : Nat) (l d red : List (Nat × Nat × Bool)) : State :=
  let ws := e.words
  let s1 := if epiOn ws 47 && l != [] then
      (List.range 64).foldl (fun s m => s.writeRow n e.op (epiOn ws 42) (epiField ws 40 2) (dfld ws 5 0 64 + m * dfld ws 6 32 32)
        (elemBytes (elBytes e.type) (((d.drop (64 * m)).take 64).map (fun x => (x.1, x.2.2))))) s
    else s
  if red = [] then s1
  else s1.writeRow n e.op (epiOn ws 42) (epiField ws 40 2) (dfld ws 7 0 64) (elemBytes (elBytes w) (red.map (fun x => (x.1, x.2.2))))

/-- A started epilogue, all stages; its token completes when its last writes have been performed. -/
def State.epiRun (s : State) (n : Nat) (reads : EpiReads) (e : Epi) : State :=
  let ws := e.words
  let out := (e.tile.map (fun f => f.out)).headD 0
  let w := if out = 1 then 4 else 5
  let stored := reads.queue.foldl (fun l u => l.modify u.1 (fun x => x.flip u.2)) (e.tile.flatMap (fun f => f.lines))
  let lines := stored.map FtqLine.read
  let s1 := (s.upsets n reads.lines).checkReads n (epiExtents e.type (elBytes w) ws)
  let l := s1.epiElems n reads.far ws w (out = 2) (tileElems (elBytes w) lines)
  let d := if epiOn ws 47 then l.map (fun x =>
      let y := elCvt w e.type (epiField ws 45 2) (epiOn ws 44) x.1
      (y.1, y.2, x.2.2)) else []
  let red := if epiField ws 48 3 = 0 then [] else epiReduce ws w l
  let fl := (l ++ d ++ red).foldl (fun a x => a ||| x.2.1) 0
  let bad := l.any (fun x => x.2.2)
  let s2 := (s1.epiPoison n bad (lines.any (fun x => x.bad != 0)) (bad && (epiOn ws 47 || red != []))).epiWrite n e w l d red
  (s2.updTile n (fun t => { t with epis := t.epis.tail }.gotRows (epiExtents e.type (elBytes w) ws))).finishOp n
    { op := e.op, ctx := e.ctx, serial := e.serial, flags := fl, kind := .epi }

/-- EPI_DONE: the started epilogue's last writes are made. -/
def execEpiDone (tile : Fin 160) (reads : EpiReads) (s : State) : Host.Outcome State Fault Refusal :=
  match (s.tile tile).epis with
  | e :: _ => answer (if e.started then (s.farHeard reads.far).epiRun tile reads e else s)
  | [] => answer s

/-! ## CPY (R349 to R355) -/

def cpMode (ws : List Nat) : Nat := dfld ws 0 58 2
def cpElem (ws : List Nat) : Nat := 2 ^ dfld ws 0 56 2
def cpZero (ws : List Nat) : Bool := dfld ws 0 49 1 = 1
def cpRows (ws : List Nat) : Nat := dfld ws 4 32 32
def cpLen (ws : List Nat) : Nat := dfld ws 4 0 32

/-- Rows and row length of the destination. -/
def cpDstRows (ws : List Nat) : Nat := if cpMode ws = 0 then cpRows ws else cpLen ws / cpElem ws
def cpDstLen (ws : List Nat) : Nat := if cpMode ws = 0 then cpLen ws else cpRows ws * cpElem ws

/-- The source fields are valid (R352); they are ignored for ZERO. -/
def cpSrcValid (ws : List Nat) : Bool :=
  let a := dfld ws 1 0 64
  let st := dfld ws 3 32 32
  dfld ws 0 52 2 ≠ 3 && a % 64 = 0 && st % 64 = 0 &&
  (if cpMode ws = 1 then a % 4096 = 0 && dfld ws 0 55 1 = 1 && a < hearthEnd && st = 0 else cpLen ws ≤ st)

/-- A CPY descriptor is valid (R349, R352). -/
def cpValid (ws : List Nat) : Bool :=
  dfld ws 0 60 4 = 2 && cpMode ws ≠ 3 && (cpMode ws ≠ 0 || dfld ws 0 56 2 = 0) && dfld ws 0 50 2 ≠ 3 &&
  dfld ws 0 0 49 = 0 && ws.getD 5 0 = 0 && ws.getD 6 0 = 0 && ws.getD 7 0 = 0 &&
  cpLen ws ≠ 0 && cpLen ws % 64 = 0 && dfld ws 2 0 64 % 64 = 0 && dfld ws 3 0 32 % 64 = 0 &&
  cpRows ws ≠ 0 && cpRows ws ≤ 65536 && (cpMode ws = 0 || cpRows ws % 64 = 0) &&
  cpDstLen ws ≤ dfld ws 3 0 32 && (cpZero ws || cpSrcValid ws)

def cpSrc (ws : List Nat) : Extent :=
  if cpMode ws = 1 then ⟨true, dfld ws 1 0 64, 0, 1, cpRows ws * cpLen ws, false, dfld ws 0 52 2⟩
  else ⟨dfld ws 0 55 1 = 1, dfld ws 1 0 64, dfld ws 3 32 32, cpRows ws, cpLen ws, false, dfld ws 0 52 2⟩
def cpDst (ws : List Nat) : Extent := ⟨dfld ws 0 54 1 = 1, dfld ws 2 0 64, dfld ws 3 0 32, cpDstRows ws, cpDstLen ws, true, dfld ws 0 50 2⟩

/-- CPY: TYPE 0 (R161, R349). -/
def execCpy (i : Issue) (s : State) : Host.Outcome State Fault Refusal :=
  answer (s.descIssue (.cpy i) i (i.type = 0) true cpValid
    (fun ws => if cpZero ws then [cpDst ws] else [cpSrc ws, cpDst ws]) (fun s _ ws op =>
      s.updTile i.tile (fun t => { t with copies := t.copies ++ [{ words := ws, token := tokenOf i, op := op }] })))

/-- The address of a source byte: row, byte of the row (R351). -/
def cpByteAddr (ws : List Nat) (r b : Nat) : Nat :=
  if cpMode ws = 1 then dfld ws 1 0 64 + 4096 * (r / 64 * (cpLen ws / 64) + b / 64) + 64 * (r % 64) + b % 64
  else dfld ws 1 0 64 + r * dfld ws 3 32 32 + b

/-- A destination row. -/
def State.cpRow (s : State) (n : Nat) (far : FarBytes) (ws : List Nat) (c : Nat) : List (Byte × Bool) :=
  let glob := decide (cpMode ws = 1) || decide (dfld ws 0 55 1 = 1)
  if cpZero ws then List.replicate (cpDstLen ws) (0, false)
  else if cpMode ws = 0 then s.readRow n glob far (cpByteAddr ws c 0) (cpLen ws)
  else (List.range (cpRows ws)).flatMap (fun r =>
    (List.range (cpElem ws)).map (fun k => s.readAt n glob far (cpByteAddr ws r (c * cpElem ws + k))))

/-- A destination row of a copy that overlaps its source: the spec defines no result (R355). -/
def State.cpFreeRow (s : State) (ws : List Nat) (c : Nat) : List (Byte × Bool) :=
  (List.range (cpDstLen ws)).map (fun k => (BitVec.ofNat 8 (Config.freeValue (s.fresh + c * cpDstLen ws + k)), false))

/-- CPY_DONE: the copy's reads and writes are performed, poison moved unchanged, and its token completes when its last write has been
performed (R350, R351, R354, R495). -/
def execCpyDone (tile : Fin 160) (op : Nat) (reads : CpyReads) (s : State) : Host.Outcome State Fault Refusal :=
  match (s.tile tile).copies.find? (fun c => c.op = op) with
  | none => answer s
  | some c =>
    let ws := c.words
    let s1 := ((s.farHeard reads.far).upsets tile reads.lines).checkReads tile (if cpZero ws then [] else [cpSrc ws])
    let undef := !cpZero ws && (cpSrc ws).meets (cpDst ws)
    let rows := (List.range (cpDstRows ws)).map (fun r => if undef then s1.cpFreeRow ws r else s1.cpRow tile reads.far ws r)
    let s2 := rows.zipIdx.foldl (fun s r =>
      s.writeRow tile op (dfld ws 0 54 1 = 1) (dfld ws 0 50 2) (dfld ws 2 0 64 + r.2 * dfld ws 3 0 32) r.1) s1
    let s3 := if undef then { s2 with fresh := s2.fresh + cpDstRows ws * cpDstLen ws } else s2
    answer ((s3.updTile tile (fun t => { t with copies := t.copies.filter (fun d => d.op ≠ op) }.gotRows [cpSrc ws])).finishOp tile
      { op := op, ctx := 0, serial := 0, flags := 0, kind := .cpy })

end Sys2Proof.Machine
end

