-- ==== Sys2Proof/Machine/Registers.lean ====
section
/-! DEFINITION. Accesses to the register pages: the BAR0 map, reads and writes by access code, 64-bit pairs, the
shadow half, LOCK, fenced and dark pages, interrupts and flip registers (spec/00 R12, R13; spec/02). -/
namespace Sys2Proof.Machine

/-! ## The base map (R70, R71; spec/17 R580) -/

/-- What an offset names. -/
inductive Target where
  /-- a page, and the byte offset in it -/
  | page (p : Page) (off : Nat)
  | legacy (off : Nat)
  /-- a 32-bit word of the MSI-X table, and of the pending bits -/
  | table (word : Nat)
  | pba (word : Nat)
  /-- reserved space of the MSI-X structures -/
  | reservedSpace
  | unassigned
  deriving DecidableEq, Repr

/-- A page of a tile window (R71). -/
def tileTarget (n w o : Nat) : Target :=
  if w = 0 then .page (pgTil n) o
  else if w ≤ 8 then .page (pgSeq n (w - 1)) o
  else if w = 9 then .page (pgMxa n) o
  else if w = 0xA then .page (pgVec n) o
  else if w = 0xB then .page (pgTlm n) o
  else if w = 0xC then .page (pgSmkc (0x100 + n)) o
  else .unassigned

/-- A page of a partition window (R71). -/
def partTarget (n w o : Nat) : Target :=
  if w = 0 then .page (pgHrt n) o
  else if w = 1 then .page (pgHrtx n) o
  else if w = 3 then .page (pgSmkc (0x200 + n)) o
  else .unassigned

/-- A page of a window whose second page holds link counters. -/
def linkTarget (p : Page) (smk a : Nat) : Target :=
  if a < 0x1000 then .page p a else if a < 0x2000 then .page (pgSmkc smk) (a - 0x1000) else .unassigned

/-- The page of an instance region: base, stride of one page each, and instances. -/
def rowTarget (base n first : Nat) (k : Kind) (a : Nat) : Option Target :=
  if base ≤ a ∧ a < base + n * 0x1000 then some (.page ⟨k, first + (a - base) / 0x1000⟩ (a % 0x1000)) else none

/-- What a BAR0 offset names (R70, R71). -/
def bar0 (a : Nat) : Target :=
  let o := a % 0x1000
  if a < 0xA000 then
    .page ⟨[Kind.dev, .stk, .int, .sec, .lcy, .tnd, .trf, .thm, .pwr, .smk].getD (a / 0x1000) .dev, 0⟩ o
  else if a < 0xB000 then if o < 0x400 then .table (o / 4) else .reservedSpace
  else if a < 0xC000 then if o < 8 then .pba (o / 4) else .reservedSpace
  else if 0x01000000 ≤ a ∧ a < 0x01000000 + 160 * 0x10000 then
    tileTarget ((a - 0x01000000) / 0x10000) (a % 0x10000 / 0x1000) o
  else if 0x02000000 ≤ a ∧ a < 0x02000000 + 160 * 0x4000 then
    partTarget ((a - 0x02000000) / 0x4000) (a % 0x4000 / 0x1000) o
  else if 0x02800000 ≤ a ∧ a < 0x02800000 + 144 * 0x2000 then
    let n := (a - 0x02800000) / 0x2000
    linkTarget (pgGdc n) (0x300 + n) (a % 0x2000)
  else if 0x03800000 ≤ a ∧ a < 0x03810000 then linkTarget (pgCxp 0) 0x400 (a - 0x03800000)
  else if 0x03810000 ≤ a ∧ a < 0x03820000 then linkTarget (pgCxp 1) 0x401 (a - 0x03810000)
  else if 0x03830000 ≤ a ∧ a < 0x03840000 then linkTarget pgKnk 0x402 (a - 0x03830000)
  else if 0x03F00000 ≤ a ∧ a < 0x03F01000 then .legacy o
  else ((rowTarget 0x03000000 160 0 .flu a).orElse fun _ => (rowTarget 0x03100000 16 0x100 .flu a).orElse fun _ =>
    (rowTarget 0x03820000 8 0 .far a).orElse fun _ => rowTarget 0x03900000 16 0 .hob a).getD .unassigned

/-- What an access names; BAR2 holds the five queue blocks (spec/17 R580). -/
def targetAt (bar2 : Bool) (a : Nat) : Target :=
  if bar2 then if a < 0x5000 then .page (pgFq (a / 0x1000)) (a % 0x1000) else .unassigned else bar0 a

/-! ## Words of a page -/

/-- The part of a field that lies in 32-bit word w of its page: first bit of the field, first bit of the word, bits. -/
def fieldPart (f : Fld) (w : Nat) : Nat × Nat × Nat :=
  let lo := max f.bit (32 * w)
  let hi := min (f.bit + f.width) (32 * w + 32)
  (lo - f.bit, lo - 32 * w, hi - lo)

/-- The fields that lie in a word of a page. -/
def wordFields (k : Kind) (w : Nat) : List Fld :=
  (Reg.fieldsOf k).filter (fun f => decide (f.bit < 32 * w + 32) && decide (32 * w < f.bit + f.width))

/-- A word put together from a value for each field. -/
def joinWord (k : Kind) (w : Nat) (val : Fld → Nat) : Nat :=
  (wordFields k w).foldl (fun x f =>
    let d := fieldPart f w
    x + bitsAt (val f) d.1 d.2.2 * 2 ^ d.2.1) 0

/-! ## Fields that show other state -/

/-- The line of a page, as a bit. -/
def State.lineBit (s : State) (p : Page) : Bool := s.pageLine p

/-- INT_SRC and the summaries (R86): bit b of word i is that of number 32 i + b. -/
def maskWord (i n : Nat) (f : Nat → Bool) : Nat :=
  maskOf ((List.range 32).filter (fun b => decide (32 * i + b < n) && f (32 * i + b)))

/-- Does any page of a tile window assert? -/
def State.windowLine (s : State) (n : Nat) : Bool := (tilePages n).any s.pageLine

/-- A view of the INT page. -/
def State.intView (s : State) (f : Fld) : Option Nat :=
  if f = Reg.intSumFar then some (maskWord 0 8 (fun n => s.lineBit (pgFar n)))
  else if f = Reg.intSumHob then some (maskWord 0 16 (fun n => s.lineBit (pgHob n)))
  else if (List.range 3).any (fun i => f = Reg.intSrcSrc i) then some (maskWord (f.bit / 32 - 24) 80 s.sourceLine)
  else if (List.range 5).any (fun i => f = Reg.intSumTile i) then some (maskWord (f.bit / 32 - 28) 160 s.windowLine)
  else if (List.range 5).any (fun i => f = Reg.intSumHp i) then
    some (maskWord (f.bit / 32 - 36) 160 (fun n => s.lineBit (pgHrt n)))
  else if (List.range 5).any (fun i => f = Reg.intSumGc i) then
    some (maskWord (f.bit / 32 - 44) 144 (fun n => s.lineBit (pgGdc n)))
  else if (List.range 6).any (fun i => f = Reg.intSumFlu i) then
    some (maskWord (f.bit / 32 - 52) 176 (fun n => s.lineBit (pgFlu (if n < 160 then n else 0x100 + (n - 160)))))
  else none

/-- The lanes of a group parked on a lock, at a barrier, and on an event flag. -/
def Ctx.waiting (x : Ctx) (p : Wait → Bool) : BitVec 32 :=
  x.subs.foldl (fun m u => if p u.wait then m ||| u.mask else m) 0
def isPark : Wait → Bool
  | .park _ _ => true
  | .ready | .join | .bar _ _ | .evt _ | .tok _ | .fill _ _ | .atom _ | .fence _ | .mma _ => false
def isBar : Wait → Bool
  | .bar _ _ => true
  | .ready | .join | .park _ _ | .evt _ | .tok _ | .fill _ _ | .atom _ | .fence _ | .mma _ => false
def isEvt : Wait → Bool
  | .evt _ => true
  | .ready | .join | .bar _ _ | .park _ _ | .tok _ | .fill _ _ | .atom _ | .fence _ | .mma _ => false

/-- The barrier epoch of a group's oldest subgroup: the lowest of its subgroups. -/
def Ctx.oldEpoch (x : Ctx) : Nat :=
  match x.subs with
  | [] => 0
  | u :: l => l.foldl (fun m v => min m v.epoch) u.epoch

/-- A view of context c of a sequencer (spec/03 R136). -/
def ctxView (x : Ctx) (c : Nat) (f : Fld) : Option Nat :=
  if f = Reg.seqCtxEpoch c then some x.oldEpoch
  else if f = Reg.seqCtxDepth c then some x.stack.length
  else if f = Reg.seqCtxGroup c then some x.group
  else if f = Reg.seqCtxFrag c then some (b2n x.frag)
  else if f = Reg.seqCtxParked c then some (b2n (x.waiting isPark != 0))
  else if f = Reg.seqCtxAtBar c then some (b2n (x.waiting isBar != 0))
  else if f = Reg.seqCtxAtEvt c then some (b2n (x.waiting isEvt != 0))
  else if f = Reg.seqCtxValid c then some 1
  else if f = Reg.seqLive c then some x.live.toNat
  else if f = Reg.seqPark c then some (x.waiting isPark).toNat
  else none

/-- A view of a SEQ page; merged issue slots are timing: where R109 allows one their counts are free, and they are 0 where it
allows none (notes/assumptions/2.md). -/
def State.seqView (s : State) (inst : Nat) (f : Fld) : Option Nat :=
  let t := s.tile (inst / 8)
  let held := (List.range 4).filterMap (fun c => (SMap.find t.ctxs (4 * (inst % 8) + c)).map (fun x => (c, x)))
  if f = Reg.seqStateSubgroups then some ((held.map (fun e => e.2.subs.length)).foldl (· + ·) 0)
  else if f = Reg.seqStateCtxValid then some (maskOf (held.map (fun e => e.1)))
  else if f = Reg.seqStateMerged then some (if s.mayMerge (inst / 8) (inst % 8) then s.freeBits 4 else 0)
  else if f = Reg.seqMergeMerges then some (if s.rd ⟨.seq, inst⟩ f = 0 then 0 else s.freeBits 32)
  else held.findSome? (fun e => ctxView e.2 e.1 f)

/-- MXA_STATE.STATE (spec/05 R215). -/
def State.mxState (s : State) (n : Nat) : Nat :=
  let a := (s.tile n).mx
  if a.retired then 5
  else if !s.flag (pgMxa n) Reg.ctrlEnable then 6
  else if a.run.phase = .retryWait ∨ a.run.phase = .again then 3
  else if a.run.phase = .substWait then 4
  else if !a.descs.isEmpty then 1
  else if !a.frags.isEmpty then 2
  else 0

/-- Cycles of a wait that the model knows to have begun (notes/assumptions/30.md): 0 while it has not, else a free value, not 0. -/
def State.waited (s : State) (p : Page) (f : Fld) : Nat := if s.rd p f = 0 then 0 else max 1 (s.freeBits f.width)

/-- Cycles that a tile may have waited for the resources of its timing: known to be no fewer than what the model counts, and no more
than that while nothing has run; else free (notes/assumptions/30.md). -/
def State.mayHaveWaited (s : State) (n : Nat) (p : Page) (f : Fld) : Nat :=
  if (s.tile n).ran then satAdd (2 ^ f.width - 1) (s.rd p f) (s.freeBits f.width) else s.rd p f

/-- A view of an MXA page. -/
def State.mxaView (s : State) (n : Nat) (f : Fld) : Option Nat :=
  let a := (s.tile n).mx
  if f = Reg.mxaStateDescPend then some (s.tile n).mxPending
  else if f = Reg.mxaStateFtqValid ∨ f = Reg.mxaFtqValid then some a.ftq.length
  else if f = Reg.mxaState then some (s.mxState n)
  else if f = Reg.mxaFtqHead then some a.ftqHead
  else if f = Reg.mxaFtqHeadToken then some (match a.ftq with | [] => 0 | e :: _ => e.token)
  else if f = Reg.mxaFeedStallCycles then some (s.mayHaveWaited n (pgMxa n) f)
  else if f = Reg.mxaFtqStallCycles then some (s.waited (pgMxa n) f)
  else none

/-- A view of a VEC page: the stage of an epilogue within its streaming, the sections it holds in a cycle and cycles
waited for engine resources are timing, so they are free. -/
def State.vecView (s : State) (n : Nat) (f : Fld) : Option Nat :=
  let l := (s.tile n).epis
  if f = Reg.vecStateEpiPend then some (s.tile n).epiPending
  else if f = Reg.vecStateEpiState then
    some (match l with | [] => 0 | e :: _ => (if e.started then 3 else 1) + s.freeBits 1)
  else if f = Reg.vecStateEpiSec then
    some (match l with | [] => 0 | e :: _ => if e.started then s.freeBits 3 % 5 else 0)
  else if f = Reg.vecSecWaitCycles then some (s.mayHaveWaited n (pgVec n) f)
  else if f = Reg.vecEpiWaitCycles then some (s.waited (pgVec n) f)
  else none

/-- A view of a TLM page (spec/08 R294, R299). -/
def State.tlmView (s : State) (n : Nat) (f : Fld) : Option Nat :=
  let d := (s.tile n).dirtyCount
  if f = Reg.tlmStateDirty then some d
  else if f = Reg.tlmConflictCycles then some (s.mayHaveWaited n (pgTlm n) f)
  else if f = Reg.tlmDirtyWaitCycles then some (s.waited (pgTlm n) f)
  else if f = Reg.tlmStateCleaning then some (b2n (decide (0 < d) && decide (s.rd (pgTlm n) Reg.tlmCleanCleanAt ≤ d)))
  else none

/-- The broken-guarantee record of an entry (spec/12 R447). -/
def State.trfView (s : State) (f : Fld) : Option Nat :=
  match SMap.find s.hub.bgr (s.rd pgTrf Reg.trfBgrSelIndex) with
  | none => none
  | some r =>
    if f = Reg.trfBgrWord 0 then some r.w0 else if f = Reg.trfBgrWord 1 then some r.stk
    else if f = Reg.trfBgrWord 2 then some r.cycle else if f = Reg.trfBgrWord 3 then some r.slots else none

/-- A view of the THM page: the monitor that THM_MSEL selects (spec/20 R683). -/
def State.thmView (s : State) (f : Fld) : Option Nat :=
  let d := s.rd pgThm Reg.thmMselDie
  let i := s.rd pgThm Reg.thmMselIndex
  let shown := decide (d < 3) && decide (i < dieMons d)
  if f = Reg.thmMonEff then some (match s.effective d i with | some x => if shown then ofInt 16 x else 0 | none => 0)
  else if f = Reg.thmMonRaw then some (match s.mon d i with | some m => if shown then ofInt 16 m.reading else 0 | none => 0)
  else if f = Reg.thmMstatToohot then some (b2n (shown && decide (d = 1) && s.tooHot i))
  else if f = Reg.thmMstatBroken then some (match s.mon d i with | some m => b2n (shown && m.broken) | none => 0)
  else none

/-- A view of the PWR page: the telemetry page that PWR_RAILSEL selects (spec/19 R665). -/
def State.pwrView (s : State) (f : Fld) : Option Nat :=
  let k := s.rd pgPwr Reg.pwrRailselPage
  let x := if k < s.pmPages then SMap.getD s.power.pages k (0, 0, 0) else (0, 0, 0)
  if f = Reg.pwrRailVout then some x.1 else if f = Reg.pwrRailIout then some x.2.1
  else if f = Reg.pwrPmstatStatus then some x.2.2 else none

/-- A view of the SEC page: the measurement that SEC_MSEL selects (spec/21 R703). -/
def State.secView (s : State) (f : Fld) : Option Nat :=
  ((List.range 12).find? (fun i => f = Reg.secMdataData i)).map (fun i =>
    leNat (((s.meas (s.rd pgSec Reg.secMselM)).drop (4 * i)).take 4))

/-- A view of an FLU page (spec/10 R388). -/
def State.fluView (s : State) (page : Nat) (f : Fld) : Option Nat :=
  let p := pgFlu page
  let b := s.rd p Reg.fluBselBundle
  let l := s.rd p Reg.fluLselFlue
  let m := if b < fluBundles page then s.fluMask page b else 0
  let port := fun k => if k < fluPorts page then SMap.getD s.flues.ports (16 * page + k) 0 else 0
  if f = Reg.fluStatePstate then some ((List.range 10).foldl (fun x k => max x (port k)) 0)
  else if f = Reg.fluStateFaults then
    some (((List.range (fluBundles page)).map (s.fluFaults page)).foldl (· + ·) 0)
  else if f = Reg.fluStateSpares then
    some (((List.range (fluBundles page)).map (fun b => 4 - s.fluFaults page b)).foldl (· + ·) 0)
  else if f = Reg.fluBmapMask 0 then some (bitsAt m 0 32)
  else if f = Reg.fluBmapMask 1 then some (bitsAt m 32 32)
  else if f = Reg.fluBmap2Mask then some (bitsAt m 64 4)
  else if f = Reg.fluBstatMode then some (modeOf (popCount 68 m))
  else if f = Reg.fluBstatFaults then some (popCount 68 m)
  else if f = Reg.fluLcntFaulty then some (b2n (bitAt m l))
  else if f = Reg.fluLcntCount then
    some (if b < fluBundles page ∧ l < 68 then SMap.getD s.flues.counts (laneKey page b l) 0 else 0)
  else ((List.range 10).find? (fun k => f = Reg.fluPortsPort k)).map port

/-- Event codes that count cycles, slots or flits (spec/22 R716): the model does not show these. -/
def timedCode (inst code : Nat) : Bool :=
  if inst < 0x200 then [0, 2, 5, 7].contains code
  else if inst < 0x300 then [0, 7].contains code
  else if inst < 0x400 then [0, 1, 2, 3, 6].contains code
  else [0, 1, 5, 6, 7, 8].contains code

/-- A view of a counter page: a counter of an event that is not shown is free (notes/assumptions/2.md). -/
def State.smkcView (s : State) (inst : Nat) (f : Fld) : Option Nat :=
  ((List.range 8).find? (fun k => (f = Reg.smkCnt k ∨ f = Reg.smkSnap k) ∧ bitAt (s.rd (pgSmkc inst) Reg.smkCctrlEn) k ∧
    timedCode inst (s.rd (pgSmkc inst) (Reg.smkEvselEv k)))).map (fun _ => s.freeBits 64)

/-- The value of a field that shows other state than its own. -/
def State.viewOf (s : State) (p : Page) (f : Fld) : Option Nat :=
  match p.kind with
  | .int => s.intView f
  | .sec => s.secView f
  | .trf => s.trfView f
  | .thm => s.thmView f
  | .pwr => s.pwrView f
  | .smk => if f = Reg.smkStateSusp then some (b2n (decide (s.rd pgKnk Reg.knkStatePstate = 5))) else none
  | .til => if f = Reg.tilStateResident then some (s.tile p.inst).ctxs.length else none
  | .seq => s.seqView p.inst f
  | .mxa => s.mxaView p.inst f
  | .vec => s.vecView p.inst f
  | .tlm => s.tlmView p.inst f
  | .hrt =>
    if f = Reg.hrtHomemapMapid then some s.pmapId else if f = Reg.hrtConflictCycles then some (s.freeBits 32) else none
  | .flu => s.fluView p.inst f
  | .hob => if f = Reg.hobVIout then some (if s.rd p Reg.hobState = 1 then s.freeBits 16 else 0) else none
  | .smkc => s.smkcView p.inst f
  | .dev | .stk | .lcy | .tnd | .hrtx | .gdc | .cxp | .far | .knk | .fq => none

/-- The value a read of a field returns (R12): a write-only field reads 0. -/
def State.readField (s : State) (p : Page) (f : Fld) : Nat :=
  if f.acc = .wo then 0 else (s.viewOf p f).getD (s.rd p f)

/-! ## Reads (R12, R53, R58 to R60, R65, R66) -/

/-- PAGE_CAP of a kind of page (R53). -/
def capWord (k : Kind) : Nat := 8 * b2n (Reg.hasFlip k) + 4 * b2n (Reg.hasEnable k) + 2 + b2n (Reg.hasShadow k)

/-- Is the field written through a shadow? ENABLE is one only where PAGE_CAP.HAS_ENABLE is 1 (R53). -/
def shadowed (k : Kind) (f : Fld) : Bool := decide (f.acc = .rws) && (decide (f ≠ Reg.ctrlEnable) || Reg.hasEnable k)

/-- The value of a 32-bit word of a page, before the read has any effect. -/
def State.wordAt (s : State) (p : Page) (off : Nat) : Nat :=
  let w := off / 4
  if p.kind = .fq then joinWord p.kind w (s.readField p)
  else if 0x800 ≤ off then joinWord p.kind (w - 0x200) (fun f => if shadowed p.kind f then s.shadowOf p f else 0)
  else if off = 0 then pageId p
  else if off = 4 then capWord p.kind
  else
    let x := joinWord p.kind w (s.readField p)
    if off = 0xC then
      x + 8 * b2n (s.shut p && !s.flag p Reg.statFenced) + 2 * b2n (s.flag p Reg.errValid || decide (s.rd p Reg.errCount ≠ 0)) + s.rd p Reg.ctrlEnable
    else x

/-- A number for each page, for latches. -/
def pageKey (p : Page) : Nat := Reg.kindIndex p.kind + 64 * p.inst

/-- A pair that has a word as its low or high half (R58, R59). -/
def pairLo (k : Kind) (w : Nat) : Option Fld := (Reg.fieldsOf k).find? (fun f => decide (f.width = 64) && decide (f.bit = 32 * w))
def pairHi (k : Kind) (w : Nat) : Option Fld := (Reg.fieldsOf k).find? (fun f => decide (f.width = 64) && decide (f.bit + 32 = 32 * w))

/-- The words of a _LO and of a _HI register: those of the 64-bit fields, and KNK_RELOAD, whose halves hold fields of their
own (R58; spec/16 R566). -/
def loWord (k : Kind) (w : Nat) : Bool := (pairLo k w).isSome || (decide (k = .knk) && decide (4 * w = Reg.regOff Reg.knkReloadLoValid))
def hiWord (k : Kind) (w : Nat) : Bool := (pairHi k w).isSome || (decide (k = .knk) && decide (4 * w = Reg.regOff Reg.knkReloadHiWork))

/-- What a read leaves behind: ROC fields of the word clear, and the latch of the requester follows R58. -/
def State.afterRead (s : State) (tender : Bool) (p : Page) (off : Nat) : State :=
  let w := off / 4
  let s1 := (wordFields p.kind w).foldl (fun (s : State) f => if f.acc = .roc then s.wr p f 0 else s) s
  let key := 2 * pageKey p + b2n tender
  let latch := if loWord p.kind w then (w + 1, s.wordAt p (4 * w + 4)) else (0, 0)
  { s1 with latches := SMap.setD s1.latches key (0, 0) latch, fresh := s1.fresh + 1 }

/-- The value a requester reads from a word: a high half that its last read latched, or the live word. -/
def State.readWord (s : State) (tender : Bool) (p : Page) (off : Nat) : Nat :=
  let latch := SMap.getD s.latches (2 * pageKey p + b2n tender) (0, 0)
  if hiWord p.kind (off / 4) && decide (latch.1 = off / 4) then latch.2 else s.wordAt p off

/-- A page that answers only PAGE_ID and PAGE_STAT: fenced, or dark and fenced (R65, R66; a resting hob's pages have
FENCED 0, spec/19 R651). -/
def State.closed (s : State) (p : Page) : Bool := s.shut p

/-- DEV_BAD_ADDR captures an offset (R56, R57, R746). -/
def State.badAddr (s : State) (a : Nat) : State := s.wr pgDev Reg.devBadAddrOffset a

/-- PAGE_ID or PAGE_STAT is at an offset, or in the second word of a 64-bit access to it. -/
def showsClosed (off : Nat) (wide : Bool) : Bool := off = 0 || off = 0xC || (wide && off = 8)

/-- An access to a closed page at BAR0 offset a: DARK_ACCESS, and code 0x05 unless it reads PAGE_ID or PAGE_STAT
(R66, R746). An access of 64 bits is one access, and one that reads PAGE_ID or PAGE_STAT with another word is no error
(notes/assumptions/66.md). -/
def State.closedAccess (s : State) (p : Page) (off a : Nat) (wide write : Bool) : State :=
  let s1 := if s.darkPage p then s.setCause pgDev Reg.causeDevDarkAccess else s
  if !write && showsClosed off wide then s1 else (s1.err pgDev 0x05 off).badAddr a

/-- An access to an unassigned offset (R57). -/
def State.unmappedAccess (s : State) (bar2 : Bool) (a : Nat) : State :=
  if bar2 then s else (s.setCause pgDev Reg.causeDevUnmapped).badAddr a

/-- A read of one word: the value, and the state after it. What an access as a whole sets is `State.badTarget`'s. -/
def State.read32 (s : State) (tender bar2 : Bool) (a : Nat) : Nat × State :=
  match targetAt bar2 a with
  | .page p off =>
    if s.closed p then (if showsClosed off false then s.wordAt p off else 0, s)
    else (s.readWord tender p off, s.afterRead tender p off)
  | .legacy off => (s.legacy off, s.legacyDrawn off)
  | .table w => (SMap.getD s.msixTable w (if w % 4 = 3 then 1 else 0), s)
  | .pba w => (maskWord w 64 (fun v => SMap.getD s.msixPend v false), s)
  | .reservedSpace => (0, s)
  | .unassigned => (0, s)

/-- What an access, of one or two words, sets at a target that does not take it, and at the legacy page (R57, R66, R83, R746). -/
def State.badTarget (s : State) (a : Access) (wide write : Bool) : State :=
  match targetAt a.bar2 a.off.toNat with
  | .page p off => if s.closed p then s.closedAccess p off a.off.toNat wide write else s
  | .legacy _ => if write then s.setCause pgDev Reg.causeDevLegacyWrite else s
  | .unassigned => s.unmappedAccess a.bar2 a.off.toNat
  | .table _ => s
  | .pba _ => s
  | .reservedSpace => s

/-- A read of one or two words, low word first, answered on the interface. -/
def State.readAccess (s : State) (a : Access) (wide : Bool) : State :=
  let lo := s.read32 a.tender a.bar2 a.off.toNat
  if wide then
    let hi := lo.2.read32 a.tender a.bar2 (a.off.toNat + 4)
    (hi.2.badTarget a true false).emit (.readData (lo.1 + 2 ^ 32 * hi.1) 64 false)
  else (lo.2.badTarget a false false).emit (.readData lo.1 32 false)

/-! ## Interrupt registers (R75 to R80, R86) -/

/-- A write to INT_ACK re-arms a vector; a routed source still asserted messages at once (R78). -/
def State.intAck (s : State) (v : Nat) : State :=
  ((List.range 80).filter (fun n => s.rd pgInt (Reg.intRouteVector n) = v)).foldl State.trySource (s.arm v)

/-- A route of a source: a value of 48 to 63 is stored as 0, with ROUTE_BAD (R75). -/
def State.routeOne (s : State) (n v : Nat) : State :=
  if v < 48 then s.wr pgInt (Reg.intRouteVector n) v
  else (s.wr pgInt (Reg.intRouteVector n) 0).setCause pgInt Reg.causeIntRouteBad

/-- INT_CTRL.EN: when delivery becomes possible, every asserted source is messaged (R80). -/
def State.intCtrl (s : State) (en : Bool) : State :=
  let s1 := s.wr pgInt Reg.intCtrlEn (b2n en)
  if en then s1.trySources else s1

/-- A word of the MSI-X table is written; what is no longer masked is sent (R79). -/
def State.tableWrite (s : State) (w v : Nat) : State :=
  ({ s with msixTable := SMap.setD s.msixTable w (if w % 4 = 3 then 1 else 0) v }).flushPending

/-! ## Writes of one field, by its access code (R12, R36, R47, R54, R60 to R63) -/

/-- Pair logic goes on with the link up: the record is sent; it goes off (spec/15 R519, spec/16 R566). -/
def State.pairEnWrite (s : State) (v : Nat) : State :=
  let s1 := s.wr pgKnk Reg.knkCtrlPairEn v
  if v = 0 then s1.pairOff
  else if s.pairEn ∨ !s.flag pgKnk Reg.knkStateLinkUp then s1 else s1.sendRecord

/-- An RW field takes a value at once. -/
def State.rwWrite (s : State) (p : Page) (f : Fld) (v : Nat) : State :=
  match p.kind with
  | .int =>
    if f = Reg.intCtrlEn then s.intCtrl (decide (v = 1))
    else match (List.range 80).find? (fun n => f = Reg.intRouteVector n) with
      | some n => (s.routeOne n v).trySource n
      | none => s.wr p f v
  | .smk =>
    if (f = Reg.smkRingBase ∨ f = Reg.smkRingSizeLog) ∧ s.rd p Reg.smkCtrlDest = 1 then s.err p 0x03 (Reg.regOff f)
    else if f = Reg.smkRingHead then (s.wr p f v).flushOn
    else s.wr p f v
  | .tnd => if f = Reg.tndCtrlFastNext then s.fastNextWrite (decide (v = 1)) else s.wr p f v
  | .knk => if f = Reg.knkCtrlPairEn then s.pairEnWrite v else s.wr p f v
  | .fq =>
    if f = Reg.fqStateEn then s.queueEnable p.inst (decide (v = 1))
    else if f = Reg.fqSqBase ∧ (p.inst = 4 ∨ s.flag p Reg.fqStateEn) then s
    else if f = Reg.fqSizeSqLog ∧ p.inst = 4 then s
    else s.wr p f v
  | .dev | .stk | .sec | .lcy | .trf | .thm | .pwr | .til | .seq | .mxa | .vec | .tlm | .hrt | .hrtx | .gdc | .flu | .cxp
  | .far | .hob | .smkc => s.wr p f v

/-- INT_RAW, INT_EN and the other fields of RW access: a cause that reaches the page line may message (R73, R77). -/
def State.rwField (s : State) (p : Page) (f : Fld) (v : Nat) : State :=
  if p.kind ≠ .fq ∧ f = Reg.intEn then (s.wr p f (v &&& Reg.causeMask p.kind)).lineRaised p (s.sourceLine (sourceOf p))
  else s.rwWrite p f v

/-- An RWS field lands in its shadow; a determinism-record field ignores the host while a plan is active (R47). -/
def State.rwsField (s : State) (tender : Bool) (p : Page) (f : Fld) (v : Nat) : State :=
  if !shadowed p.kind f then s
  else if p.kind = .vec ∧ f = Reg.vecFill ∧ !tender ∧ s.plans.active.isSome then
    if s.shadowOf p f = v then s else s.err p 0x02 (Reg.regOff f)
  else if p.kind = .stk ∧ f = Reg.stkPeriod then s.periodWrite v
  else if p.kind = .smk ∧ f = Reg.smkHregRegion then (s.setShadow p f v).checkHreg v
  else if p.kind = .knk ∧ f = Reg.knkCtrlRoleReq ∧ s.shadowOf p f ≠ v then
    (s.setShadow p f v).updPair (fun x => { x with rolePair := none })
  else s.setShadow p f v

/-- An RWL field: ignored once LOCK is 1, and captured when it would change (R54, R63). The CXP1 page has no push
area (spec/17 R598). -/
def State.rwlField (s : State) (p : Page) (f : Fld) (v : Nat) : State :=
  if p.kind = .cxp ∧ p.inst = 1 ∧ f = Reg.cxpIngBase then s
  else if !s.flag p Reg.ctrlLock then s.wr p f v
  else if s.rd p f = v then s
  else s.err p 0x01 (Reg.regOff f)

/-- A W1C field: ones clear; VALID of ERR_FIRST takes OVERFLOW with it, and that of THM_TRIP the whole record. -/
def State.w1cField (s : State) (p : Page) (f : Fld) (v : Nat) : State :=
  let left := s.rd p f - (s.rd p f &&& v)
  if p.kind = .thm ∧ f = Reg.thmTripValid then if v = 1 then s.tripClear else s
  else if f = Reg.errValid ∧ v = 1 then s.wrs p [(Reg.errValid, 0), (Reg.errOverflow, 0)]
  else s.wr p f left

/-- Commands: a write of 1 acts as the field's row does. What the world outside adds is not in a register write: the device
that RESCAN finds and the entries behind SQ_TAIL come with their rows, and what RESYNC_TX learns of the partner is free
(notes/assumptions/29.md). -/
def State.woField (s : State) (p : Page) (f : Fld) (v : Nat) : State :=
  if v = 0 ∧ p.kind ≠ .int ∧ p.kind ≠ .fq then s
  else match p.kind with
  | .int => if f = Reg.intAckVector then s.intAck v else s
  | .flu => if f = Reg.fluCmdSweep then s.askSweeps p.inst else s
  | .cxp => if f = Reg.cxpCtrlRetrain then s.cxpRetrain p.inst else s
  | .smk => if f = Reg.smkCmdFlush then s.smkFlush else s
  | .smkc => if f = Reg.smkCctrlClr then s.counterClr p.inst else s
  | .tnd => if f = Reg.tndCmdTrecDiscard then s.trecDiscard else s
  | .knk =>
    if f = Reg.knkCmdKeep then s.keep
    else if f = Reg.knkCmdRetrain then s.knkRetrain
    else if f = Reg.knkCmdHandoff then s.handOff false
    else if f = Reg.knkCmdResyncTx then (s.resyncTx (decide (s.freeBits 1 = 1))).tookFree
    else s
  | .far =>
    if f = Reg.farCmdSanitize then s.sanitizeWrite p.inst
    else if f = Reg.farCmdRescan then s.rescanWrite p.inst
    else s
  | .fq =>
    if f = Reg.fqCqHead then s.cqHeadWrite p.inst v
    else if f = Reg.fqSqTail then s.sqTailWrite p.inst v [] false
    else s
  | .dev | .stk | .sec | .lcy | .trf | .thm | .pwr | .til | .seq | .mxa | .vec | .tlm | .hrt | .hrtx | .gdc | .hob => s

/-- A write of a field. -/
def State.writeField (s : State) (tender : Bool) (p : Page) (f : Fld) (v : Nat) : State :=
  match f.acc with
  | .ro => s
  | .roc => s
  | .rw => s.rwField p f v
  | .rws => s.rwsField tender p f v
  | .rwl => s.rwlField p f v
  | .w1c => s.w1cField p f v
  | .wo => s.woField p f v

/-! ## Writes of a word (R13, R54, R59, R61) -/

/-- The bits of a word that are not reserved (R13, R53). -/
def definedBits (k : Kind) (off : Nat) : Nat :=
  if k ≠ .fq ∧ off = 0 then 0xFFFFFFFF
  else if k ≠ .fq ∧ off = 4 then 0xFFFF000F
  else if k ≠ .fq ∧ off = 8 then 0xFFFF0003
  else if k ≠ .fq ∧ off = 0xC then 0xFFFF003F
  else if k ≠ .fq ∧ (off = 0x10 ∨ off = 0x14) then Reg.causeMask k
  else joinWord k (off / 4) (fun f => 2 ^ f.width - 1)

/-- A writable pair (R59). -/
def writablePair (f : Fld) : Bool :=
  decide (f.width = 64) && (decide (f.acc = .rw) || decide (f.acc = .rwl) || decide (f.acc = .rws))

/-- A write to _LO of a writable pair is held (R59). -/
def State.holdLo (s : State) (p : Page) (f : Fld) (v : Nat) : State :=
  { s with heldLo := SMap.ins s.heldLo (regKey p f) v }

/-- The _LO value in effect, also of an RWS pair whose shadow holds another (R59). -/
def State.loNow (s : State) (p : Page) (f : Fld) : Nat := s.rd p f % 2 ^ 32

/-- A write to _HI commits both halves (R59). -/
def State.commitPair (s : State) (tender : Bool) (p : Page) (f : Fld) (v : Nat) : State :=
  let lo := (SMap.find s.heldLo (regKey p f)).getD (s.loNow p f)
  ({ s with heldLo := SMap.del s.heldLo (regKey p f) }).writeField tender p f (lo + 2 ^ 32 * v)

/-- One field of a written word. -/
def State.writePart (s : State) (tender : Bool) (p : Page) (w v : Nat) (f : Fld) : State :=
  let d := fieldPart f w
  if writablePair f then
    if f.bit = 32 * w then s.holdLo p f v else s.commitPair tender p f v
  else if f.width = 64 then s
  else s.writeField tender p f (bitsAt v d.2.1 d.2.2)

/-- The ARM field of a page with a flip register (R53; spec/14 R509). -/
def flipArm (k : Kind) : Option Fld :=
  match k with
  | .mxa => some Reg.mxaFlipArm
  | .tlm => some Reg.tlmFlipArm
  | .hrt => some Reg.hrtFlipArm
  | .gdc => some Reg.gdcFlipArm
  | .flu => some Reg.fluFlipArm
  | .cxp => some Reg.cxpFlipArm
  | .knk => some Reg.knkFlipArm
  | .dev | .stk | .int | .sec | .lcy | .tnd | .trf | .thm | .pwr | .smk | .til | .seq | .vec | .hrtx | .far | .hob | .smkc
  | .fq => none

/-- A write of ARM = 1 taints, is logged, and counts as a fault of the stoke (spec/14 R509; spec/16 R550). -/
def State.armFlip (s : State) (p : Page) (off v : Nat) : State :=
  match flipArm p.kind with
  | some f => if Reg.regOff f = off ∧ bitAt v 31 then (s.inject p off v).logFault 3 else s
  | none => s

/-- A 1 written to a reserved field (R13, R54). The queue blocks have no error capture. -/
def State.reservedErr (s : State) (p : Page) (off v : Nat) : State :=
  if p.kind = .fq ∨ v &&& definedBits p.kind off = v then s else s.err p 0x04 off

/-- A write of a word of an open page; its errors are of one cycle (R68). STK_CMD is taken whole (spec/01 R50). -/
def State.writeWord (s : State) (tender : Bool) (p : Page) (off v : Nat) : State :=
  if p.kind ≠ .fq ∧ 0x800 ≤ off then
    let w := off / 4 - 0x200
    ((wordFields p.kind w).filter (shadowed p.kind)).foldl (fun (s : State) f => s.writePart tender p w v f) s
  else
    let s1 := if p.kind = .stk ∧ off = 0x044 then s.stkCmd v
      else ((wordFields p.kind (off / 4)).foldl (fun (s : State) f => s.writePart tender p (off / 4) v f) s).armFlip p off v
    s.sameCycle s1 p (fun t => t.reservedErr p off v)

/-- A write of a page, which a closed page ignores (R65, R66). -/
def State.pageWrite (s : State) (tender : Bool) (p : Page) (off v : Nat) : State :=
  if s.closed p then s else s.writeWord tender p off v

/-- A write of one word. -/
def State.write32 (s : State) (tender bar2 : Bool) (a v : Nat) : State :=
  match targetAt bar2 a with
  | .page p off => if s.closed p then s else s.writeWord tender p off v
  | .legacy _ => s
  | .table w => s.tableWrite w v
  | .pba _ => s
  | .reservedSpace => s
  | .unassigned => s

/-- The page whose errors an access may raise. -/
def errPage (a : Access) : Page :=
  match targetAt a.bar2 a.off.toNat with
  | .page p _ => p
  | .legacy _ => pgDev
  | .table _ => pgDev
  | .pba _ => pgDev
  | .reservedSpace => pgDev
  | .unassigned => pgDev

/-- A write of one or two words, low word first; its errors are of one cycle (R68). -/
def State.writeAccess (s : State) (a : Access) (wide : Bool) (v : Nat) : State :=
  let s1 := (s.badTarget a wide true).write32 a.tender a.bar2 a.off.toNat (bitsAt v 0 32)
  if wide then s.sameCycle s1 (errPage a) (fun t => t.write32 a.tender a.bar2 (a.off.toNat + 4) (bitsAt v 32 32)) else s1

/-- The widths and alignments that R55 accepts. -/
def widthOk (off bytes : Nat) : Bool := (decide (bytes = 4) && decide (off % 4 = 0)) || (decide (bytes = 8) && decide (off % 8 = 0))

/-- The bytes of an access of one or two words. -/
def accBytes (wide : Bool) : Nat := if wide then 8 else 4

/-- An access of a bad width or alignment (R56). -/
def State.badWidth (s : State) (a : Access) (bytes : Nat) (write : Bool) : State :=
  let s1 := (s.setCause pgDev Reg.causeDevBadWidth)
  let s2 := if a.bar2 then s1 else s1.badAddr a.off.toNat
  if write then s2 else s2.emit (.readData 0 (8 * bytes) false)

/-- A read or a write of one or two words, after the width check of R55 and R56; with the rails off nothing answers (spec/00
R4). -/
def State.access (s : State) (a : Access) (wide write : Bool) (v : Nat) : State :=
  if !s.mod.pwrGood then s
  else if !widthOk a.off.toNat (accBytes wide) then s.badWidth a (accBytes wide) write
  else if write then s.writeAccess a wide v
  else s.readAccess a wide

/-! ## The commands -/

/-- REGISTER_WRITE (R12). -/
def execRegisterWrite (a : Access) (wide : Bool) (value : BitVec 64) (s : State) : Host.Outcome State Fault Refusal :=
  answer (s.access a wide true value.toNat)

/-- ROC_READ: a read; ROC fields of the words read clear (R12). -/
def execRocRead (a : Access) (wide : Bool) (s : State) : Host.Outcome State Fault Refusal :=
  answer (s.access a wide false 0)

/-- The target is a word of a page that holds a half of a pair. -/
def isPairWord (a : Access) (half : Kind → Nat → Bool) : Bool :=
  match targetAt a.bar2 a.off.toNat with
  | .page p off => half p.kind (off % 0x800 / 4)
  | .legacy _ | .table _ | .pba _ | .reservedSpace | .unassigned => false

/-- PAIR_LO_READ (R58). -/
def execPairLoRead (a : Access) (s : State) : Host.Outcome State Fault Refusal :=
  answer (if isPairWord a loWord then s.access a false false 0 else s)

/-- PAIR_LO_WRITE (R59). -/
def execPairLoWrite (a : Access) (value : BitVec 32) (s : State) : Host.Outcome State Fault Refusal :=
  answer (if isPairWord a loWord then s.access a false true value.toNat else s)

/-- PAIR_HI_WRITE (R59). -/
def execPairHiWrite (a : Access) (value : BitVec 32) (s : State) : Host.Outcome State Fault Refusal :=
  answer (if isPairWord a hiWord then s.access a false true value.toNat else s)

/-- BAD_WIDTH_ACCESS (R56). -/
def execBadWidthAccess (a : Access) (bytes : Nat) (write : Bool) (s : State) : Host.Outcome State Fault Refusal :=
  answer (if widthOk a.off.toNat bytes || !s.mod.pwrGood then s else s.badWidth a bytes write)

/-- UNMAPPED_ACCESS (R57). -/
def execUnmappedAccess (a : Access) (wide write : Bool) (s : State) : Host.Outcome State Fault Refusal :=
  answer (if targetAt a.bar2 a.off.toNat = .unassigned then s.access a wide write 0 else s)

/-- The target is a closed page, dark or not. -/
def State.closedTarget (s : State) (a : Access) (dark : Bool) : Bool :=
  match targetAt a.bar2 a.off.toNat with
  | .page p _ => s.closed p && (!dark || s.darkPage p)
  | .legacy _ | .table _ | .pba _ | .reservedSpace | .unassigned => false

/-- FENCED_PAGE_ACCESS (R65, R746). -/
def execFencedPageAccess (a : Access) (wide write : Bool) (s : State) : Host.Outcome State Fault Refusal :=
  answer (if s.closedTarget a false then s.access a wide write 0 else s)

/-- DARK_PAGE_ACCESS (R66, R746). -/
def execDarkPageAccess (a : Access) (wide write : Bool) (s : State) : Host.Outcome State Fault Refusal :=
  answer (if s.closedTarget a true then s.access a wide write 0 else s)

/-- LEGACY_PAGE_WRITE: a write of the CX-3 legacy page is ignored (R83). -/
def execLegacyPageWrite (off : BitVec 12) (value : BitVec 32) (s : State) : Host.Outcome State Fault Refusal :=
  answer (s.access { tender := false, bar2 := false, off := 0x03F00000 + off.zeroExtend 32 } false true value.toNat)

/-- INT_ACK (R78). -/
def execIntAck (vector : BitVec 6) (s : State) : Host.Outcome State Fault Refusal := answer (s.intAck vector.toNat)

/-- INT_ROUTE_WRITE: one INT_ROUTE register, four routes (R75, R86). -/
def execIntRouteWrite (index : Fin 20) (value : BitVec 32) (s : State) : Host.Outcome State Fault Refusal :=
  answer (s.writeWord false pgInt (0x100 + 4 * index.val) value.toNat)

/-- INT_CTRL_WRITE (R80). -/
def execIntCtrlWrite (en : Bool) (s : State) : Host.Outcome State Fault Refusal := answer (s.intCtrl en)

/-- MSIX_UNMASK: the mask bit of a vector's table entry clears (R79). -/
def execMsixUnmask (vector : Fin 64) (s : State) : Host.Outcome State Fault Refusal :=
  answer (s.tableWrite (4 * vector.val + 3) 0)

/-- MXA_FLIP (spec/05 R217, spec/14 R509). -/
def execMxaFlip (tile : Fin 160) (value : BitVec 32) (s : State) : Host.Outcome State Fault Refusal :=
  answer (s.pageWrite false (pgMxa tile) (Reg.regOff Reg.mxaFlipArm) value.toNat)
/-- TLM_FLIP (spec/08 R301). -/
def execTlmFlip (tile : Fin 160) (value : BitVec 32) (s : State) : Host.Outcome State Fault Refusal :=
  answer (s.pageWrite false (pgTlm tile) (Reg.regOff Reg.tlmFlipArm) value.toNat)
/-- HRT_FLIP (spec/09 R362). -/
def execHrtFlip (part : Fin 160) (value : BitVec 32) (s : State) : Host.Outcome State Fault Refusal :=
  answer (s.pageWrite false (pgHrt part) (Reg.regOff Reg.hrtFlipArm) value.toNat)
/-- FLU_FLIP (spec/10 R390). -/
def execFluFlip (page : BitVec 12) (value : BitVec 32) (s : State) : Host.Outcome State Fault Refusal :=
  answer (if fluPages.contains page.toNat then
    s.pageWrite false (pgFlu page.toNat) (Reg.regOff Reg.fluFlipArm) value.toNat else s)
/-- GDC_FLIP (spec/11 R423). -/
def execGdcFlip (chan : Fin 144) (value : BitVec 32) (s : State) : Host.Outcome State Fault Refusal :=
  answer (s.pageWrite false (pgGdc chan) (Reg.regOff Reg.gdcFlipArm) value.toNat)
/-- KNK_FLIP (spec/16 R568). -/
def execKnkFlip (value : BitVec 32) (s : State) : Host.Outcome State Fault Refusal :=
  answer (s.pageWrite false pgKnk (Reg.regOff Reg.knkFlipArm) value.toNat)
/-- CXP_FLIP (spec/17 R600). -/
def execCxpFlip (port : Fin 2) (value : BitVec 32) (s : State) : Host.Outcome State Fault Refusal :=
  answer (s.pageWrite false (pgCxp port) (Reg.regOff Reg.cxpFlipArm) value.toNat)

end Sys2Proof.Machine
end

