-- ==== Sys2Proof/Machine/Dispatch.lean ====
section
/-! DEFINITION. The meaning of every command: one arm per constructor of Instr. -/
namespace Sys2Proof.Machine

def exec (i : Instr) (s : State) : Host.Outcome State Fault Refusal :=
  match i with
  | .stokeEvent lastUs => Sys2Proof.Machine.execStokeEvent lastUs s
  | .stokeSyncInEdge cycle => Sys2Proof.Machine.execStokeSyncInEdge cycle s
  | .remapWindow found => Sys2Proof.Machine.execRemapWindow found s
  | .crackMeasure readings => Sys2Proof.Machine.execCrackMeasure readings s
  | .stkQuench cyc => Sys2Proof.Machine.execStkQuench cyc s
  | .stkPeriodWrite value => Sys2Proof.Machine.execStkPeriodWrite value s
  | .launchIssue tile cyc => Sys2Proof.Machine.execLaunchIssue tile cyc s
  | .waitIssue tile cyc => Sys2Proof.Machine.execWaitIssue tile cyc s
  | .markIssue tile cyc => Sys2Proof.Machine.execMarkIssue tile cyc s
  | .workListEnd tile cyc => Sys2Proof.Machine.execWorkListEnd tile cyc s
  | .entryDeadline tile cyc => Sys2Proof.Machine.execEntryDeadline tile cyc s
  | .add iss => Sys2Proof.Machine.execAdd iss s
  | .sub iss => Sys2Proof.Machine.execSub iss s
  | .mul iss => Sys2Proof.Machine.execMul iss s
  | .mulhi iss => Sys2Proof.Machine.execMulhi iss s
  | .fma iss => Sys2Proof.Machine.execFma iss s
  | .min iss => Sys2Proof.Machine.execMin iss s
  | .max iss => Sys2Proof.Machine.execMax iss s
  | .and iss => Sys2Proof.Machine.execAnd iss s
  | .or iss => Sys2Proof.Machine.execOr iss s
  | .xor iss => Sys2Proof.Machine.execXor iss s
  | .shl iss => Sys2Proof.Machine.execShl iss s
  | .shr iss => Sys2Proof.Machine.execShr iss s
  | .cmp iss => Sys2Proof.Machine.execCmp iss s
  | .vecSel iss => Sys2Proof.Machine.execVecSel iss s
  | .cvt iss => Sys2Proof.Machine.execCvt iss s
  | .vecDiv iss => Sys2Proof.Machine.execVecDiv iss s
  | .vecSqrt iss => Sys2Proof.Machine.execVecSqrt iss s
  | .vecPack iss => Sys2Proof.Machine.execVecPack iss s
  | .vecUnpk iss => Sys2Proof.Machine.execVecUnpk iss s
  | .mov iss => Sys2Proof.Machine.execMov iss s
  | .abs iss => Sys2Proof.Machine.execAbs iss s
  | .neg iss => Sys2Proof.Machine.execNeg iss s
  | .vecFn iss => Sys2Proof.Machine.execVecFn iss s
  | .popc iss => Sys2Proof.Machine.execPopc iss s
  | .clz iss => Sys2Proof.Machine.execClz iss s
  | .sclFlags iss => Sys2Proof.Machine.execSclFlags iss s
  | .sclCyc iss => Sys2Proof.Machine.execSclCyc iss s
  | .vecVote iss => Sys2Proof.Machine.execVecVote iss s
  | .vecBcast iss => Sys2Proof.Machine.execVecBcast iss s
  | .vecShfl iss => Sys2Proof.Machine.execVecShfl iss s
  | .vecPerm iss => Sys2Proof.Machine.execVecPerm iss s
  | .vecRed iss => Sys2Proof.Machine.execVecRed iss s
  | .vecScan iss => Sys2Proof.Machine.execVecScan iss s
  | .movK iss => Sys2Proof.Machine.execMovK iss s
  | .ld iss => Sys2Proof.Machine.execLd iss s
  | .st iss => Sys2Proof.Machine.execSt iss s
  | .atomAdd iss => Sys2Proof.Machine.execAtomAdd iss s
  | .atomMin iss => Sys2Proof.Machine.execAtomMin iss s
  | .atomMax iss => Sys2Proof.Machine.execAtomMax iss s
  | .atomAnd iss => Sys2Proof.Machine.execAtomAnd iss s
  | .atomOr iss => Sys2Proof.Machine.execAtomOr iss s
  | .atomXor iss => Sys2Proof.Machine.execAtomXor iss s
  | .atomXchg iss => Sys2Proof.Machine.execAtomXchg iss s
  | .atomCas iss => Sys2Proof.Machine.execAtomCas iss s
  | .hredAdd iss => Sys2Proof.Machine.execHredAdd iss s
  | .hredMin iss => Sys2Proof.Machine.execHredMin iss s
  | .hredMax iss => Sys2Proof.Machine.execHredMax iss s
  | .hredAnd iss => Sys2Proof.Machine.execHredAnd iss s
  | .hredOr iss => Sys2Proof.Machine.execHredOr iss s
  | .hredXor iss => Sys2Proof.Machine.execHredXor iss s
  | .hredAddOrd iss => Sys2Proof.Machine.execHredAddOrd iss s
  | .lockAcq iss => Sys2Proof.Machine.execLockAcq iss s
  | .lockRel iss => Sys2Proof.Machine.execLockRel iss s
  | .lockPoll tile ctx lane cyc => Sys2Proof.Machine.execLockPoll tile ctx lane cyc s
  | .bra iss => Sys2Proof.Machine.execBra iss s
  | .brx iss => Sys2Proof.Machine.execBrx iss s
  | .mxfLd iss => Sys2Proof.Machine.execMxfLd iss s
  | .mxfSt iss => Sys2Proof.Machine.execMxfSt iss s
  | .mxfMma iss => Sys2Proof.Machine.execMxfMma iss s
  | .mxfRel iss => Sys2Proof.Machine.execMxfRel iss s
  | .mxdMma iss => Sys2Proof.Machine.execMxdMma iss s
  | .cpy iss => Sys2Proof.Machine.execCpy iss s
  | .vecEpi iss => Sys2Proof.Machine.execVecEpi iss s
  | .nop iss => Sys2Proof.Machine.execNop iss s
  | .exit iss => Sys2Proof.Machine.execExit iss s
  | .barG iss => Sys2Proof.Machine.execBarG iss s
  | .barL iss => Sys2Proof.Machine.execBarL iss s
  | .fenceT iss => Sys2Proof.Machine.execFenceT iss s
  | .fenceH iss => Sys2Proof.Machine.execFenceH iss s
  | .fenceX iss => Sys2Proof.Machine.execFenceX iss s
  | .evtSet iss => Sys2Proof.Machine.execEvtSet iss s
  | .evtWait iss => Sys2Proof.Machine.execEvtWait iss s
  | .evtTest iss => Sys2Proof.Machine.execEvtTest iss s
  | .tokWait iss => Sys2Proof.Machine.execTokWait iss s
  | .tokTest iss => Sys2Proof.Machine.execTokTest iss s
  | .embGen iss => Sys2Proof.Machine.execEmbGen iss s
  | .embGen64 iss => Sys2Proof.Machine.execEmbGen64 iss s
  | .l1FillReturn tile addr words => Sys2Proof.Machine.execL1FillReturn tile addr words s
  | .dirtyLineCleaner tile => Sys2Proof.Machine.execDirtyLineCleaner tile s
  | .hearthRequest r => Sys2Proof.Machine.execHearthRequest r s
  | .hearthFillReturn addr sectors errs => Sys2Proof.Machine.execHearthFillReturn addr sectors errs s
  | .reductionAccept id => Sys2Proof.Machine.execReductionAccept id s
  | .reductionApply part => Sys2Proof.Machine.execReductionApply part s
  | .ordResend id => Sys2Proof.Machine.execOrdResend id s
  | .victimWriteback part => Sys2Proof.Machine.execVictimWriteback part s
  | .writebackAck part => Sys2Proof.Machine.execWritebackAck part s
  | .correctionWriteback addr => Sys2Proof.Machine.execCorrectionWriteback addr s
  | .linkCrcRetry chan retries addr len => Sys2Proof.Machine.execLinkCrcRetry chan retries addr len s
  | .repairCopyDone chan => Sys2Proof.Machine.execRepairCopyDone chan s
  | .ceBucketLimit chan => Sys2Proof.Machine.execCeBucketLimit chan s
  | .bankUeRetire part bank => Sys2Proof.Machine.execBankUeRetire part bank s
  | .channelUeFence chan => Sys2Proof.Machine.execChannelUeFence chan s
  | .pinDrainDone part => Sys2Proof.Machine.execPinDrainDone part s
  | .plannedDmaIssue part cyc => Sys2Proof.Machine.execPlannedDmaIssue part cyc s
  | .plannedDmaDone part index far => Sys2Proof.Machine.execPlannedDmaDone part index far s
  | .checkpointCopyEnd copied => Sys2Proof.Machine.execCheckpointCopyEnd copied s
  | .farCompletion id data poison => Sys2Proof.Machine.execFarCompletion id data poison s
  | .farTimeout id => Sys2Proof.Machine.execFarTimeout id s
  | .farLinkDown slot => Sys2Proof.Machine.execFarLinkDown slot s
  | .mxaPassRelease tile ups far => Sys2Proof.Machine.execMxaPassRelease tile ups far s
  | .mxaRetryStart tile => Sys2Proof.Machine.execMxaRetryStart tile s
  | .substitutionDone tile => Sys2Proof.Machine.execSubstitutionDone tile s
  | .mxfMmaRelease tile ups => Sys2Proof.Machine.execMxfMmaRelease tile ups s
  | .epiStart tile => Sys2Proof.Machine.execEpiStart tile s
  | .epiDone tile reads => Sys2Proof.Machine.execEpiDone tile reads s
  | .cpyDone tile op reads => Sys2Proof.Machine.execCpyDone tile op reads s
  | .laneCountMax page bundle flue => Sys2Proof.Machine.execLaneCountMax page bundle flue s
  | .fluSweep page => Sys2Proof.Machine.execFluSweep page s
  | .guaranteeWindowEnd site inst cyc obs => Sys2Proof.Machine.execGuaranteeWindowEnd site inst cyc obs s
  | .tc0WaitMiss site inst cyc taken owed granted => Sys2Proof.Machine.execTc0WaitMiss site inst cyc taken owed granted s
  | .bellowsLevelChange master fill cycles => Sys2Proof.Machine.execBellowsLevelChange master fill cycles s
  | .planStaged image readErr => Sys2Proof.Machine.execPlanStaged image readErr s
  | .scrubEnd bankErrs devErrs => Sys2Proof.Machine.execScrubEnd bankErrs devErrs s
  | .sqTailDoorbell q tail entries late => Sys2Proof.Machine.execSqTailDoorbell q tail entries late s
  | .cqHeadDoorbell q head => Sys2Proof.Machine.execCqHeadDoorbell q head s
  | .queueEnable q en => Sys2Proof.Machine.execQueueEnable q en s
  | .ingestPerform q slot cyc => Sys2Proof.Machine.execIngestPerform q slot cyc s
  | .egressPerform slot cyc far => Sys2Proof.Machine.execEgressPerform slot cyc far s
  | .hostMemRead push off len => Sys2Proof.Machine.execHostMemRead push off len s
  | .hostMemWrite push off data mask poison => Sys2Proof.Machine.execHostMemWrite push off data mask poison s
  | .biResponse addr modified => Sys2Proof.Machine.execBiResponse addr modified s
  | .hostSnoop addr => Sys2Proof.Machine.execHostSnoop addr s
  | .configRequest r => Sys2Proof.Machine.execConfigRequest r s
  | .cxpLinkUp port mode width rate verified devs => Sys2Proof.Machine.execCxpLinkUp port mode width rate verified devs s
  | .cxpLinkDown port => Sys2Proof.Machine.execCxpLinkDown port s
  | .cxpRetrain port => Sys2Proof.Machine.execCxpRetrain port s
  | .intAck vector => Sys2Proof.Machine.execIntAck vector s
  | .intRouteWrite index value => Sys2Proof.Machine.execIntRouteWrite index value s
  | .intCtrlWrite en => Sys2Proof.Machine.execIntCtrlWrite en s
  | .msixUnmask vector => Sys2Proof.Machine.execMsixUnmask vector s
  | .registerWrite a wide value => Sys2Proof.Machine.execRegisterWrite a wide value s
  | .rocRead a wide => Sys2Proof.Machine.execRocRead a wide s
  | .pairLoRead a => Sys2Proof.Machine.execPairLoRead a s
  | .pairLoWrite a value => Sys2Proof.Machine.execPairLoWrite a value s
  | .pairHiWrite a value => Sys2Proof.Machine.execPairHiWrite a value s
  | .badWidthAccess a bytes write => Sys2Proof.Machine.execBadWidthAccess a bytes write s
  | .unmappedAccess a wide write => Sys2Proof.Machine.execUnmappedAccess a wide write s
  | .fencedPageAccess a wide write => Sys2Proof.Machine.execFencedPageAccess a wide write s
  | .darkPageAccess a wide write => Sys2Proof.Machine.execDarkPageAccess a wide write s
  | .legacyPageWrite off value => Sys2Proof.Machine.execLegacyPageWrite off value s
  | .mxaFlip tile value => Sys2Proof.Machine.execMxaFlip tile value s
  | .tlmFlip tile value => Sys2Proof.Machine.execTlmFlip tile value s
  | .hrtFlip part value => Sys2Proof.Machine.execHrtFlip part value s
  | .fluFlip page value => Sys2Proof.Machine.execFluFlip page value s
  | .gdcFlip chan value => Sys2Proof.Machine.execGdcFlip chan value s
  | .knkFlip value => Sys2Proof.Machine.execKnkFlip value s
  | .cxpFlip port value => Sys2Proof.Machine.execCxpFlip port value s
  | .farRescan d => Sys2Proof.Machine.execFarRescan d s
  | .farSanitize slot => Sys2Proof.Machine.execFarSanitize slot s
  | .farSanitizeDone slot result seconds f => Sys2Proof.Machine.execFarSanitizeDone slot result seconds f s
  | .fastNextWrite v => Sys2Proof.Machine.execFastNextWrite v s
  | .smkCounterClr page => Sys2Proof.Machine.execSmkCounterClr page s
  | .kenkaLinkUp good verified peer => Sys2Proof.Machine.execKenkaLinkUp good verified peer s
  | .kenkaFlitReceive block place far => Sys2Proof.Machine.execKenkaFlitReceive block place far s
  | .knkResyncTx partnerOk => Sys2Proof.Machine.execKnkResyncTx partnerOk s
  | .digest words => Sys2Proof.Machine.execDigest words s
  | .replay work => Sys2Proof.Machine.execReplay work s
  | .heartbeat words => Sys2Proof.Machine.execHeartbeat words s
  | .recordMsg words far => Sys2Proof.Machine.execRecordMsg words far s
  | .handoff work => Sys2Proof.Machine.execHandoff work s
  | .splitMsg words => Sys2Proof.Machine.execSplitMsg words s
  | .ckpt words => Sys2Proof.Machine.execCkpt words s
  | .readyMsg words => Sys2Proof.Machine.execReadyMsg words s
  | .ingest words bad => Sys2Proof.Machine.execIngest words bad s
  | .rsRows words bad => Sys2Proof.Machine.execRsRows words bad s
  | .rsZero words => Sys2Proof.Machine.execRsZero words s
  | .rsAck addr => Sys2Proof.Machine.execRsAck addr s
  | .rsEnd words far => Sys2Proof.Machine.execRsEnd words far s
  | .hbPulseReceive width => Sys2Proof.Machine.execHbPulseReceive width s
  | .hbPathLoss pin => Sys2Proof.Machine.execHbPathLoss pin s
  | .powerGoodRise strap f => Sys2Proof.Machine.execPowerGoodRise strap f s
  | .resetNRelease f => Sys2Proof.Machine.execResetNRelease f s
  | .perst0NRelease f => Sys2Proof.Machine.execPerst0NRelease f s
  | .cxp0HotReset f => Sys2Proof.Machine.execCxp0HotReset f s
  | .watchdogExpiry f => Sys2Proof.Machine.execWatchdogExpiry f s
  | .kindlingStage wave stage => Sys2Proof.Machine.execKindlingStage wave stage s
  | .hobUpCheck hob mv base slices rows lines => Sys2Proof.Machine.execHobUpCheck hob mv base slices rows lines s
  | .microcodePacket packet recv lost misread => Sys2Proof.Machine.execMicrocodePacket packet recv lost misread s
  | .channelTrained chan peer speed density verified passes settings => Sys2Proof.Machine.execChannelTrained chan peer speed density verified passes settings s
  | .ready totalMs trainMs => Sys2Proof.Machine.execReady totalMs trainMs s
  | .telemetryPoll ok pages pin => Sys2Proof.Machine.execTelemetryPoll ok pages pin s
  | .pwrWarnRelease us => Sys2Proof.Machine.execPwrWarnRelease us s
  | .droopWarn hob mv cyc => Sys2Proof.Machine.execDroopWarn hob mv cyc s
  | .droopRecover hob cycles => Sys2Proof.Machine.execDroopRecover hob cycles s
  | .droopTrip hob mv cyc => Sys2Proof.Machine.execDroopTrip hob mv cyc s
  | .sliceFail hob slice => Sys2Proof.Machine.execSliceFail hob slice s
  | .hobWakeKindle hob => Sys2Proof.Machine.execHobWakeKindle hob s
  | .hobWakeUp hob mv base slices => Sys2Proof.Machine.execHobWakeUp hob mv base slices s
  | .monitorSample l => Sys2Proof.Machine.execMonitorSample l s
  | .diodeSample l => Sys2Proof.Machine.execDiodeSample l s
  | .diodeTrip die reading => Sys2Proof.Machine.execDiodeTrip die reading s
  | .plausEval tleak => Sys2Proof.Machine.execPlausEval tleak s
  | .getCerts tag => Sys2Proof.Machine.execGetCerts tag s
  | .getReport tag nonce => Sys2Proof.Machine.execGetReport tag nonce s
  | .getLog tag off => Sys2Proof.Machine.execGetLog tag off s
  | .fwWrite tag kind off data => Sys2Proof.Machine.execFwWrite tag kind off data s
  | .fwCommit tag kind => Sys2Proof.Machine.execFwCommit tag kind s
  | .lcNonce tag random => Sys2Proof.Machine.execLcNonce tag random s
  | .lcToken tag bytes f => Sys2Proof.Machine.execLcToken tag bytes f s
  | .i3cAddressAssign static addr => Sys2Proof.Machine.execI3cAddressAssign static addr s
  | .eventRead payload crc => Sys2Proof.Machine.execEventRead payload crc s
  | .legacyRead payload crc => Sys2Proof.Machine.execLegacyRead payload crc s
  | .recBegin payload crc passing => Sys2Proof.Machine.execRecBegin payload crc passing s
  | .recData payload crc => Sys2Proof.Machine.execRecData payload crc s
  | .recCommit payload crc => Sys2Proof.Machine.execRecCommit payload crc s
  | .tapSamplePreload pins preload => Sys2Proof.Machine.execTapSamplePreload pins preload s
  | .cxpFlitReceive port good last words => Sys2Proof.Machine.execCxpFlitReceive port good last words s
  | .refx2Change chan doubled => Sys2Proof.Machine.execRefx2Change chan doubled s
  | .ingestDescriptorDone q slot data bad => Sys2Proof.Machine.execIngestDescriptorDone q slot data bad s
  | .syncWinExpiry => Sys2Proof.Machine.execSyncWinExpiry s
  | .syncLoss => Sys2Proof.Machine.execSyncLoss s
  | .workDeadline => Sys2Proof.Machine.execWorkDeadline s
  | .boundaryWriteback => Sys2Proof.Machine.execBoundaryWriteback s
  | .commitPoint => Sys2Proof.Machine.execCommitPoint s
  | .digestFold => Sys2Proof.Machine.execDigestFold s
  | .digestCompare => Sys2Proof.Machine.execDigestCompare s
  | .replayDecision => Sys2Proof.Machine.execReplayDecision s
  | .latchPoint => Sys2Proof.Machine.execLatchPoint s
  | .digestSend => Sys2Proof.Machine.execDigestSend s
  | .tableSwitch => Sys2Proof.Machine.execTableSwitch s
  | .mirrorReplayCutoff => Sys2Proof.Machine.execMirrorReplayCutoff s
  | .workListPrefetch => Sys2Proof.Machine.execWorkListPrefetch s
  | .stkStart => Sys2Proof.Machine.execStkStart s
  | .stkStop => Sys2Proof.Machine.execStkStop s
  | .stkResume => Sys2Proof.Machine.execStkResume s
  | .nearWipeDone => Sys2Proof.Machine.execNearWipeDone s
  | .laneCountDecay => Sys2Proof.Machine.execLaneCountDecay s
  | .planLoad => Sys2Proof.Machine.execPlanLoad s
  | .planWithdraw => Sys2Proof.Machine.execPlanWithdraw s
  | .planQuery => Sys2Proof.Machine.execPlanQuery s
  | .stoke => Sys2Proof.Machine.execStoke s
  | .record => Sys2Proof.Machine.execRecord s
  | .scrub => Sys2Proof.Machine.execScrub s
  | .trecDiscard => Sys2Proof.Machine.execTrecDiscard s
  | .smkFlush => Sys2Proof.Machine.execSmkFlush s
  | .smkGroupDeliver => Sys2Proof.Machine.execSmkGroupDeliver s
  | .thmTripClear => Sys2Proof.Machine.execThmTripClear s
  | .kenkaRetrainDone => Sys2Proof.Machine.execKenkaRetrainDone s
  | .kenkaLinkLoss => Sys2Proof.Machine.execKenkaLinkLoss s
  | .knkRetrain => Sys2Proof.Machine.execKnkRetrain s
  | .knkHandoff => Sys2Proof.Machine.execKnkHandoff s
  | .knkKeep => Sys2Proof.Machine.execKnkKeep s
  | .invalidMessage => Sys2Proof.Machine.execInvalidMessage s
  | .hbTransmit => Sys2Proof.Machine.execHbTransmit s
  | .dualLitDetect => Sys2Proof.Machine.execDualLitDetect s
  | .resyncHoldExpiry => Sys2Proof.Machine.execResyncHoldExpiry s
  | .powerGoodFall => Sys2Proof.Machine.execPowerGoodFall s
  | .resetNAssert => Sys2Proof.Machine.execResetNAssert s
  | .perst0NAssert => Sys2Proof.Machine.execPerst0NAssert s
  | .stepLimitExpiry => Sys2Proof.Machine.execStepLimitExpiry s
  | .microcodeRound => Sys2Proof.Machine.execMicrocodeRound s
  | .trainingRecordSave => Sys2Proof.Machine.execTrainingRecordSave s
  | .powerCapEval => Sys2Proof.Machine.execPowerCapEval s
  | .damperChange => Sys2Proof.Machine.execDamperChange s
  | .pwrWarnAssert => Sys2Proof.Machine.execPwrWarnAssert s
  | .rideExpiry => Sys2Proof.Machine.execRideExpiry s
  | .thermalStepTimer => Sys2Proof.Machine.execThermalStepTimer s
  | .thermtripAssert => Sys2Proof.Machine.execThermtripAssert s
  | .trngHealthFail => Sys2Proof.Machine.execTrngHealthFail s
  | .cdatRead => Sys2Proof.Machine.execCdatRead s
  | .tapBypass => Sys2Proof.Machine.execTapBypass s
  | .tapIdcode => Sys2Proof.Machine.execTapIdcode s
  | .tapExtest => Sys2Proof.Machine.execTapExtest s
  | .tapClamp => Sys2Proof.Machine.execTapClamp s
  | .tapHighz => Sys2Proof.Machine.execTapHighz s
  | .hobTargetReached => Sys2Proof.Machine.execHobTargetReached s

end Sys2Proof.Machine
end

