-- ==== Sys2Proof/Safety.lean ====
section
/-! DEFINITION. The terms that statements about the CX-4 use: what a command gives, the canonical form of memory that every
step keeps, when a Yalzu instruction issues, and what its register results are. -/
namespace Sys2Proof.Machine

/-- A command answers a next state, and P holds of it. -/
def Gives (c : Instr) (s : State) (P : State → Prop) : Prop := ∃ t, exec c s = .next t ∧ P t

/-- The invariant of the memory: the byte map and the poison map are in canonical form, so that equal memories are equal
data. -/
def Inv (s : State) : Prop := Memory.wf s.mem = true ∧ SMap.wf false s.memBad = true

/-- A safe run of the machine never leaves the canonical form and never stops. -/
def Safe (s : State) : Prop := Inv s ∧ ∃ t, step s = .next t

/-- The same bytes, poison and write hashes in the hearth and near windows. -/
def SameMem (s t : State) : Prop :=
  (∀ a, t.byteAt a = s.byteAt a) ∧ (∀ a, t.badAt a = s.badAt a) ∧ ∀ k, SMap.getD t.hashes k 0 = SMap.getD s.hashes k 0

/-- The same fuses, flash, plans, pair state and feed. -/
def SameRest (s t : State) : Prop :=
  t.fuses = s.fuses ∧ t.flash = s.flash ∧ t.plans = s.plans ∧ t.feed = s.feed ∧ t.mod = s.mod ∧ t.boot = s.boot

/-- The tile is not in its cycle of overrun, and the subgroup of an issuing lane is ready at a clean instruction word in the
code region (spec/03 R89, R99, R753; spec/04 R171). -/
structure Issues (s : State) (i : Issue) (x : Ctx) (u : Sub) : Prop where
  going : (s.tile i.tile).stop = none
  ctx : s.ctx i.tile i.ctx = some x
  sub : x.subOf i.lane = some u
  ready : u.wait = .ready
  code : s.inCode u.pc 8 = true
  clean : s.fetchBad i.tile u.pc = false

/-- An issue whose word spells the command (spec/04 R137 to R139, R149) answers a next state, and P holds of it. -/
def Issued (c : Instr) (i : Issue) (s : State) (P : State → Prop) : Prop := i.spells c = true → Gives c s P

/-- Registers that an instruction does not name keep value and poison. -/
def SameScalars (x y : Ctx) : Prop := ∀ r, y.sreg r = x.sreg r ∧ y.spois r = x.spois r
def SamePredicates (x y : Ctx) : Prop := ∀ q, y.qreg q = x.qreg q
/-- Every lane but the enabled lanes of the destination registers `d` to `d + n - 1` keeps value and poison. -/
def OtherLanes (x y : Ctx) (en : BitVec 32) (d n : Nat) : Prop :=
  ∀ r j, j < 32 → (en.getLsbD j = false ∨ r < d ∨ d + n ≤ r) → y.vreg r j = x.vreg r j ∧ y.vpois r j = x.vpois r j
/-- Every scalar register but one keeps value and poison. -/
def OtherScalars (x y : Ctx) (d : Nat) : Prop := ∀ r, r ≠ d → y.sreg r = x.sreg r ∧ y.spois r = x.spois r

/-- Poison bits of a vector register and of a scalar register. -/
def vBad (b : Bool) : Nat := if b then 15 else 0
def sBad (b : Bool) : Nat := if b then 255 else 0

/-- A vector result: every enabled lane j of the destination holds `f j` of `w` bits with poison `p j`; every other lane
and register is as before (spec/04 R142, R145; spec/14 R497). -/
def VectorIs (x y : Ctx) (en : BitVec 32) (w d : Nat) (f : Nat → Nat) (p : Nat → Bool) : Prop :=
  (∀ j, j < 32 → en.getLsbD j = true → y.opVal w d j = f j % 2 ^ w ∧ y.vpois (opReg d) j = vBad (p j)) ∧
  OtherLanes x y en (opReg d) (w / 32) ∧ SameScalars x y ∧ SamePredicates x y

/-- A scalar result. -/
def ScalarIs (x y : Ctx) (d v : Nat) (p : Bool) : Prop :=
  y.sreg (opReg d) = v % 2 ^ 64 ∧ y.spois (opReg d) = sBad p ∧ OtherScalars x y (opReg d) ∧ y.v = x.v ∧ y.vp = x.vp ∧
  SamePredicates x y

/-- A predicate result: bit j of Qd for every enabled lane, the other bits and registers as before. -/
def PredicateIs (x y : Ctx) (en : BitVec 32) (q : Nat) (f : Nat → Bool) : Prop :=
  (∀ j, j < 32 → (y.qreg q).getLsbD j = if en.getLsbD j then f j else (x.qreg q).getLsbD j) ∧
  (∀ r, r ≠ q → y.qreg r = x.qreg r) ∧ SameScalars x y ∧ y.v = x.v ∧ y.vp = x.vp

/-- The result of a register operation: its destination, and the flags of the enabled lanes in the flag word (spec/04 R143
to R146; spec/06 R230). -/
def RegisterIs (o : RegOp) (i : Issue) (x y : Ctx) (en : BitVec 32) : Prop :=
  if isScalar i.dst then
    ScalarIs x y i.dst (scalarExt o.dstT (regLane o i x 0).1) ((regLane o i x 0).2.2 || issueSpoils i) ∧
    y.flags = x.flags ||| (regLane o i x 0).2.1
  else
    VectorIs x y en (regWidth o.dstT) i.dst (fun j => (regLane o i x j).1) (fun j => (regLane o i x j).2.2 || issueSpoils i) ∧
    y.flags = (lanesOf en).foldl (fun f j => f ||| (regLane o i x j).2.1) x.flags

/-- The context of an issue after its command, of which P holds. -/
def CtxIs (i : Issue) (t : State) (P : Ctx → Prop) : Prop := ∃ y, t.ctx i.tile i.ctx = some y ∧ P y

end Sys2Proof.Machine
end

