-- ==== Sys2Proof/Certificates/Slice0/Obligations.lean ====
section
/-! DEFINITION. What the model claims: one definition per statement, listed in OBLIGATIONS.json. -/
open Sys2Proof Sys2Proof.Machine

/-! ## Machine and queue -/

/-- A step runs the command at the front of the queue. For every command c, every waiting rest and every state s, step of s with
c in front of its queue is exec of c on s with the rest as its queue; on an empty queue the block idles (the queue is the
model's choice, notes/assumptions/25.md). (spec/opcode_table.json, spec/00 scope) -/
def Obligations.StepRunsTheFrontCommand : Prop :=
  (∀ (c : Instr) (rest : List Instr) (s : State),
    step { s with pending := c :: rest } = exec c { s with pending := rest }) ∧
  ∀ s : State, step { s with pending := [] } = .next { s with pending := [] }

/-- The state after power-on, and that no command stops the block. State.reset has its memory in canonical form with nothing
listed, no command waiting, no output, no shadow and no plan, the stoke unit IDLE, READY 0, and the reset values that the
register tables give STK_PERIOD and PWR_CAP. In every state every command answers a next state: errors are captured in
registers or fail the stoke, and no command faults or is refused. (R16, R50, R67, R319, R601, R665) -/
def Obligations.ResetIsCleanAndNothingStops : Prop :=
  (Inv State.reset ∧ State.reset.mem = [] ∧ State.reset.pending = [] ∧ State.reset.out = [] ∧ State.reset.shadow = [] ∧
    State.reset.plans.active = none ∧ State.reset.rd pgStk Reg.stkState = 0 ∧ State.reset.flag pgDev Reg.devStateReady = false ∧
    State.reset.rd pgStk Reg.stkPeriod = 940000 ∧ State.reset.rd pgPwr Reg.pwrCapCapW = 2400) ∧
  ∀ (c : Instr) (s : State), ∃ t, exec c s = .next t

/-- Commands wait first in, first out. Whatever a command does, it leaves the queue as it is, so that a step takes exactly the
front command away and adds none: after a step the waiting commands are the rest of those that waited before.
(spec/opcode_table.json, notes/assumptions/25.md) -/
def Obligations.CommandsLeaveTheQueueAlone : Prop :=
  ∀ s t : State, step s = .next t → t.pending = s.pending.tail

/-- Every step keeps the memory and its poison in canonical form. For every state whose byte map and poison map of the hearth
and near windows are in canonical form (addresses rise strictly, nothing listed equals what an unlisted entry reads as),
every step answers a state with the same form. (spec/09 R306, spec/09 R319, spec/14 R489) -/
def Obligations.StepsKeepMemoryCanonical : Prop :=
  ∀ s t : State, Inv s → step s = .next t → Inv t

/-! ## Register instructions (spec/04, spec/06, spec/07) -/

namespace Sys2Proof.Machine

/-- The arithmetic instructions of an issue: the command, its operation in one lane, and its legal forms (spec/04 R149,
R151; spec/06 R228; spec/04 R748). -/
def arithForms (i : Issue) : List (Instr × RegOp × Bool) :=
  let plain := decide (i.mod = 0)
  [(.add i, binOp i (elAdd i.type i.rnd i.sat), plain && comboOk i types6 types8 ints4 true true true),
   (.sub i, binOp i (elSub i.type i.rnd i.sat), plain && comboOk i types6 types8 ints4 true true true),
   (.mul i, binOp i (elMul i.type i.rnd i.sat), plain && comboOk i types6 types8 ints4 true true false),
   (.mulhi i, binOp i (elMulhi i.type), plain && comboOk i ints4 ints4 ints4 false false false),
   (.fma i, ⟨i.type, i.type, 3, tyPacked i.type, elFma i.type i.rnd⟩,
     plain && !i.imm && comboOk i types6 types8 [] true false false),
   (.min i, binOp i (elMinMax i.type false), plain && comboOk i types6 types8 ints4 true false false),
   (.max i, binOp i (elMinMax i.type true), plain && comboOk i types6 types8 ints4 true false false),
   (.and i, binOp i (fun a b => (a &&& b, 0)), plain && comboOk i ints4 ints4 ints4 false false false),
   (.or i, binOp i (fun a b => (a ||| b, 0)), plain && comboOk i ints4 ints4 ints4 false false false),
   (.xor i, binOp i (fun a b => (a ^^^ b, 0)), plain && comboOk i ints4 ints4 ints4 false false false),
   (.shl i, binOp i (elShl i.type), plain && comboOk i ints4 ints4 ints4 false false false),
   (.shr i, binOp i (elShr i.type), plain && comboOk i ints4 ints4 ints4 false false false),
   (.abs i, unOp i (elAbs i.type), plain && !i.imm && comboOk i types6 types8 [] false false false),
   (.neg i, unOp i (elNeg i.type), plain && !i.imm && comboOk i types6 types8 [] false false false),
   (.popc i, unOp i (fun a => (popCount (tyWidth i.type) a, 0)), plain && !i.imm && comboOk i ints4 ints4 [] false false false),
   (.clz i, unOp i (fun a => (tyWidth i.type - bitLength a, 0)), plain && !i.imm && comboOk i ints4 ints4 [] false false false),
   (.vecDiv i, binOp i (fun a b => Fp.divVal (tyFmt i.type) i.rnd (Fp.decode (tyFmt i.type) a) (Fp.decode (tyFmt i.type) b)),
     plain && !i.imm && comboOk i [] [4, 5] [] true false false),
   (.vecSqrt i, unOp i (fun a => Fp.sqrtVal (tyFmt i.type) i.rnd (Fp.decode (tyFmt i.type) a)),
     plain && !i.imm && comboOk i [] [4, 5] [] true false false),
   (.mov i, if i.imm then ⟨i.type, i.type, 0, false, fun _ b _ => (b, 0)⟩
     else ⟨i.type, i.type, 1, tyPacked i.type, fun a _ _ => (a, 0)⟩, plain && comboOk i types6 types8 ints4 false false false),
   (.vecFn i, unOp i (elFn i.mod), !i.imm && comboOk i [] [5] [] false false false && decide (i.mod ≤ 5)),
   (.cvt i, ⟨i.type, i.mod, 1, tyPacked i.type && tyPacked i.mod, fun a _ _ => elCvt i.type i.mod i.rnd i.sat a⟩,
     !i.imm && (if isScalar i.dst then types6 else types8).contains i.type &&
     (if isScalar i.dst then types6 else types8).contains i.mod && i.type != i.mod &&
     (i.rnd = 0 || (cvtCombo i.type i.mod).1) && (!i.sat || (cvtCombo i.type i.mod).2))]

end Sys2Proof.Machine

/-- Arithmetic, logic, conversion and moves: every enabled lane, and nothing else. When the subgroup of the issuing lane is
ready at a clean instruction in the code region and the form is one that the tables allow, with a lane enabled, the command
completes: in vector form every enabled lane of the destination (a pair for 64-bit types) holds the operation of its own
source lanes as they stood before, poisoned exactly when a source byte it reads is (or the issue is spoiled); in scalar form
the scalar register holds it, extended by TYPE; every other register, lane and predicate is unchanged, and the flag word
takes the flags of the enabled lanes. ADD SUB MUL MULHI FMA MIN MAX AND OR XOR SHL SHR ABS NEG POPC CLZ VEC_DIV VEC_SQRT MOV
VEC_FN CVT. (R142, R143, R144, R145, R149, R151, R230, R497, R748) -/
def Obligations.ArithmeticGivesEveryLane : Prop :=
  ∀ (s : State) (i : Issue) (x : Ctx) (u : Sub), Issues s i x u → enabledMask x u i ≠ 0 →
    ∀ e ∈ arithForms i, e.2.2 = true → regOperandsOk e.2.1 i = true →
      Issued e.1 i s (fun t => CtxIs i t (fun y => RegisterIs e.2.1 i x y (enabledMask x u i)))

/-- Unsigned 32-bit arithmetic wraps modulo 2 to the 32, signed SAT clips. For TYPE U32 without SAT in vector form, every
enabled lane of the destination holds (A + B), (A − B), A × B, A × B + C modulo 2 to the 32, the high half of the product,
the minimum, the maximum, the bitwise results, A shifted by B mod 32, the ones of A, its leading zeros, −A and A. For TYPE
I32 with SAT, ADD and SUB hold the exact sum or difference clipped to the range of the type. (R146, R149) -/
def Obligations.WordArithmeticWraps : Prop :=
  ∀ (s : State) (i : Issue) (x : Ctx) (u : Sub) (j : Nat), Issues s i x u → j < 32 → (enabledMask x u i).getLsbD j = true →
    i.imm = false → i.mod = 0 → i.rnd = 0 → i.resvR = 0 → isScalar i.dst = false →
    let a := x.opVal 32 i.srcA j
    let b := x.opVal 32 i.srcB j
    let c := x.opVal 32 i.srcC j
    (i.type = 1 → i.sat = false →
      ∀ e ∈ [(Instr.add i, (a + b) % 2 ^ 32), (.sub i, (a + (2 ^ 32 - b)) % 2 ^ 32), (.mul i, a * b % 2 ^ 32),
        (.mulhi i, a * b / 2 ^ 32), (.fma i, (a * b + c) % 2 ^ 32), (.min i, min a b), (.max i, max a b), (.and i, a &&& b),
        (.or i, a ||| b), (.xor i, a ^^^ b), (.shl i, a * 2 ^ (b % 32) % 2 ^ 32), (.shr i, a / 2 ^ (b % 32)),
        (.popc i, ((List.range 32).filter (fun k => a.testBit k)).length),
        (.clz i, if a = 0 then 32 else 31 - a.log2), (.neg i, (2 ^ 32 - a) % 2 ^ 32), (.mov i, a)],
        Issued e.1 i s (fun t => CtxIs i t (fun y => y.vreg (opReg i.dst) j = e.2))) ∧
    (i.type = 0 → i.sat = true →
      ∀ e ∈ [(Instr.add i, toSigned 32 a + toSigned 32 b), (.sub i, toSigned 32 a - toSigned 32 b)],
        Issued e.1 i s (fun t => CtxIs i t (fun y =>
          toSigned 32 (y.vreg (opReg i.dst) j) = max (-2 ^ 31) (min (2 ^ 31 - 1) e.2))))

/-- CMP, VEC.SEL, VEC.PACK and VEC.UNPK write the enabled lanes. A legal CMP with a lane enabled writes, for every enabled lane,
its bit of Qd from the comparison (SCL.CMP from its one scalar comparison) and leaves the other bits; VEC.SEL takes A where
Q[MOD] holds and B elsewhere; VEC.PACK replaces bytes 2m and 2m+1 of the destination by the converted A and B and keeps the
other bytes; VEC.UNPK widens byte MOD of A, for I8 with its sign. (R141, R149, R150, R749) -/
def Obligations.CompareSelectAndPack : Prop :=
  ∀ (s : State) (i : Issue) (x : Ctx) (u : Sub), Issues s i x u → enabledMask x u i ≠ 0 →
    (cmpLegal i = true → Issued (.cmp i) i s (fun t => CtxIs i t (fun y =>
      PredicateIs x y (enabledMask x u i) i.dst (fun j => (cmpLane i x (if cmpScalar i then 0 else j)).1)))) ∧
    (i.imm = false → i.resvR = 0 → isScalar i.dst = false →
      (i.rnd = 0 → i.sat = false → types8.contains i.type = true → pairOk i.type i.dst = true → pairOk i.type i.srcA = true →
        pairOk i.type i.srcB = true → Issued (.vecSel i) i s (fun t => CtxIs i t (fun y =>
          VectorIs x y (enabledMask x u i) (regWidth i.type) i.dst
            (fun j => x.opVal (regWidth i.type)
              (if (x.qreg (i.mod % 8)).getLsbD j = decide (i.mod < 8) then i.srcA else i.srcB) j)
            (fun j => x.opPois (regWidth i.type / 8) i.srcA j || x.opPois (regWidth i.type / 8) i.srcB j ||
              issueSpoils i)))) ∧
      ([8, 9, 15].contains i.type = true → i.mod ≤ 1 → Issued (.vecPack i) i s (fun t => CtxIs i t (fun y =>
        ∀ j k, j < 32 → k < 4 → (enabledMask x u i).getLsbD j = true →
          bitsAt (y.vreg (opReg i.dst) j) (8 * k) 8 =
            if k = 2 * i.mod then (elPack i.type i.rnd i.sat (x.opVal 32 i.srcA j)).1 % 256
            else if k = 2 * i.mod + 1 then (elPack i.type i.rnd i.sat (x.opVal 32 i.srcB j)).1 % 256
            else bitsAt (x.vreg (opReg i.dst) j) (8 * k) 8))) ∧
      (i.rnd = 0 → i.sat = false → i.mod ≤ 3 →
        (i.type = 15 → Issued (.vecUnpk i) i s (fun t => CtxIs i t (fun y => ∀ j, j < 32 →
          (enabledMask x u i).getLsbD j = true →
            toSigned 32 (y.vreg (opReg i.dst) j) = toSigned 8 (bitsAt (x.opVal 32 i.srcA j) (8 * i.mod) 8)))) ∧
        (i.type = 8 ∨ i.type = 9 → Issued (.vecUnpk i) i s (fun t => CtxIs i t (fun y => ∀ j, j < 32 →
          (enabledMask x u i).getLsbD j = true → y.vreg (opReg i.dst) j =
            (Fp.cvtVal Fp.f32 0 false (Fp.decode (tyFmt i.type) (bitsAt (x.opVal 32 i.srcA j) (8 * i.mod) 8))).1 % 2 ^ 32)))))

/-- SCL.FLAGS, SCL.CYC, MOV.K, EMB.GEN and EMB.GEN64. SCL.FLAGS writes the context's sticky flag word to its scalar register and
clears it when MOD[0] is 1; SCL.CYC writes the tile's local cycle and counts a V issue; MOV.K without HI places its constant
in a scalar register, sign-extended for I32 and I64, or in every enabled lane of a vector register, and with HI replaces the
upper half of a scalar register and keeps the lower. A legal EMB.GEN or EMB.GEN64 with a lane enabled writes to every
enabled lane the ember value of the active plan's seed, the work stoke, the logical tile, the lane of its context and the
counter in Va: its low 32 bits, or all 64. (R138, R149, R229, R524) -/
def Obligations.FlagsCycleConstantsAndEmbers : Prop :=
  ∀ (s : State) (i : Issue) (x : Ctx) (u : Sub), Issues s i x u → enabledMask x u i ≠ 0 →
    (i.imm = false → isScalar i.dst = true → i.type = 3 → i.rnd = 0 → i.sat = false → i.resvR = 0 →
      (i.mod ≤ 1 → Issued (.sclFlags i) i s (fun t => CtxIs i t (fun y =>
        ScalarIs x y i.dst x.flags false ∧ y.flags = if i.mod = 1 then 0 else x.flags))) ∧
      (i.mod = 0 → Issued (.sclCyc i) i s (fun t => (t.tile i.tile).vIssues = (s.tile i.tile).vIssues + 1 ∧
        CtxIs i t (fun y => ScalarIs x y i.dst i.cyc.toNat false ∧ y.flags = x.flags)))) ∧
    (movKLegal i = true → Issued (.movK i) i s (fun t => CtxIs i t (fun y => y.flags = x.flags ∧
      let d := i.bitsOf 37 7
      let k := i.bitsOf 0 32
      if isScalar d then
        OtherScalars x y (opReg d) ∧ y.v = x.v ∧ SamePredicates x y ∧
        (i.bitsOf 32 1 = 0 → y.spois (opReg d) = 0 ∧ y.sreg (opReg d) =
          if i.type = 0 ∨ i.type = 2 then ofInt 64 (toSigned 32 k) else k) ∧
        (i.bitsOf 32 1 = 1 → y.sreg (opReg d) = k * 2 ^ 32 + x.sreg (opReg d) % 2 ^ 32)
      else VectorIs x y (enabledMask x u i) 32 d (fun _ => k) (fun _ => false)))) ∧
    (sysOk i = true → isScalar i.dst = false →
      let e := fun j => (ember s.planSeed (s.rd pgStk Reg.stkWork) (s.rd (pgTil i.tile) Reg.tilLogicalLtile)
        (32 * i.ctx.val + j) (x.opVal 32 i.srcA j)).toNat
      let bad := fun j => x.opPois 4 i.srcA j || i.parity
      Issued (.embGen i) i s (fun t => CtxIs i t (fun y => VectorIs x y (enabledMask x u i) 32 i.dst e bad)) ∧
      (i.dst % 2 = 0 →
        Issued (.embGen64 i) i s (fun t => CtxIs i t (fun y => VectorIs x y (enabledMask x u i) 64 i.dst e bad))))

/-- VEC.VOTE, VEC.BCAST, VEC.SHFL and VEC.PERM. VOTE.BALLOT writes the predicate's enabled bits to its scalar at every issue, 0
with no lane enabled; ANY and ALL write their answer to every enabled lane of Qd. BCAST, SHFL and PERM give every enabled
lane the source lane that B, j − B, j + B, j XOR B or Vb[j] names when it lies in 0 to 31, otherwise the fill value; PERM
and BCAST set PERM_OOB in the flag word when an enabled lane's index is out of range, SHFL never. (R166, R253, R254, R255,
R256) -/
def Obligations.VotesAndPermutations : Prop :=
  ∀ (s : State) (i : Issue) (x : Ctx) (u : Sub), Issues s i x u →
    let en := enabledMask x u i
    let w := regWidth i.type
    let bad := fun (k : Option Nat) (j : Nat) =>
      (match k with | some k => x.opPois (w / 8) i.srcA k | none => false) ||
      (!i.imm && x.opPois (w / 8) i.srcB j) || issueSpoils i
    let pick := fun (k : Option Nat) => match k with
      | some k => x.opVal w i.srcA k
      | none => s.fillOf i.tile i.type
    (voteLegal i = true →
      (i.mod = 2 → Issued (.vecVote i) i s (fun t => CtxIs i t (fun y =>
        ScalarIs x y i.dst (x.qreg i.srcA &&& en).toNat false))) ∧
      (i.mod = 0 → Issued (.vecVote i) i s (fun t => CtxIs i t (fun y =>
        PredicateIs x y en i.dst (fun _ => decide (x.qreg i.srcA &&& en ≠ 0))))) ∧
      (i.mod = 1 → Issued (.vecVote i) i s (fun t => CtxIs i t (fun y =>
        PredicateIs x y en i.dst (fun _ => decide (x.qreg i.srcA &&& en = en)))))) ∧
    (permLegal i = true → en ≠ 0 →
      (i.mod = 0 → (i.imm = true ∨ isScalar i.srcB = true) →
        let b := srcBVal i x i.type 0
        let k : Option Nat := if b < 32 then some b else none
        Issued (.vecBcast i) i s (fun t => CtxIs i t (fun y => VectorIs x y en w i.dst (fun _ => pick k) (bad k) ∧
          y.flags = if b < 32 then x.flags else x.flags ||| Fp.flPermOob))) ∧
      (i.mod ≤ 2 → Issued (.vecShfl i) i s (fun t => CtxIs i t (fun y => y.flags = x.flags ∧
        VectorIs x y en w i.dst (fun j => pick (shflLane i x j)) (fun j => bad (shflLane i x j) j)))) ∧
      (i.mod = 0 → i.imm = false →
        let k := fun j => if x.opVal w i.srcB j < 32 then some (x.opVal w i.srcB j) else none
        Issued (.vecPerm i) i s (fun t => CtxIs i t (fun y =>
          VectorIs x y en w i.dst (fun j => pick (k j)) (fun j => bad (k j) j) ∧
          y.flags = if ∀ j, j < 32 → en.getLsbD j = true → x.opVal w i.srcB j < 32 then x.flags
            else x.flags ||| Fp.flPermOob))))

/-- VEC.RED writes the tree's root, VEC.SCAN the roots of the prefixes. A legal VEC.RED of a vector completes at every issue:
with a lane enabled its scalar holds the root of the fixed tree over the enabled lanes (a NaN made canonical), extended by
TYPE and poisoned when a leaf is, and the tree's flags join the flag word; with no lane enabled it holds the operation's
identity, setting EMPTY. A legal VEC.SCAN with a lane enabled completes: each enabled lane j holds the root over the enabled
lanes 0 to j; no other lane and no scalar changes. With none enabled it goes past and changes nothing. (R248, R250, R251,
R252) -/
def Obligations.ReductionsFollowTheTree : Prop :=
  ∀ (s : State) (i : Issue) (x : Ctx) (u : Sub), Issues s i x u → redLegal i = true →
    let en := enabledMask x u i
    (redOperands i = true → en ≠ 0 → Issued (.vecRed i) i s (fun t => CtxIs i t (fun y =>
      ∃ v fl p, reduceLanes i x en = some (v, fl, p) ∧
        ScalarIs x y i.dst (scalarExt i.type (redResult i.type v)) (p || issueSpoils i) ∧ y.flags = x.flags ||| fl))) ∧
    (redOperands i = true → en = 0 → Issued (.vecRed i) i s (fun t => CtxIs i t (fun y =>
      ScalarIs x y i.dst (scalarExt i.type (redIdentity i.mod i.type)) false ∧ y.flags = x.flags ||| Fp.flEmpty))) ∧
    (isScalar i.dst = false → pairOk i.type i.dst = true → en ≠ 0 → Issued (.vecScan i) i s (fun t => CtxIs i t (fun y =>
      OtherLanes x y en (opReg i.dst) (regWidth i.type / 32) ∧ SameScalars x y ∧ SamePredicates x y ∧
      ∀ j, j < 32 → en.getLsbD j = true → ∃ v fl p, reduceLanes i x (upTo en j) = some (v, fl, p) ∧
        y.opVal (regWidth i.type) i.dst j = redResult i.type v % 2 ^ regWidth i.type ∧
        y.vpois (opReg i.dst) j = vBad (p || issueSpoils i)))) ∧
    (isScalar i.dst = false → pairOk i.type i.dst = true → en = 0 → Issued (.vecScan i) i s (fun t =>
      t.ctx i.tile i.ctx = some (x.past i.lane)))

namespace Sys2Proof.Machine

/-- The commands that issue a Yalzu instruction of formats R, I and K, an ember, NOP, FENCE.T, an event flag, a token, a
barrier, a branch or EXIT. -/
def registerInstrs (i : Issue) : List Instr :=
  [.add i, .sub i, .mul i, .mulhi i, .fma i, .min i, .max i, .and i, .or i, .xor i, .shl i, .shr i, .cmp i, .vecSel i, .cvt i,
   .vecDiv i, .vecSqrt i, .vecPack i, .vecUnpk i, .mov i, .abs i, .neg i, .vecFn i, .popc i, .clz i, .sclFlags i, .sclCyc i,
   .vecVote i, .vecBcast i, .vecShfl i, .vecPerm i, .vecRed i, .vecScan i, .movK i, .embGen i, .embGen64 i, .nop i, .fenceT i,
   .evtSet i, .evtWait i, .evtTest i, .tokWait i, .tokTest i, .barG i, .barL i, .bra i, .brx i, .exit i]

/-- The commands that issue any other Yalzu instruction. -/
def memoryInstrs (i : Issue) : List Instr :=
  [.ld i, .st i, .atomAdd i, .atomMin i, .atomMax i, .atomAnd i, .atomOr i, .atomXor i, .atomXchg i, .atomCas i, .hredAdd i,
   .hredMin i, .hredMax i, .hredAnd i, .hredOr i, .hredXor i, .hredAddOrd i, .lockAcq i, .lockRel i, .mxfLd i, .mxfSt i, .mxfMma i,
   .mxfRel i, .mxdMma i, .cpy i, .vecEpi i, .fenceH i, .fenceX i]

end Sys2Proof.Machine

/-- Register instructions store nothing, in any form and with any exception. An instruction of formats R, I and K, an ember, a
branch, barrier, exit, event, token, NOP or FENCE.T, in every state and every form, with or without an exception, leaves
every byte of the hearth and near windows, their poison, the write hashes, every other tile, the tile's scratchpad and L1,
and the plans, fuses, flash, feed and pins as they are. (R142, R148, R149) -/
def Obligations.RegisterInstructionsTouchNoMemory : Prop :=
  ∀ (s t : State) (i : Issue), ∀ c ∈ registerInstrs i, exec c s = .next t →
    SameMem s t ∧ SameRest s t ∧ (∀ n, n ≠ i.tile.val → t.tile n = s.tile n) ∧
    (t.tile i.tile).scratch = (s.tile i.tile).scratch ∧ (t.tile i.tile).scratchBad = (s.tile i.tile).scratchBad ∧
    (t.tile i.tile).l1 = (s.tile i.tile).l1

/-- With no enabled lane a legal instruction only goes past itself. A legal arithmetic instruction, comparison, conversion,
constant, permutation, scan or ember with no enabled lane leaves its context as it is but for the address of the subgroup,
which goes past the instruction (VEC.RED and BALLOT are the spec's exceptions). (R142, R144, R251, R166) -/
def Obligations.NoEnabledLaneWritesNothing : Prop :=
  ∀ (s : State) (i : Issue) (x : Ctx) (u : Sub), Issues s i x u → enabledMask x u i = 0 →
    ∀ e ∈ (arithForms i).map (fun e => (e.1, e.2.2 && regOperandsOk e.2.1 i)) ++
      [(Instr.cmp i, cmpLegal i), (.movK i, movKLegal i), (.vecShfl i, permLegal i && decide (i.mod ≤ 2)),
       (.vecPerm i, permLegal i && !i.imm && decide (i.mod = 0)),
       (.vecScan i, redLegal i && !isScalar i.dst && pairOk i.type i.dst), (.embGen i, sysOk i && !isScalar i.dst)],
      e.2 = true → Issued e.1 i s (fun t => t.ctx i.tile i.ctx = some (x.past i.lane))

namespace Sys2Proof.Machine

/-- What a tile exception leaves (spec/03 R99, R100, R132, R133): the capture, unless one of this stoke is held, and the
tile in overrun of kind 4 with nothing resident. -/
def ExceptionTaken (s t : State) (n c code : Nat) (lanes : BitVec 32) (pc entry cyc : Nat) : Prop :=
  ((s.tile n).excTaken = false →
    t.rd (pgTil n) Reg.tilExcValid = 1 ∧ t.rd (pgTil n) Reg.tilExcCode = code ∧ t.rd (pgTil n) Reg.tilExcCtx = c ∧
    t.rd (pgTil n) Reg.tilExcPc = pc % 2 ^ Reg.tilExcPc.width ∧ t.rd (pgTil n) Reg.tilExcMaskLanes = lanes.toNat) ∧
  (t.tile n).overrun = true ∧ (t.tile n).excTaken = true ∧ (t.tile n).ctxs = [] ∧
  t.rd (pgTil n) Reg.tilOvrKind = 4 ∧ t.rd (pgTil n) Reg.tilOvrEntry = entry % 2 ^ Reg.tilOvrEntry.width ∧
  t.rd (pgTil n) Reg.tilOvrCycCycle = cyc % 2 ^ Reg.tilOvrCycCycle.width ∧ t.rd (pgTil n) Reg.tilState = 3

end Sys2Proof.Machine

/-- An instruction outside the code region raises ADDR; a poisoned instruction word is never issued. Whatever instruction a
ready subgroup of a tile that is not in overrun was to issue: when its address lies outside the code region, the first
exception of the stoke is captured with code 0x12, the context, the address and the subgroup's live lanes, and the tile
enters overrun of kind 4 with nothing resident. When the fetch finds the instruction word poisoned, in the cached line or in
the hearth, it does not issue: the tile is put in overrun of kind 7 with nothing resident, no tile exception is captured,
and a running stoke before its commit point fails by an uncorrectable error. No byte of memory changes. (R89, R99, R100,
R132, R133, R171, R496, R753) -/
def Obligations.FetchChecksTheRegionAndPoison : Prop :=
  ∀ (s : State) (i : Issue) (x : Ctx) (u : Sub), (s.tile i.tile).stop = none → s.ctx i.tile i.ctx = some x →
    x.subOf i.lane = some u → u.wait = .ready → (s.tile i.tile).overrun = false → ∀ c ∈ registerInstrs i ++ memoryInstrs i,
    (s.inCode u.pc 8 = false → Issued c i s (fun t =>
      ExceptionTaken s t i.tile i.ctx 0x12 (u.mask &&& x.live) u.pc x.entry i.cyc.toNat ∧ SameMem s t)) ∧
    (s.inCode u.pc 8 = true → s.fetchBad i.tile u.pc = true → Issued c i s (fun t =>
      (t.tile i.tile).overrun = true ∧ (t.tile i.tile).ctxs = [] ∧ t.rd (pgTil i.tile) Reg.tilOvrKind = 7 ∧
      t.rd (pgTil i.tile) Reg.tilOvrEntry = x.entry % 2 ^ Reg.tilOvrEntry.width ∧
      (t.tile i.tile).excTaken = (s.tile i.tile).excTaken ∧ t.rd (pgTil i.tile) Reg.tilExcCode = s.rd (pgTil i.tile) Reg.tilExcCode ∧
      (s.running = true → s.stoke.phase.rank ≤ Phase.writeback.rank → t.stoke.fails = s.stoke.fails ++ [2]) ∧ SameMem s t))

/-- An encoding that the tables do not list raises ILLEGAL in the enabled lanes. Whatever command brings a word whose FMT and OP
the tables do not list, and when an arithmetic instruction, comparison, constant, collective, system instruction or branch
issues in a form that the tables do not allow: with a lane enabled, the first exception of the stoke is captured with code
0x10 and the enabled lanes, the tile is in overrun of kind 4, and memory is unchanged. A word that spells another
instruction than the command's leaves the state as it is (the model's choice, notes/assumptions/3.md). (R99, R100, R132,
R133, R137, R139, R148) -/
def Obligations.IllegalEncodingsRaiseIllegal : Prop :=
  ∀ (s : State) (i : Issue) (x : Ctx) (u : Sub), Issues s i x u → enabledMask x u i ≠ 0 → (s.tile i.tile).overrun = false →
    let illegal := fun (t : State) =>
      ExceptionTaken s t i.tile i.ctx 0x10 (enabledMask x u i) u.pc x.entry i.cyc.toNat ∧ SameMem s t
    (∀ c ∈ registerInstrs i ++ memoryInstrs i,
      (i.listed = false → Gives c s illegal) ∧ (i.listed = true → i.spells c = false → exec c s = .next s)) ∧
    ∀ e ∈ (arithForms i).map (fun e => (e.1, e.2.2 && regOperandsOk e.2.1 i)) ++
      [(Instr.cmp i, cmpLegal i), (.movK i, movKLegal i), (.vecVote i, voteLegal i), (.vecRed i, redLegal i && redOperands i),
       (.vecScan i, redLegal i && !isScalar i.dst && pairOk i.type i.dst), (.nop i, sysOk i), (.exit i, sysOk i),
       (.fenceT i, sysOk i), (.fenceH i, sysOk i), (.fenceX i, sysOk i), (.evtSet i, sysOk i), (.evtWait i, sysOk i),
       (.tokWait i, sysOk i), (.evtTest i, testLegal i), (.tokTest i, testLegal i), (.barG i, barLegal i), (.barL i, barLegal i),
       (.bra i, branchLegal i), (.lockAcq i, lockLegal i), (.lockRel i, lockLegal i)],
      e.2 = false → Issued e.1 i s illegal

/-! ## Memory instructions, locks and control (spec/03, spec/04, spec/08) -/

namespace Sys2Proof.Machine

/-- No TLM_FLIP is armed for the tile, and every line of it carries the CRC of its data (spec/08 R296, R301). -/
def NoFlips (s : State) (n : Nat) : Prop :=
  s.flag (pgTlm n) Reg.tlmFlipArm = false ∧ (s.tile n).scratchDiff = [] ∧ ∀ e ∈ (s.tile n).l1, e.2.crcDiff = 0

/-- A register, or a pair for 8 bytes, holds a value that a load of `len` bytes has placed (spec/04 R153). -/
def Loaded (i : Issue) (y : Ctx) (len j v : Nat) : Prop :=
  if isScalar i.mData then y.sreg (opReg i.mData) = v
  else if len = 8 then y.opVal 64 i.mData j = v else y.vreg i.mData j = v

/-- The atomics of an issue with their OP codes and legal forms (spec/04 R149, R155, R156). -/
def atomForms (i : Issue) : List (Instr × Nat × Bool) :=
  [(.atomAdd i, 0x03, atomLegal i 5), (.atomMin i, 0x04, atomLegal i 5), (.atomMax i, 0x05, atomLegal i 5),
   (.atomAnd i, 0x06, atomLegal i 5), (.atomOr i, 0x07, atomLegal i 5), (.atomXor i, 0x08, atomLegal i 5),
   (.atomXchg i, 0x09, atomLegal i 5), (.atomCas i, 0x0A, atomLegal i 5 && casLegal i)]

/-- The hearth reductions of an issue (spec/04 R149, R155, R157). -/
def hredForms (i : Issue) : List (Instr × Nat × Bool) :=
  [(.hredAdd i, 0x10, atomLegal i 5), (.hredMin i, 0x11, atomLegal i 5), (.hredMax i, 0x12, atomLegal i 5),
   (.hredAnd i, 0x14, atomLegal i 3), (.hredOr i, 0x15, atomLegal i 3), (.hredXor i, 0x16, atomLegal i 3),
   (.hredAddOrd i, 0x13, atomLegal i 5 && decide (4 ≤ i.type) && !i.mNoidx && decide (i.mScale = 0))]

/-- Every access of an instruction is allowed: aligned, and in the scratchpad or a mapped region (spec/04 R154). -/
def AccessOk (s : State) (i : Issue) (x : Ctx) (en : BitVec 32) (ord write : Bool) (len : Nat) : Prop :=
  ∀ j ∈ accessLanes i en, s.accessFault i.tile i.mGlob (mAddr i ord x j) len write = none

end Sys2Proof.Machine

/-- LD places the bytes at each lane's address, zero-extended, or waits for its fill. A legal LD whose accesses are allowed
completes: LD.S places in each accessing lane's register (a pair for 64 bits, the scalar register once) the little-endian
value of the scratchpad bytes at its address; LD.G whose accesses all hit does so from their L1 lines; when none hits the
subgroup goes past the instruction and waits for the accesses that missed. No byte of the hearth and near windows changes.
(R152, R153, R282, R142, R144) -/
def Obligations.LoadsDeliverMemory : Prop :=
  ∀ (s : State) (i : Issue) (x : Ctx) (u : Sub), Issues s i x u → enabledMask x u i ≠ 0 → ldLegal i = true →
    i.ups = [] → NoFlips s i.tile →
    let len := 2 ^ i.type
    let lanes := accessLanes i (enabledMask x u i)
    AccessOk s i x (enabledMask x u i) false false len →
    (i.mGlob = false → Issued (.ld i) i s (fun t => (∀ a, t.byteAt a = s.byteAt a) ∧ CtxIs i t (fun y => ∀ j ∈ lanes,
      Loaded i y len j ((s.tile i.tile).scratchNat (mAddr i false x j) len)))) ∧
    (i.mGlob = true → (∀ j ∈ lanes, ((s.tile i.tile).l1Hit (mAddr i false x j) len).isSome = true) →
      Issued (.ld i) i s (fun t => (∀ a, t.byteAt a = s.byteAt a) ∧ CtxIs i t (fun y => ∀ j ∈ lanes, ∀ k l,
        (s.tile i.tile).l1Hit (mAddr i false x j) len = some (k, l) →
          Loaded i y len j (getFromLine l.data (mAddr i false x j) len)))) ∧
    (i.mGlob = true → (∀ j ∈ lanes, (s.tile i.tile).l1Hit (mAddr i false x j) len = none) →
      Issued (.ld i) i s (fun t => (∀ a, t.byteAt a = s.byteAt a) ∧ CtxIs i t (fun y =>
        y.subOf i.lane = some { u with pc := u.pc + 8, wait := .fill (loadAccs i x (enabledMask x u i)) i.mHint })))

/-- ST writes its bytes in the scratchpad or the L1, the highest lane last. A legal ST whose accesses are allowed, with no flip
armed: ST.S leaves at every lane's address the value of the highest lane that names it and every other scratchpad byte as it
was; ST.G that makes one access, with a line or a way for it and no wait at the dirty-line limit, leaves a line in the L1
that answers a load of the same bytes with the stored value and holds them dirty; at the dirty-line limit it does not issue:
the context stays as it is and DIRTY_LIMIT is raised. (R107, R149, R153, R282, R287, R293) -/
def Obligations.StoresReachTileMemory : Prop :=
  ∀ (s : State) (i : Issue) (x : Ctx) (u : Sub), Issues s i x u → enabledMask x u i ≠ 0 → stLegal i = true →
    i.ups = [] → NoFlips s i.tile →
    let len := 2 ^ i.type
    let lanes := accessLanes i (enabledMask x u i)
    let addr := mAddr i false x
    AccessOk s i x (enabledMask x u i) false true len →
    (i.mGlob = false → Issued (.st i) i s (fun t => SameMem s t ∧ t.ctx i.tile i.ctx = some (x.past i.lane) ∧
      (∀ j ∈ lanes, (∀ k ∈ lanes, j < k → addr k ≠ addr j) →
        (t.tile i.tile).scratchNat (addr j) len = (storeVal i x j len).1) ∧
      ∀ a, (∀ j ∈ lanes, a < addr j ∨ addr j + len ≤ a) → (t.tile i.tile).scratchByte a = (s.tile i.tile).scratchByte a)) ∧
    (i.mGlob = true → s.split i.tile < 4 → s.dirtyWait i.tile (lanes.map addr) = true → Issued (.st i) i s (fun t =>
      SameMem s t ∧ t.ctx i.tile i.ctx = some x ∧ bitAt (t.rd (pgTlm i.tile) Reg.intRaw) Reg.causeTlmDirtyLimit = true)) ∧
    (i.mGlob = true → ∀ j, lanes = [j] → s.dirtyWait i.tile (lanes.map addr) = false →
      ((s.tile i.tile).l1Find (addr j)).isSome = true ∨ (s.l1Take i.tile (setOf (addr j))).1.isSome = true →
      Issued (.st i) i s (fun t => ∃ k l, (t.tile i.tile).l1Hit (addr j) len = some (k, l) ∧ getFromLine l.data (addr j) len = (storeVal i x j len).1 ∧
          byteMask (addr j) len &&& ~~~l.dirty = 0))

/-- An access that is not aligned to its size raises MISALIGN, and nothing is accessed. When a legal load, store, atomic or
hearth reduction has an enabled lane whose address is not a multiple of the access size, the first exception of the stoke is
captured with code 0x11 (the lowest code that its lanes raise) and the lanes that raise it, the tile is in overrun of kind
4, and no byte of the hearth and near windows, of scratchpad and of the L1 changes. (R132, R133, R148, R154) -/
def Obligations.MisalignedAccessesRaiseMisalign : Prop :=
  ∀ (s : State) (i : Issue) (x : Ctx) (u : Sub), Issues s i x u → enabledMask x u i ≠ 0 → (s.tile i.tile).overrun = false →
    ∀ e ∈ [(Instr.ld i, ldLegal i, false, 2 ^ i.type), (.st i, stLegal i, false, 2 ^ i.type)] ++
      (atomForms i).map (fun e => (e.1, e.2.2, false, atomSize i.type)) ++
      (hredForms i).map (fun e => (e.1, e.2.2, decide (e.2.1 = 0x13), atomSize i.type)),
      e.2.1 = true →
      let en := enabledMask x u i
      let off := (accessLanes i en).filter (fun j => decide (mAddr i e.2.2.1 x j % e.2.2.2 ≠ 0))
      off ≠ [] → Issued e.1 i s (fun t =>
        ExceptionTaken s t i.tile i.ctx 0x11 (if isScalar i.mData then en else maskLanes off) u.pc x.entry i.cyc.toNat ∧
        SameMem s t ∧ (t.tile i.tile).scratch = (s.tile i.tile).scratch ∧ (t.tile i.tile).l1 = (s.tile i.tile).l1)

/-- ATOM.S returns the old value and leaves the operation's result. A legal ATOM on a scratchpad word by one access, allowed and
with no flip armed, places the old value in DATA (extended by TYPE in a scalar register) and leaves in the word the
operation of the old value and DATA: the sum, minimum, maximum, AND, OR or XOR under TYPE, DATA for XCHG, and for CAS the
next register's value exactly when the old value equals DATA; it counts a V issue. (R149, R155, R156, R157, R330) -/
def Obligations.ScratchAtomicsReadModifyWrite : Prop :=
  ∀ (s : State) (i : Issue) (x : Ctx) (u : Sub) (j : Nat), Issues s i x u → accessLanes i (enabledMask x u i) = [j] →
    i.ups = [] → NoFlips s i.tile → i.mGlob = false →
    let w := tyWidth i.type
    let a := mAddr i false x j
    AccessOk s i x (enabledMask x u i) false true (w / 8) →
    let old := (s.tile i.tile).scratchNat a (w / 8)
    ∀ e ∈ atomForms i, e.2.2 = true → Issued e.1 i s (fun t =>
      SameMem s t ∧ (t.tile i.tile).vIssues = (s.tile i.tile).vIssues + 1 ∧
      (t.tile i.tile).scratchNat a (w / 8) =
        (((redValue e.2.1 i.type old (x.opVal w i.mData j) (x.opVal w (casNew i) j)).1).getD old) % 2 ^ w ∧
      CtxIs i t (fun y => if isScalar i.mData then y.sreg (opReg i.mData) = scalarExt i.type old
        else y.opVal w i.mData j = old))

/-- Global atomics and HRED send their operations to the partitions. Every legal global atomic and hearth reduction (HRED.ADD,
MIN, MAX, AND, OR, XOR and ADD.ORD) with a lane enabled, whose accesses are allowed and none far, completes: it sends
requests of this group, one sector each, that together hold every accessing lane's operation; the requests already sent stay
before them. The group's count of reductions grows by the accesses; the subgroup of an ATOM waits for the requests' old
values, that of an HRED is past its instruction and goes on. (R129, R155, R157, R331) -/
def Obligations.PartitionOperationsAreSent : Prop :=
  ∀ (s : State) (i : Issue) (x : Ctx) (u : Sub), Issues s i x u → enabledMask x u i ≠ 0 → i.mGlob = true →
    let en := enabledMask x u i
    let lanes := accessLanes i en
    let size := atomSize i.type
    let sends := fun (op : Nat) (t : State) (wait : List Nat → Wait) => ∃ qs, t.hub.redSent = s.hub.redSent ++ qs ∧
      (∀ q ∈ qs, q.op = op ∧ q.type = i.type ∧ q.tile = i.tile.val ∧ q.ctx = i.ctx.val ∧
        ∀ o ∈ q.ops, ∀ o' ∈ q.ops, lineOf o.addr = lineOf o'.addr) ∧
      (∀ j ∈ lanes, ∃ q ∈ qs, redOp i op x j ∈ q.ops) ∧
      CtxIs i t (fun y => y.reds = x.reds + lanes.length ∧
        y.subOf i.lane = some { u with pc := u.pc + 8, wait := wait (qs.map (fun q => q.id)) })
    let atomic := fun t op => sends op t (fun ids => .atom ids)
    let reduction := fun t op => sends op t (fun _ => .ready)
    let near := ∀ j ∈ lanes, isFar (mAddr i false x j) = false
    (AccessOk s i x en false true size → near → atomLegal i 5 = true →
      Issued (.atomAdd i) i s (atomic · 0x03) ∧ Issued (.atomMin i) i s (atomic · 0x04) ∧ Issued (.atomMax i) i s (atomic · 0x05) ∧
      Issued (.atomAnd i) i s (atomic · 0x06) ∧ Issued (.atomOr i) i s (atomic · 0x07) ∧ Issued (.atomXor i) i s (atomic · 0x08) ∧
      Issued (.atomXchg i) i s (atomic · 0x09) ∧ (casLegal i = true → Issued (.atomCas i) i s (atomic · 0x0A)) ∧
      Issued (.hredAdd i) i s (reduction · 0x10) ∧ Issued (.hredMin i) i s (reduction · 0x11) ∧
      Issued (.hredMax i) i s (reduction · 0x12) ∧
      (i.type ≤ 3 → Issued (.hredAnd i) i s (reduction · 0x14) ∧ Issued (.hredOr i) i s (reduction · 0x15) ∧
        Issued (.hredXor i) i s (reduction · 0x16))) ∧
    (AccessOk s i x en true true size → (∀ j ∈ lanes, isFar (mAddr i true x j) = false) → atomLegal i 5 = true → 4 ≤ i.type →
      i.mNoidx = false → i.mScale = 0 → Issued (.hredAddOrd i) i s (reduction · 0x13))

/-- LOCK.ACQ grants free words to the lowest lanes, LOCK.REL frees them, LOCK_POLL retries. A legal LOCK.ACQ of one word, of
scratchpad or homed in the hearth (its line then not in the L1), well placed, free and granted to no lane in the same cycle,
by a context with fewer than 8 locks and no flip armed, is granted to the lowest enabled lane: the word holds its lock value
and the context lists the lock. A legal LOCK.REL by the one enabled lane that holds it, with no lane parked on it (of a
hearth word: with an empty L1 and no reduction unacknowledged), leaves 0 in the word and takes the lock from the list. No
other byte of the hearth and near windows changes. LOCK_POLL of a lane parked on a hearth-homed word that is free grants it
to the subgroup's lowest lane, which goes past its acquire; while the word is held it changes nothing but the cycle shown.
(R120, R121, R122, R123, R124, R126, R329) -/
def Obligations.LocksAreGrantedAndReleased : Prop :=
  (∀ (s : State) (i : Issue) (x : Ctx) (u : Sub) (a : Nat) (j : Nat) (js : List Nat), Issues s i x u → lockLegal i = true →
    i.ups = [] → NoFlips s i.tile → lanesOf (enabledMask x u i) = j :: js →
    (∀ k ∈ j :: js, mAddr i false x k = a) → s.lockAddrBad i.tile i.mGlob a = false →
    let others := fun (t : State) => ∀ b, i.mGlob = false ∨ b < a ∨ a + 4 ≤ b → t.byteAt b = s.byteAt b
    (s.lockWord i.tile i.mGlob a = 0 → x.locks.length < 8 → (∀ w ∈ (s.tile i.tile).won, w.glob ≠ i.mGlob ∨ w.addr ≠ a) →
      (i.mGlob = true → (s.tile i.tile).l1Find a = none) → Issued (.lockAcq i) i s (fun t =>
        t.lockWord i.tile i.mGlob a = s.lockValue i.tile i.ctx j % 2 ^ 32 ∧
        CtxIs i t (fun y => y.locks = x.locks ++ [(j, i.mGlob, a)]) ∧ others t)) ∧
    (js = [] → s.lockWord i.tile i.mGlob a = s.lockValue i.tile i.ctx j → (s.tile i.tile).parkedOn i.mGlob a = [] →
      (i.mGlob = true → (s.tile i.tile).l1 = [] ∧ x.reds = 0) → Issued (.lockRel i) i s (fun t =>
        t.lockWord i.tile i.mGlob a = 0 ∧ others t ∧
        CtxIs i t (fun y => y.locks = x.locks.filter (fun k => k ≠ (j, i.mGlob, a)))))) ∧
  ∀ (s : State) (n : Fin 160) (c j : Fin 32) (cyc : BitVec 32) (x : Ctx) (u : Sub) (a : Nat), s.ctx n c = some x →
    x.subOf j = some u → u.wait = .park true a → (∀ w ∈ (s.tile n).won, w.glob = false ∨ w.addr ≠ a) →
    (s.natAt a 4 ≠ 0 → exec (.lockPoll n c j cyc) s = .next (s.atCycle cyc.toNat)) ∧
    (s.natAt a 4 = 0 → x.locks.length < 8 → Gives (.lockPoll n c j cyc) s (fun t =>
      t.natAt a 4 = s.lockValue n c ((lanesOf u.mask).headD j) % 2 ^ 32 ∧
      ∃ y, t.ctx n c = some y ∧ y.locks = x.locks ++ [((lanesOf u.mask).headD j, true, a)]))

/-- BRA and BRX take the enabled lanes to their target and split the rest off. A legal branch with an enabled lane whose target
is aligned and in the code region completes: when every live lane of the subgroup is enabled, the context is as before with
the subgroup at the target; when some are not and the split stack has room, the taken lanes stand at the target, the others
past the branch, and the join address with the subgroup's lanes is pushed, before lanes at a join address settle. BRA's
target is its offset from the branch, BRX's the scalar register. (R103, R138, R142, R168) -/
def Obligations.BranchesMoveTheSubgroup : Prop :=
  ∀ (s : State) (i : Issue) (x : Ctx) (u : Sub), Issues s i x u → enabledMask x u i ≠ 0 → branchLegal i = true →
    let en := enabledMask x u i
    let rest := u.mask &&& x.live &&& ~~~en
    ∀ e ∈ [(Instr.bra i, ofInt 64 (u.pc + 8 * toSigned 20 (i.bitsOf 24 20)), true),
        (.brx i, x.sreg (i.bitsOf 38 6), decide (i.bitsOf 24 14 = 0))],
      e.2.2 = true → e.2.1 % 8 = 0 → s.inCode e.2.1 8 = true →
      (rest = 0 → Issued e.1 i s (fun t => SameMem s t ∧ t.ctx i.tile i.ctx = some (x.goto i.lane e.2.1))) ∧
      (rest ≠ 0 → x.stack.length < 16 → Issued e.1 i s (fun t => SameMem s t ∧ t.ctx i.tile i.ctx =
        some (x.diverge i.lane en e.2.1 (ofInt 64 (u.pc + 8 * toSigned 20 (i.bitsOf 4 20))))))

/-- NOP, FENCE.T, EXIT, barriers, event flags and tokens. Legal system instructions complete. NOP and FENCE.T only go past. EXIT
of lanes without locks takes them out of the context's live lanes, and a group whose lanes have all exited leaves its
context. BAR.G by all lanes of the group releases at once with the subgroup past it and its epoch one higher; by some lanes
it waits. BAR.L of a launch with other live lanes waits. EVT.SET sets flag IMM4 of the tile. EVT.WAIT and TOK.WAIT go past
when the flag is set or no operation is on the token, otherwise the subgroup waits for it. EVT.TEST and TOK.TEST write the
flag, or that the token is complete, to the enabled lanes of Qd. (R92, R114, R115, R116, R117, R128, R163, R169, R752) -/
def Obligations.BarriersEventsAndExits : Prop :=
  ∀ (s : State) (i : Issue) (x : Ctx) (u : Sub), Issues s i x u → sysOk i = true →
    let en := enabledMask x u i
    let k := imm4 i
    let ops := ((s.tile i.tile).ops.filter (fun e => e.2 = k)).map (fun e => e.1)
    let past := fun (t : State) => t.ctx i.tile i.ctx = some (x.past i.lane)
    Issued (.nop i) i s past ∧ Issued (.fenceT i) i s past ∧
    (en ≠ 0 → (∀ j, en.getLsbD j = true → ∀ l ∈ x.locks, l.1 ≠ j) →
      (x.live &&& ~~~en = 0 → Issued (.exit i) i s (fun t => t.ctx i.tile i.ctx = none)) ∧
      (x.live &&& ~~~en ≠ 0 → Issued (.exit i) i s (fun t => CtxIs i t (fun y => y.live = x.live &&& ~~~en)))) ∧
    (barLegal i = true → en ≠ 0 → (∀ v ∈ x.subs, v.wait = .ready) → x.locks = [] →
      (x.subs = [u] → u.mask = x.live → x.stack = [] → Issued (.barG i) i s (fun t => CtxIs i t (fun y =>
        y.subs = [{ u with pc := u.pc + 8, epoch := u.epoch + 1 }]))) ∧
      (x.live &&& ~~~((x.pastWait i.lane (.bar false k)).atBar false) ≠ 0 → Issued (.barG i) i s (fun t => CtxIs i t (fun y =>
        y.subOf i.lane = some { u with pc := u.pc + 8, wait := .bar false k }))) ∧
      ((s.tile i.tile).pendingBar x true = none → x.live &&& ~~~((x.pastWait i.lane (.bar true k)).atBar true) ≠ 0 → Issued (.barL i) i s (fun t =>
        CtxIs i t (fun y => y.subOf i.lane = some { u with pc := u.pc + 8, wait := .bar true k })))) ∧
    (en ≠ 0 → Issued (.evtSet i) i s (fun t => t.evtFlag i.tile k = true)) ∧
    (s.evtFlag i.tile k = true → Issued (.evtWait i) i s past) ∧
    (en ≠ 0 → s.evtFlag i.tile k = false → Issued (.evtWait i) i s (fun t => CtxIs i t (fun y =>
      y.subOf i.lane = some { u with pc := u.pc + 8, wait := .evt k }))) ∧
    (ops = [] → Issued (.tokWait i) i s past) ∧
    (en ≠ 0 → ops ≠ [] → Issued (.tokWait i) i s (fun t => CtxIs i t (fun y =>
      y.subOf i.lane = some { u with pc := u.pc + 8, wait := .tok ops }))) ∧
    (en ≠ 0 → 1 ≤ i.dst → i.dst ≤ 7 →
      Issued (.evtTest i) i s (fun t => CtxIs i t (fun y => PredicateIs x y en i.dst (fun _ => s.evtFlag i.tile k))) ∧
      Issued (.tokTest i) i s (fun t => CtxIs i t (fun y => PredicateIs x y en i.dst (fun _ => decide (ops = [])))))

/-- FENCE.H and FENCE.X empty the L1; fills return; the cleaner writes back. A legal FENCE.H or FENCE.X with a lane enabled,
whose tile's L1 holds no far line, writes the L1 back; with no reduction of the group (and for FENCE.X no far write of the
tile) unacknowledged the subgroup goes past, otherwise it waits in the fence. L1_FILL_RETURN of a hearth or near line that a
load waits for, with no wipe running and whatever bits of its words are inverted on the way, completes every access to that
line: no subgroup of a context waits for it any more. The cleaner below CLEAN_AT does nothing; at or above it the lines it
takes stay in the L1. (R129, R130, R282, R294) -/
def Obligations.FencesAndFillsServeTheL1 : Prop :=
  (∀ (s : State) (i : Issue) (x : Ctx) (u : Sub), Issues s i x u → sysOk i = true → enabledMask x u i ≠ 0 →
    (∀ e ∈ (s.tile i.tile).l1, isFar e.2.addr = false) →
    (x.reds = 0 → Issued (.fenceH i) i s (fun t => t.ctx i.tile i.ctx = some (x.past i.lane))) ∧
    (x.reds ≠ 0 → Issued (.fenceH i) i s (fun t => CtxIs i t (fun y =>
      y.subOf i.lane = some { u with pc := u.pc + 8, wait := .fence false }))) ∧
    (x.reds = 0 → (s.tile i.tile).farWrites = 0 → Issued (.fenceX i) i s (fun t =>
      t.ctx i.tile i.ctx = some (x.past i.lane))) ∧
    (x.reds ≠ 0 → Issued (.fenceX i) i s (fun t => CtxIs i t (fun y =>
      y.subOf i.lane = some { u with pc := u.pc + 8, wait := .fence true })))) ∧
  (∀ (s : State) (n : Fin 160) (a : BitVec 64) (words : List (Fin 8 × BitVec 80)), isFar a.toNat = false →
    s.hub.wiping = false → ((s.tile n).waitsFor (lineOf a.toNat)).isSome = true →
    Gives (.l1FillReturn n a words) s (fun t => ∀ c x, s.ctx n c = some x → ∃ y, t.ctx n c = some y ∧
      ∀ u ∈ y.subs, ∀ accs h, u.wait = .fill accs h → ∀ b ∈ accs, lineOf b.addr ≠ lineOf a.toNat)) ∧
  ∀ (s : State) (n : Fin 160),
    ((s.tile n).dirtyCount < s.rd (pgTlm n) Reg.tlmCleanCleanAt → exec (.dirtyLineCleaner n) s = .next s) ∧
    (∀ k l, s.rd (pgTlm n) Reg.tlmCleanCleanAt ≤ (s.tile n).dirtyCount → (s.tile n).l1 = [(k, l)] → l.dirty ≠ 0 →
      l.crcDiff = 0 → isFar l.addr = false → Gives (.dirtyLineCleaner n) s (fun t => (t.tile n).dirtyCount = 0 ∧
        ∃ l', (t.tile n).l1 = [(k, l')] ∧ l'.data = l.data ∧ l'.valid = l.valid ∧ l'.addr = l.addr))

/-- REDUCTION_ACCEPT, REDUCTION_APPLY and ORD_RESEND. REDUCTION_ACCEPT moves a request that does not have to wait (for a line
that the host may hold, a line being written back, a victim buffer with room, or a wipe) from those sent to the end of those
accepted; one that waits stays. REDUCTION_APPLY performs the partition's oldest accepted request whose sector is filled,
where no stored word of a bank is in error: with one operation that is not ordered, the word at its address holds the
operation of its old value and the operand (the old value where CAS does not match), and the request is accepted no longer.
ORD_RESEND sends a refused contribution again. (R328, R331, R333, R339, R343, R346) -/
def Obligations.PartitionsPerformReductions : Prop :=
  (∀ (s : State) (id : Nat) (r : RedReq), s.hub.redSent.find? (fun q => q.id = id) = some r →
    (s.hostHolds r.addr 8 = false → s.blocked r.addr 2 = false →
      Gives (.reductionAccept id) s (fun t => t.hub.redSent = s.hub.redSent.filter (fun q => q.id ≠ r.id) ∧
        t.hub.redAcc = s.hub.redAcc ++ [r])) ∧
    (s.hostHolds r.addr 8 = true ∨ s.blocked r.addr 2 = true → Gives (.reductionAccept id) s (fun t =>
      t.hub.redSent = s.hub.redSent ∧ t.hub.redAcc = s.hub.redAcc))) ∧
  (∀ (s : State) (p : Fin 160) (r : RedReq) (o : RedOp),
    s.hub.redAcc.find? (fun q => q.part = p.val && s.redFilled q) = some r → s.hub.bankErr = [] →
    r.ops = [o] → r.op ≠ 0x13 → r.type ≤ 5 →
    let w := tyWidth r.type
    Gives (.reductionApply p) s (fun t => t.hub.redAcc = s.hub.redAcc.filter (fun q => q.id ≠ r.id) ∧
      t.natAt o.addr (w / 8) = ((redValue r.op r.type (s.natAt o.addr (w / 8)) o.val o.new).1).getD
        (s.natAt o.addr (w / 8)) % 2 ^ w)) ∧
  ∀ (s : State) (id : Nat) (r : RedReq), s.hub.ordWait.find? (fun q => q.id = id) = some r →
    Gives (.ordResend id) s (fun t => t.hub.redSent = s.hub.redSent ++ [r] ∧
      t.hub.ordWait = s.hub.ordWait.filter (fun q => q.id ≠ id))

/-! ## Matrix arrays, epilogues and copies (spec/05, spec/07, spec/09) -/

/-- MXF.LD, MXF.ST, MXF.MMA and MXF.REL. With all 32 lanes and an array that takes instructions: a legal MXF.LD from the
scratchpad places in every register of FD the bytes that its layout names, and MXF.ST leaves them in the scratchpad where no
two of its accesses overlap; a legal MXF.MMA queues the fragment product of its three fragments and its subgroup waits for
the release; MXF.REL ends the group's fragment holding, which the others begin. With fewer lanes a legal MXF instruction
without a faulting access raises FRAG_PARTIAL. (R113, R159, R160, R191, R194, R750) -/
def Obligations.FragmentInstructions : Prop :=
  ∀ (s : State) (i : Issue) (x : Ctx) (u : Sub), Issues s i x u → s.mxfOk i = true → i.ups = [] → NoFlips s i.tile →
    let en := enabledMask x u i
    let accs := fragAccs i.type i.xFD (x.sreg i.xFA) (x.sreg i.xFB)
    (en = BitVec.allOnes 32 →
      (mxfMemLegal i = true → i.xGlob = false → s.mxfFault i false x = none → Issued (.mxfLd i) i s (fun t =>
        SameMem s t ∧ CtxIs i t (fun y => y.frag = true ∧ ∀ a ∈ accs,
          (if a.size = 8 then y.vreg a.reg a.lane + y.vreg (a.reg + 1) a.lane * 2 ^ 32 else y.vreg a.reg a.lane) =
            (s.tile i.tile).scratchNat a.addr a.size))) ∧
      (mxfMemLegal i = true → i.xGlob = false → s.mxfFault i true x = none →
        accs.Pairwise (fun a b => a.addr + a.size ≤ b.addr ∨ b.addr + b.size ≤ a.addr) →
        Issued (.mxfSt i) i s (fun t => SameMem s t ∧ (CtxIs i t (fun y => y.frag = true)) ∧ ∀ a ∈ accs,
          (t.tile i.tile).scratchNat a.addr a.size = (fragStoreVal i x a).1)) ∧
      (mmaLegal i = true → Issued (.mxfMma i) i s (fun t => ∃ m,
        (t.tile i.tile).mx.frags = (s.tile i.tile).mx.frags ++ [m] ∧ m.ctx = i.ctx.val ∧ m.id = (s.tile i.tile).nextOp ∧
        m.type = i.type ∧ m.slices = s.slicesOf i.tile i.xSlices ∧ m.fd = i.xFD ∧ m.a = x.fragment i.type i.xFA ∧
        m.b = x.fragment i.type i.xFB ∧ m.c = x.fragment (accType i.type) i.xFC ∧ m.spoilt = issueSpoils i ∧
        CtxIs i t (fun y => y.frag = true ∧ y.subOf i.lane = some { u with pc := u.pc + 8, wait := .mma m.id }))) ∧
      (mxfRelLegal i = true → Issued (.mxfRel i) i s (fun t => CtxIs i t (fun y => y.frag = false)))) ∧
    (en ≠ 0 → en ≠ BitVec.allOnes 32 → (s.tile i.tile).overrun = false →
      ∀ e ∈ [(Instr.mxfMma i, mmaLegal i), (.mxfRel i, mxfRelLegal i)], e.2 = true → Issued e.1 i s (fun t =>
        ExceptionTaken s t i.tile i.ctx 0x18 en u.pc x.entry i.cyc.toNat))

/-- MXD.MMA, CPY and VEC.EPI copy their descriptor and start on their token. A legal MXD.MMA, CPY or VEC.EPI with a lane
enabled, its token free and room for it, whose descriptor lies aligned within the scratchpad, is valid and names reachable
extents, is queued with the descriptor's words as they stood, and its operation is pending on the token; while an operation
is pending on the token, or without room, it does not issue and changes nothing but the counters of Smoke. (R161, R162,
R179, R185, R264, R349) -/
def Obligations.DescriptorInstructionsStartOnTheirToken : Prop :=
  ∀ (s : State) (i : Issue) (x : Ctx) (u : Sub), Issues s i x u → enabledMask x u i ≠ 0 → i.bitsOf 0 34 = 0 →
    i.ups = [] → NoFlips s i.tile →
    let a := x.sreg (sdesc i)
    let ws := s.descWords i.tile a
    let t0 := s.tile i.tile
    let ready := t0.tokBusy (tokenOf i) = false ∧ a % 64 = 0 ∧ s.reachable i.tile false a 64 false = true
    let started := fun (t : State) => (t.tile i.tile).ops = t0.ops ++ [(t0.nextOp, tokenOf i)] ∧
      t.ctx i.tile i.ctx = some (x.past i.lane) ∧ SameMem s t
    (4 ≤ i.type → s.mxUp i.tile = true →
      (ready → t0.mxPending < 8 → mxValid i.type ws = true → (mxExtents i.type ws).all (s.extentOk i.tile) = true →
        Issued (.mxdMma i) i s (fun t => started t ∧ ∃ d, (t.tile i.tile).mx.descs = t0.mx.descs ++ [d] ∧ d.words = ws ∧
          d.op = t0.nextOp ∧ d.token = tokenOf i ∧ d.pass = 0)) ∧
      (t0.tokBusy (tokenOf i) = true ∨ 8 ≤ t0.mxPending → Issued (.mxdMma i) i s (fun t =>
        t.ctx i.tile i.ctx = some x ∧ (t.tile i.tile).mx.descs = t0.mx.descs ∧ SameMem s t))) ∧
    (i.type = 0 → ready → cpValid ws = true → ((if cpZero ws then [cpDst ws] else [cpSrc ws, cpDst ws])).all
        (s.extentOk i.tile) = true →
      Issued (.cpy i) i s (fun t => started t ∧ (t.tile i.tile).copies = t0.copies ++
        [{ words := ws, token := tokenOf i, op := t0.nextOp }])) ∧
    (4 ≤ i.type → i.type ≤ 7 → ready → t0.epiPending < 8 → epiValid i.type t0.epiBytes ws = true →
      (epiExtents i.type t0.epiBytes ws).all (s.extentOk i.tile) = true →
      Issued (.vecEpi i) i s (fun t => started t ∧ ∃ e, (t.tile i.tile).epis = t0.epis ++ [e] ∧ e.words = ws ∧
        e.op = t0.nextOp ∧ e.tile = []))

/-- Passes and fragment products are released, retried, or bring in the spare row. An array that no failed attempt of other work
holds attempts its head pass at MXA_PASS_RELEASE: when the attempt's checks hold, no operand is poisoned and the queue has
room, the pass is counted and the descriptor goes to its next pass, or leaves the array after its last; when a check of a
first attempt fails, the pass waits for a retry, counted and captured with its first row; when a feeder entry's CRC differs,
the attempt is aborted and captured as class 3. MXF_MMA_RELEASE with the checks passed takes the oldest product off and, in
the group that issued it, writes its registers. MXA_RETRY_START makes waiting work run again with its feeders empty, and
changes nothing else; SUBSTITUTION_DONE puts the spare row in place of the faulty row, keeps it in the repair record and
makes the work ready. EPI_START of the oldest epilogue takes the head tile when it is valid and frees its entries. (R185,
R194, R198, R204, R206, R207, R209, R210, R211, R266) -/
def Obligations.ArraysReleaseRetryAndSubstitute : Prop :=
  ∀ (s : State) (n : Fin 160),
    let mx := (s.tile n).mx
    (∀ d ds ups far, mx.descs = d :: ds → mx.held = none → mx.retired = false → mx.run.lets false = true →
      let s0 := ((s.farHeard far).upsets n ups.lines).mxCheck n d
      (∀ v vals flags, s0.mxAttempt n far ups d = .checked v vals flags false →
        (v.ok = true → mx.ftq.length + d.needs ≤ 8 → Gives (.mxaPassRelease n ups far) s (fun t =>
          t.rd (pgMxa n) Reg.mxaPassPasses = (s.rd (pgMxa n) Reg.mxaPassPasses + 1) % 2 ^ Reg.mxaPassPasses.width ∧
          (t.tile n).mx.run = .fresh ∧ (t.tile n).mx.ftq.length = mx.ftq.length + d.needs ∧
          (d.lastPass = true → (t.tile n).mx.descs = ds) ∧
          (d.lastPass = false → ∃ e, (t.tile n).mx.descs = e :: ds ∧ e.pass = d.pass + 1 ∧ e.words = d.words))) ∧
        (v.ok = false → mx.run = .fresh → Gives (.mxaPassRelease n ups far) s (fun t =>
          (t.tile n).mx.run.phase = .retryWait ∧ (t.tile n).mx.run.attempt = 1 ∧ (t.tile n).mx.descs = mx.descs ∧
          t.rd (pgMxa n) Reg.mxaChkValid = 1 ∧ t.rd (pgMxa n) Reg.mxaChkRow = v.rows.headD 255 % 256))) ∧
      (∀ k left, s0.mxAttempt n far ups d = .aborted k left → mx.run = .fresh → Gives (.mxaPassRelease n ups far) s (fun t =>
        (t.tile n).mx.run.phase = .retryWait ∧ (t.tile n).mx.descs = mx.descs ∧ (t.tile n).mx.feeds = left ∧
        t.rd (pgMxa n) Reg.mxaChkValid = 1 ∧ t.rd (pgMxa n) Reg.mxaChkClass = 3))) ∧
    (∀ m ms ups, mx.frags = m :: ms → mx.retired = false → mx.run.lets true = true →
      let r := s.fragAttempt n ups m
      r.1.ok = true → m.fd + (if m.type = 4 then 16 else 8) ≤ 64 →
      Gives (.mxfMmaRelease n ups) s (fun t => (t.tile n).mx.frags = ms ∧ (t.tile n).mx.run = .fresh ∧
        ∀ x, s.ctx n m.ctx = some x → s.sameGroup n m.ctx m.serial = true → ∃ y, t.ctx n m.ctx = some y ∧
          ∀ e ∈ fragRegsOf m.type m.fd r.2.1, y.vreg e.1 e.2.1 = e.2.2.1 % 2 ^ 32)) ∧
    (mx.run.phase = .retryWait → Gives (.mxaRetryStart n) s (fun t =>
      (t.tile n).mx = { mx with run := { mx.run with phase := .again }, feeds := [] })) ∧
    (mx.run.phase ≠ .retryWait → exec (.mxaRetryStart n) s = .next s) ∧
    (mx.run.phase = .substWait → mx.faulty ≤ 64 → Gives (.substitutionDone n) s (fun t =>
      t.rd (pgMxa n) Reg.mxaStateSpareFor = mx.faulty ∧ (t.tile n).mx.run.phase = .ready ∧
      bitAt (t.rd (pgMxa n) Reg.intRaw) Reg.causeMxaSpareIn = true ∧ SMap.find t.flash.repRows n = some mx.faulty)) ∧
    ∀ e es l, (s.tile n).epis = e :: es → e.tile = [] → mx.headTile = some l → Gives (.epiStart n) s (fun t =>
      (t.tile n).epis = { e with tile := l } :: es ∧ (t.tile n).mx.ftq = mx.ftq.drop l.length)

/-- EPI_DONE and CPY_DONE perform the operation and complete its token. EPI_DONE of a started epilogue takes it off, and
CPY_DONE of a copy takes it off; the operation is pending on no token any more, or it waits only for far-tier writes that
are not acknowledged. A row copy of 64 bytes that moves one row from clean hearth bytes to a scratchpad with no flip leaves
the source bytes at the destination and completes its operation. (R163, R264, R266, R350, R351, R354) -/
def Obligations.EpiloguesAndCopiesCompleteTheirTokens : Prop :=
  let done := fun (t : State) (n op : Nat) => (∀ k, (op, k) ∉ (t.tile n).ops) ∨
    (SMap.getD (t.tile n).opWrites op 0 ≠ 0 ∧ ∃ c ∈ (t.tile n).closing, c.op = op)
  (∀ (s : State) (n : Fin 160) (reads : EpiReads) (e : Epi) (es : List Epi), (s.tile n).epis = e :: es → e.tile ≠ [] →
    Gives (.epiDone n reads) s (fun t => (t.tile n).epis = es ∧ done t n e.op)) ∧
  (∀ (s : State) (n : Fin 160) (op : Nat) (reads : CpyReads) (c : Copy),
    (s.tile n).copies.find? (fun c => c.op = op) = some c → Gives (.cpyDone n op reads) s (fun t =>
      (t.tile n).copies = (s.tile n).copies.filter (fun d => d.op ≠ op) ∧ done t n op)) ∧
  ∀ (s : State) (n : Fin 160) (op : Nat) (reads : CpyReads) (c : Copy) (k : Nat), (s.tile n).copies = [c] → c.op = op →
    reads.lines = [] → NoFlips s n → cpMode c.words = 0 → cpZero c.words = false → cpRows c.words = 1 → cpLen c.words = 64 →
    dfld c.words 0 55 1 = 1 → dfld c.words 0 54 1 = 0 → dfld c.words 1 0 64 + 64 ≤ hearthEnd → k < 64 →
    (∀ b, s.badAt b = false) → (s.tile n).lostIn = [] → (s.tile n).opWrites = [] → Gives (.cpyDone n op reads) s (fun t =>
      (t.tile n).scratchByte (dfld c.words 2 0 64 + k) = s.byteAt (dfld c.words 1 0 64 + k) ∧ ∀ k, (op, k) ∉ (t.tile n).ops)

/-! ## The stoke unit and the boundary (spec/01) -/

/-- A write to STK_PERIOD waits in its shadow, and a value below 16,384 becomes 16,384. After STK_PERIOD_WRITE of v the value
that takes effect at the next latch point is v, or 16,384 when v is below 16,384; INT_RAW.PERIOD_CLAMP is then set and
otherwise as it was; the period in effect is unchanged and PAGE_STAT.SHADOW_PEND is 1. (R17) -/
def Obligations.PeriodWritesClampAndWait : Prop :=
  ∀ (s : State) (v : BitVec 32), Gives (.stkPeriodWrite v) s (fun t =>
    t.shadowOf pgStk Reg.stkPeriod = (if v.toNat < 16384 then 16384 else v.toNat) ∧
    bitAt (t.rd pgStk Reg.intRaw) 7 = (decide (v.toNat < 16384) || bitAt (s.rd pgStk Reg.intRaw) 7) ∧
    t.rd pgStk Reg.stkPeriod = s.rd pgStk Reg.stkPeriod ∧ t.flag pgStk Reg.statShadowPend = true)

/-- A quench fails the ending stoke, or after B+1,088 the following one; in IDLE or HELD it sets STK_FAIL.CAUSE only. STK_QUENCH
in RUN or REPLAY before the commit point adds the host's cause 3 to the failure sources of this stoke, marks it quenched and
terminates every tile's groups; after it the cause joins the sources of the following stoke, and this stoke's tiles and
sources stay. STOKE_EVENT then starts that stoke failed, quenched and abandoned. In IDLE and HELD the command changes
STK_FAIL.CAUSE, beside STK_CYCLE, and nothing else. (R43) -/
def Obligations.QuenchesFailThisStokeOrTheNext : Prop :=
  (∀ (s : State) (cyc : BitVec 32),
    let u := s.stoke
    (s.running = true → u.phase.rank ≤ Phase.writeback.rank → Gives (.stkQuench cyc) s (fun t =>
      t.stoke.fails = u.fails ++ [3] ∧ t.stoke.quenched = true ∧ (∀ n, (t.tile n).ctxs = []) ∧
      (u.fails = [] → t.rd pgStk Reg.stkFailCause = 3) ∧ bitAt (t.rd pgStk Reg.intRaw) 3 = true)) ∧
    (s.running = true → Phase.writeback.rank < u.phase.rank → Gives (.stkQuench cyc) s (fun t =>
      t.stoke = { u.addNext 3 cyc.toNat with quenchNext := true } ∧ (∀ c, c = 3 ∨ c ∈ u.failsNext ↔ c ∈ t.stoke.failsNext) ∧
      t.tiles = s.tiles)) ∧
    (s.running = false → exec (.stkQuench cyc) s = .next ((s.wr pgStk Reg.stkCycle cyc.toNat).wr pgStk Reg.stkFailCause 3))) ∧
  ∀ (s : State) (us : BitVec 32), s.inPhase .cutoff = true → s.running = true → s.stoke.quenchNext = true →
    Gives (.stokeEvent us) s (fun t => t.stoke.fails = s.stoke.failsNext ∧ t.stoke.quenched = true ∧ t.stoke.abandoned = true)

/-- The first edge on STOKE_SYNC_IN of a stoke counts, further ones only count in EXTRA. In the follower role the first edge in
a stoke is taken with its cycle and clears STK_STATE.SYNC_LOST; a further edge changes the counter STK_SYNC_MISS.EXTRA,
which grows by one and saturates, and nothing else. (R24) -/
def Obligations.SyncEdgesCountOnce : Prop :=
  ∀ (s : State) (c : BitVec 32), s.rd pgStk Reg.stkCtrlSyncMode = 1 →
    (s.stoke.edge = none → Gives (.stokeSyncInEdge c) s (fun t =>
      t.stoke = { s.stoke with edge := some c.toNat } ∧ t.rd pgStk Reg.stkStateSyncLost = 0 ∧
      t.rd pgStk Reg.stkSyncMissExtra = s.rd pgStk Reg.stkSyncMissExtra)) ∧
    (s.stoke.edge.isSome = true → exec (.stokeSyncInEdge c) s =
      .next (s.wr pgStk Reg.stkSyncMissExtra (min 65535 (s.rd pgStk Reg.stkSyncMissExtra + 1))))

/-- START, STOP and RESUME wait for the replay decision; lost edges are counted. STK_STOP waits as a command of the stoke unit;
STK_START does too, but in IDLE with no plan staged it is refused: code 0x3A is captured and the commands that wait are
unchanged; STK_RESUME waits unless the pair is in SPLIT. SYNC_WIN_EXPIRY in a follower's stoke without an edge starts the
next stoke on the own count and counts it in STK_SYNC_MISS. SYNC_LOSS after LOSS_N such stokes sets SYNC_LOST and its cause.
(R23, R25, R51, R477) -/
def Obligations.StokeCommandsWaitForTheDecision : Prop :=
  ∀ s : State,
    exec .stkStop s = .next { s with stoke := { s.stoke with stopCmd := true } } ∧
    (s.rd pgStk Reg.stkState ≠ 0 ∨ s.stagedOk = true →
      exec .stkStart s = .next { s with stoke := { s.stoke with startCmd := true } }) ∧
    (s.rd pgStk Reg.stkState = 0 → s.stagedOk = false → Gives .stkStart s (fun t => t.stoke = s.stoke ∧
      t.flag pgStk Reg.errValid = true ∧ (s.rd pgStk Reg.errValid = 0 → t.rd pgStk Reg.errCode = 0x3A) ∧
      (s.rd pgStk Reg.errValid = 1 → t.rd pgStk Reg.errCode = s.rd pgStk Reg.errCode))) ∧
    (s.pairEn = false ∨ s.pstate ≠ 3 → exec .stkResume s = .next { s with stoke := { s.stoke with resumeCmd := true } }) ∧
    (s.follower = true → s.stoke.edge = none → s.stoke.ownStart = false → Gives .syncWinExpiry s (fun t =>
      t.stoke = { s.stoke with ownStart := true } ∧
      t.rd pgStk Reg.stkSyncMiss = min 65535 (s.rd pgStk Reg.stkSyncMiss + 1) ∧ bitAt (t.rd pgStk Reg.intRaw) 4 = true)) ∧
    (s.follower = true → s.rd pgStk Reg.stkSyncCfgLossN ≤ s.stoke.noEdge → 1 ≤ s.stoke.noEdge →
      s.rd pgStk Reg.stkStateSyncLost = 0 → Gives .syncLoss s (fun t =>
        t.rd pgStk Reg.stkStateSyncLost = 1 ∧ bitAt (t.rd pgStk Reg.intRaw) 5 = true ∧ t.stoke = s.stoke))

namespace Sys2Proof.Machine

/-- The boundary has gone on to a phase, c cycles after B. -/
def At (s t : State) (p : Phase) (c : Nat) : Prop :=
  t.stoke.phase = p ∧ t.rd pgStk Reg.stkCycle = (s.cycleB + c) % 2 ^ 32

end Sys2Proof.Machine

/-- From B to the commit point: groups end, L1s and scratchpads are emptied, the hashes are frozen and folded. In a ready module
WORK_DEADLINE ends the work phase at B: the boundary interval is shown and no tile keeps a resident group.
BOUNDARY_WRITEBACK, the drain over, leaves every L1 invalid and every scratchpad with no byte but 0 and no poison, so that
no scratchpad content survives. COMMIT_POINT freezes the write hashes and starts new ones at 0. DIGEST_FOLD places the
digest of the frozen hashes in KNK_DIG. Each goes to its cycle of the boundary interval. (R28) -/
def Obligations.BoundaryClearsTheTiles : Prop :=
  ∀ s : State,
    (s.inPhase .work = true → Gives .workDeadline s (fun t => At s t .drain 0 ∧ (∀ n, (t.tile n).ctxs = []) ∧
      t.rd pgStk Reg.stkStateInBoundary = 1)) ∧
    (s.inPhase .drain = true → Gives .boundaryWriteback s (fun t => At s t .writeback 64 ∧
      ∀ n, (t.tile n).l1 = [] ∧ (t.tile n).scratch = [] ∧ (t.tile n).scratchBad = [] ∧
        ∀ a, (t.tile n).scratchByte a = 0)) ∧
    (s.inPhase .writeback = true → Gives .commitPoint s (fun t => At s t .committed 1088 ∧
      t.frozen = s.hashes ∧ t.hashes = [] ∧ t.mem = s.mem)) ∧
    (s.inPhase .committed = true → Gives .digestFold s (fun t => t.stoke = s.stoke ∧
      t.rd pgStk Reg.stkCycle = (s.cycleB + 1119) % 2 ^ 32 ∧ ∀ w, w < 8 →
        t.rd pgKnk (Reg.knkDigDigest w) = bitsAt (digestWord s.frozen (w / 2)).toNat (32 * (w % 2)) 32))

/-- The replay decision takes the next state from the failure sources of the stoke, as the table of R36 gives it. For a ready
module in the committed phase, no exchange of READY counting, no notice due and s the work stoke number: without a command,
a clean stoke of RUN or REPLAY leads to RUN with work s + 1 and count 0; a failed one that may be replayed to REPLAY with
work s and count + 1 (up to 3) and one that may not to HELD, with STK_FAIL_WORK s, and with count 3 or REPLAY_EN 0 or a plan
that is not replayable no replay is allowed; STOP lets RUN and REPLAY end at the cutoff, at work s + 1 after a clean stoke
and s after a failed one. In IDLE, START with a staged plan leads to RUN at STK_RESUME; in HELD, RESUME does. IDLE and HELD
without a command keep state and work stoke. The commands that waited are gone. (R31, R36, R37, R42, R51, R758) -/
def Obligations.ReplayDecisionFollowsTheStateTable : Prop :=
  ∀ s : State, s.inPhase .committed = true → s.pair.readyCount = none → s.noticeDue (s.rd pgStk Reg.stkWork) = false →
    let u := s.stoke
    let st := s.rd pgStk Reg.stkState
    let w := s.rd pgStk Reg.stkWork
    let cnt := s.rd pgStk Reg.stkStateReplayCnt
    let noCmd := u.startCmd = false ∧ u.stopCmd = false ∧ u.resumeCmd = false
    let failed := u.working = true ∧ u.fails ≠ []
    let goes := fun (n work : Nat) (t : State) => At s t .decided 1120 ∧ t.rd pgStk Reg.stkState = n ∧
      t.stoke.nextWork = work ∧ t.stoke.startCmd = false ∧ t.stoke.stopCmd = false ∧ t.stoke.resumeCmd = false
    (st = 1 ∨ st = 2 → noCmd → ¬ failed → Gives .replayDecision s (fun t =>
      goes 1 ((w + 1) % 2 ^ 64) t ∧ t.rd pgStk Reg.stkStateReplayCnt = 0)) ∧
    (st = 1 ∨ st = 2 → noCmd → failed → s.replayAllowed = true → Gives .replayDecision s (fun t =>
      goes 2 w t ∧ t.rd pgStk Reg.stkStateReplayCnt = min 3 (cnt + 1) ∧
      t.rd pgStk Reg.stkFailWork = w % 2 ^ 64 ∧ t.stoke.latchWay = .none)) ∧
    (st = 1 ∨ st = 2 → noCmd → failed → s.replayAllowed = false → Gives .replayDecision s (fun t =>
      goes 3 w t ∧ t.rd pgStk Reg.stkFailWork = w % 2 ^ 64)) ∧
    (st = 1 ∨ st = 2 → u.stopCmd = true → u.startCmd = false → u.resumeCmd = false → Gives .replayDecision s (fun t =>
      At s t .decided 1120 ∧ t.rd pgStk Reg.stkState = st ∧ t.stoke.stopAtCutoff = true ∧ (¬ failed → t.stoke.nextWork = (w + 1) % 2 ^ 64) ∧ (failed → t.stoke.nextWork = w))) ∧
    (st = 0 → u.startCmd = true → u.stopCmd = false → u.resumeCmd = false → s.stagedOk = true →
      Gives .replayDecision s (fun t => goes 1 (s.rd pgStk Reg.stkResume) t)) ∧
    (st = 3 → u.resumeCmd = true → u.stopCmd = false → u.startCmd = false →
      Gives .replayDecision s (fun t => goes 1 (s.rd pgStk Reg.stkResume) t ∧ t.rd pgStk Reg.stkStateReplayCnt = 0)) ∧
    (st = 0 ∨ st = 3 → noCmd → Gives .replayDecision s (fun t => goes st w t)) ∧
    (s.rd pgStk Reg.stkCtrlReplayEn = 0 ∨ s.rd pgStk Reg.stkCtrlReplayMax ≤ cnt ∨ s.plans.active = none →
      s.replayAllowed = false)

/-- The latch point applies shadows, the tables switch, the cutoff fixes the work stoke, the stoke event starts it. In a ready
module, phase by phase: LATCH_POINT applies every shadow (a lone shadow of STK_PERIOD takes effect and stamps LATCH_STK with
STK_NUM) and leaves none; DIGEST_SEND of a working stoke puts its record last in the mirror journal; TABLE_SWITCH and
MIRROR_REPLAY_CUTOFF go on, and the latter with a STOP enters IDLE without an active plan; STOKE_EVENT counts STK_NUM up,
takes the next work stoke, clears IN_BOUNDARY and starts at cycle 0, working exactly in RUN and REPLAY. WORK_LIST_PREFETCH
changes no state, and DIGEST_COMPARE without pairing drops the records to compare. In PAIRED it compares the one fresh
record of the partner with the own records of its work stoke: a difference enters SPLIT at that work stoke; equal, with no
record overdue and the lag within LAG_MAX, the pair stays and KNK_CONF goes on to a work stoke that follows it in the chain.
(R18, R20, R26, R45, R62, R537, R542, R545, R546, R547, R551) -/
def Obligations.LatchPointToStokeEvent : Prop :=
  ∀ s : State,
    (s.inPhase .decided = true → Gives .latchPoint s (fun t => At s t .latched 1152 ∧ t.shadow = [])) ∧
    (s.inPhase .decided = true → ∀ v, s.shadow = [(regKey pgStk Reg.stkPeriod, v)] → Gives .latchPoint s (fun t =>
        t.rd pgStk Reg.stkPeriod = v % 2 ^ 32 ∧ t.rd pgStk Reg.latchStk = s.rd pgStk Reg.stkNum % 2 ^ 32 ∧
        t.rd pgStk Reg.statShadowPend = 0)) ∧
    (s.inPhase .latched = true → s.stoke.working = true → Gives .digestSend s (fun t =>
      t.pair.journal.getLast? = some s.digRec ∧ t.stoke = s.stoke)) ∧
    (s.inPhase .latched = true → Gives .tableSwitch s (fun t => At s t .tabled 1216)) ∧
    (s.inPhase .tabled = true → Gives .mirrorReplayCutoff s (fun t => At s t .cutoff 1536 ∧
      (s.stoke.stopAtCutoff = true → t.rd pgStk Reg.stkState = 0 ∧ t.plans.active = none))) ∧
    (∀ us, s.inPhase .cutoff = true → Gives (.stokeEvent us) s (fun t =>
      t.rd pgStk Reg.stkNum = (s.rd pgStk Reg.stkNum + 1) % 2 ^ 64 ∧ t.rd pgStk Reg.stkWork = s.stoke.nextWork % 2 ^ 64 ∧
      t.rd pgStk Reg.stkLastUs = us.toNat ∧ t.rd pgStk Reg.stkCycle = 0 ∧ t.rd pgStk Reg.stkStateInBoundary = 0 ∧
      t.stoke.phase = .work ∧ t.stoke.period = s.stoke.nextPeriod ∧
      (t.stoke.working = true ↔ s.rd pgStk Reg.stkState = 1 ∨ s.rd pgStk Reg.stkState = 2))) ∧
    exec .workListPrefetch s = .next s ∧
    (s.inPhase .committed = true → s.pairEn = false → Gives .digestCompare s (fun t =>
      t.pair.fresh = [] ∧ t.pair.awaited = [] ∧ t.rd pgStk Reg.stkCycle = (s.cycleB + 1100) % 2 ^ 32)) ∧
    (s.inPhase .committed = true → s.pairEn = true → s.pstate = 1 → ∀ d, s.pair.fresh = [d] → d.isVoid = false →
      s.ownRecs d.work ≠ [] →
      ((s.ownRecs d.work).all d.same = false → Gives .digestCompare s (fun t => t.pstate = 3 ∧
        t.knk Reg.knkSplitWork = d.work % 2 ^ 64 ∧ t.knk Reg.knkSplitValid = 1 ∧ t.pair.fresh = [])) ∧
      ((s.ownRecs d.work).all d.same = true → s.pair.awaited = [] → s.pair.chainOn = true → s.pair.confirmed = [] →
        d.work = (s.knk Reg.knkConfWork + 1) % 2 ^ 64 → s.lag ≤ s.knk Reg.knkCtrlLagMax → -(s.knk Reg.knkCtrlLagMax : Int) ≤ s.lag →
        Gives .digestCompare s (fun t => t.pstate = 1 ∧ t.knk Reg.knkConfWork = d.work ∧ t.pair.fresh = [])))

/-! ## Work lists, the hearth, channels, the far tier, flues and traffic (spec/03, spec/09 to spec/12) -/

namespace Sys2Proof.Machine

/-- The control core of a tile runs and its next entry, at an index, is a clean valid entry of a kind that may issue at a
cycle. -/
structure AtEntry (s : State) (n cyc kind : Nat) (e : WlEntry) : Prop where
  going : (s.tile n).stop = none
  calm : (s.tile n).overrun = false
  runs : s.coreRuns n = true
  entry : s.entryAt n (s.nextEntry n) = some e
  clean : e.bad = false
  valid : e.valid s.cycleB = true
  kind : e.kind = kind
  ready : s.entryReady n cyc e = true
  notLast : s.nextEntry n < 4095

end Sys2Proof.Machine

/-- LAUNCH, WAIT and MARK entries issue in order; deadlines put a tile in overrun. When a tile's control core runs and its next
entry (not the 4,096th) is clean, valid and ready: LAUNCH_ISSUE of a LAUNCH under the split in force places every group in a
free context, with one ready subgroup of its live lanes at the entry's PC, and goes to the next entry; with another split
and no group resident it also changes the split. WAIT_ISSUE only goes to the next entry, MARK_ISSUE also adds MARK_ID to the
tile's marks; an entry that is not ready stays. WORK_LIST_END at a valid END, or past the last entry, ends the list.
ENTRY_DEADLINE with a launch resident past its deadline, no barrier stalled and no other entry due puts the tile in overrun
of kind 1 with its entry and cycle, and nothing resident; with nothing due it changes nothing but the cycle shown. (R90,
R91, R94, R95, R97, R98, R99) -/
def Obligations.WorkListsIssueTheirEntries : Prop :=
  ∀ (s : State) (n : Fin 160) (cyc : BitVec 32) (e : WlEntry),
    let k := s.nextEntry n
    let t0 := s.tile n
    (AtEntry s n cyc.toNat 1 e → ∀ l, placeGroups t0 e = some l →
      (e.split = s.split n ∨ t0.ctxs = []) → Gives (.launchIssue n cyc) s (fun t =>
        t.rd (pgTil n) Reg.tilStateEntry = k + 1 ∧ t.split n = e.split ∧ (t.tile n).launched = true ∧
        (t.tile n).resident = t0.resident ++ [(k, e.deadline s.cycleB)] ∧
        ∀ g c, l[g]? = some c → ∃ y, t.ctx n c = some y ∧ y.entry = k ∧ y.group = g ∧ y.live = groupLanes e g ∧
          y.subs = [{ pc := e.pc, mask := groupLanes e g, epoch := 0, wait := .ready }] ∧ y.stack = [] ∧
          y.sreg 0 = e.arg % 2 ^ 64 ∧ y.sreg 1 = g ∧ ∀ j, j < 32 → y.vreg 0 j = (32 * g + j) % 2 ^ 32)) ∧
    (AtEntry s n cyc.toNat 2 e → exec (.waitIssue n cyc) s =
      .next ((s.atCycle cyc.toNat).wr (pgTil n) Reg.tilStateEntry (k + 1))) ∧
    (AtEntry s n cyc.toNat 3 e → Gives (.markIssue n cyc) s (fun t =>
      t.rd (pgTil n) Reg.tilStateEntry = k + 1 ∧ (t.tile n).marks = t0.marks ++ [e.markId] ∧ (t.tile n).ctxs = t0.ctxs)) ∧
    (t0.stop = none → s.coreRuns n = true → s.entryAt n k = some e → e.bad = false → e.valid s.cycleB = true →
      s.entryReady n cyc.toNat e = false →
      ∀ c ∈ [Instr.launchIssue n cyc, .waitIssue n cyc, .markIssue n cyc], exec c s = .next (s.atCycle cyc.toNat)) ∧
    (t0.stop = none → s.coreRuns n = true → s.entryAt n k = none ∨ (s.entryAt n k = some e ∧ e.bad = false ∧ e.valid s.cycleB = true ∧ e.kind = 0) →
      exec (.workListEnd n cyc) s = .next ((s.atCycle cyc.toNat).wr (pgTil n) Reg.tilState 2)) ∧
    (t0.stop = none → s.coreRuns n = true → t0.overrun = false → (s.unissued n).all (fun e => cyc.toNat < e.2.deadline s.cycleB) = true →
      (t0.resident.all (fun r => cyc.toNat < r.2) = true → exec (.entryDeadline n cyc) s = .next (s.atCycle cyc.toNat)) ∧
      (∀ k d, t0.resident = [(k, d)] → d ≤ cyc.toNat → t0.stalledBar k = none → Gives (.entryDeadline n cyc) s (fun t =>
        (t.tile n).overrun = true ∧ (t.tile n).ctxs = [] ∧ t.rd (pgTil n) Reg.tilState = 3 ∧
        t.rd (pgTil n) Reg.tilOvrKind = 1 ∧ t.rd (pgTil n) Reg.tilOvrEntry = k % 2 ^ 12 ∧
        t.rd (pgTil n) Reg.tilOvrCycCycle = cyc.toNat)))

namespace Sys2Proof.Machine

/-- No stored word of a bank or a device is in error (spec/14 R487, R500). -/
def SoundCells (s : State) : Prop := s.hub.bankErr = [] ∧ s.hub.devErr = []

/-- A request that finds nothing in its way and gets a slot: sound words and flues, no wipe, no line that the host may hold, nothing else
waiting at its partition, and, from a tile, not the arrival of an access that the tile has recorded. -/
structure CleanRequest (s : State) (r : HearthReq) : Prop where
  near : isNear r.addr.toNat = true
  cells : r.cells = [] ∧ SoundCells s
  flues : r.flues = [] ∧ ∀ page, s.flag (pgFlu page) Reg.fluFlipArm = false
  works : r.failed = false ∧ s.hub.wiping = false
  alone : SMap.getD s.hub.waiting (s.partOf r.addr.toNat) [] = [] ∧ s.feed.filter = []
  slot : 0 < r.slots
  told : ∀ n, r.tile = some n → (s.tile n).asked = []
  novictim : SMap.getD s.hub.vbuf (s.partOf r.addr.toNat) [] = []

/-- The late mark of a request (spec/12 R437): that of its requester, or for a tile's TC2 request that of its deadline. -/
def lateMark (s : State) (r : HearthReq) : Bool := s.flag pgTrf Reg.trfCtrlLateEn && (match r.tile with
  | some n => decide (r.tc = 2) && s.lateTile n
  | none => r.late)

end Sys2Proof.Machine

/-- The shared cache: hits, misses, fills, write-backs, drained banks and corrections. A clean HEARTH_REQUEST for a near row
outside the victim buffer that is given a slot changes no byte: a hit (every sector it needs valid, or written whole) counts
a hit and updates the age, the valid and dirty sectors of its line by the rules of R325 and R327; a miss in an empty cache
counts a miss and takes the partition's first cache way for the row, and its partly written sectors wait for their fills. A
late request counts in TRF when late marks are enabled. HEARTH_FILL_RETURN of sound words makes the sectors valid, in the
cache or the victim buffer, and dirty where a write waited. VICTIM_WRITEBACK sends the oldest victim line that waits for
nothing and counts it; WRITEBACK_ACK takes it off. CORRECTION_WRITEBACK ends the correction that is due for a word and
leaves its cell, or the sound cells of its device slot, as written; it does nothing when none is due. BANK_UE_RETIRE at the
limit puts the bank among those that retire at the latch point. PIN_DRAIN_DONE drops the lines of draining banks. (R315,
R324, R325, R326, R327, R346, R358, R437, R500, R501) -/
def Obligations.HearthServesNearMemory : Prop :=
  (∀ (s : State) (r : HearthReq), CleanRequest s r →
    let a := r.addr.toNat
    let p := s.partOf a
    let need := if r.write then touched r.mask else sectorMask a r.len
    let given := if r.write then covered r.mask else 0
    let dirtied := if r.write then need else 0
    (∀ k l, s.lineAt p (rowOf a) = some (k, l) → need &&& ~~~(l.valid ||| given) = 0 → Gives (.hearthRequest r) s (fun t =>
      SameMem s t ∧ t.rd (pgHrt p) Reg.hrtHitCount = min (2 ^ 32 - 1) (s.rd (pgHrt p) Reg.hrtHitCount + 1) ∧
      SMap.find t.hub.cache k = some { l with valid := l.valid ||| given, dirty := l.dirty ||| dirtied,
                                              age := if r.hint.val = 2 then l.age else 0 } ∧
      (lateMark s r = true → t.rd pgTrf Reg.trfLateCount = min (2 ^ 32 - 1) (s.rd pgTrf Reg.trfLateCount + 1)))) ∧
    (s.hub.cache = [] → SMap.getD s.hub.ghost p [] = [] → ∀ b bs, s.cacheWays p = b :: bs →
      Gives (.hearthRequest r) s (fun t => SameMem s t ∧
        t.rd (pgHrt p) Reg.hrtMissCount = min (2 ^ 32 - 1) (s.rd (pgHrt p) Reg.hrtMissCount + 1) ∧
        t.hub.cache = [(cacheKey p (rowOf a / 160 % 1024) b,
          { row := rowOf a, valid := given, dirty := dirtied &&& given, age := fillAge r.hint, rp := 0, tc := r.tc,
            want := dirtied &&& ~~~given })]))) ∧
  (∀ (s : State) (a : BitVec 64) (m : BitVec 8), isNear a.toNat = true → SoundCells s →
    (∀ page, s.flag (pgFlu page) Reg.fluFlipArm = false) →
    (∀ k l, SMap.getD s.hub.vbuf (s.partOf a.toNat) [] = [] → s.lineAt (s.partOf a.toNat) (rowOf a.toNat) = some (k, l) →
      Gives (.hearthFillReturn a m []) s (fun t => SMap.find t.hub.cache k = some { l with
        valid := l.valid ||| m, dirty := l.dirty ||| (l.want &&& m), want := l.want &&& ~~~m } ∧ SameMem s t)) ∧
    (∀ v, SMap.getD s.hub.vbuf (s.partOf a.toNat) [] = [v] → v.row = rowOf a.toNat →
      Gives (.hearthFillReturn a m []) s (fun t => SMap.getD t.hub.vbuf (s.partOf a.toNat) [] = [{ v with
        valid := v.valid ||| m, dirty := v.dirty ||| (v.want &&& m), want := v.want &&& ~~~m }] ∧ SameMem s t))) ∧
  (∀ (s : State) (p : Fin 160) (l : VbLine),
    (SMap.getD s.hub.vbuf p [] = [l] → l.sent = false → l.rp = 0 → l.want = 0 → Gives (.victimWriteback p) s (fun t =>
      SMap.getD t.hub.vbuf p [] = [{ l with sent := true }] ∧
      t.rd (pgHrt p) Reg.hrtEvictCount = min (2 ^ 32 - 1) (s.rd (pgHrt p) Reg.hrtEvictCount + 1))) ∧
    (SMap.getD s.hub.vbuf p [] = [l] → l.sent = true → SMap.getD s.hub.waiting p [] = [] → Gives (.writebackAck p) s (fun t =>
      SMap.getD t.hub.vbuf p [] = [] ∧ t.rd (pgHrt p) Reg.hrtStateVbuf = 0))) ∧
  (∀ (s : State) (a : BitVec 64),
    (a.toNat / 8 ∈ s.hub.corrections → s.flag (pgHrt (s.partOf a.toNat)) Reg.hrtFlipArm = false →
      s.flag (pgGdc (s.chanOf a.toNat)) Reg.gdcFlipArm = false → Gives (.correctionWriteback a) s (fun t =>
        a.toNat / 8 ∉ t.hub.corrections ∧ SMap.find t.hub.bankErr (a.toNat / 8) = none ∧ t.regs = s.regs ∧ t.mem = s.mem ∧
        (SMap.find s.hub.bankErr (a.toNat / 8) = none → ∀ w ∈ sectorWords (rowOf a.toNat) 0xFF,
          (Gw.hear (Gw.stored 0 (s.badAt (8 * w)) ^^^ SMap.getD s.hub.devErr w 0)).lost = false → SMap.find t.hub.devErr w = none))) ∧
    (a.toNat / 8 ∉ s.hub.corrections → exec (.correctionWriteback a) s = .next s)) ∧
  ∀ (s : State) (p : Fin 160) (b : Fin 24),
    (max 1 (s.rd (pgHrt p) Reg.hrtCtrlBankUeMax) ≤ s.rd (pgHrtx p) (Reg.hrtBankUe b) → 24 * p.val + b.val ∉ s.hub.retireBanks →
      s.rd (pgHrtx p) (Reg.hrtBankRole b) ≠ 3 → Gives (.bankUeRetire p b) s (fun t =>
        t.hub.retireBanks = s.hub.retireBanks ++ [24 * p.val + b.val] ∧
        bitAt (t.rd (pgHrt p) Reg.intRaw) Reg.causeHrtBankRetire = true ∧
        (s.rd (pgHrtx p) (Reg.hrtBankRole b) = 0 → t.rd (pgHrtx p) (Reg.hrtBankRole b) = 2))) ∧
    Gives (.pinDrainDone p) s (fun t => t.rd (pgHrt p) Reg.hrtStateDrain = 0 ∧ t.mem = s.mem ∧
      (∀ e ∈ t.hub.cache, e.1 / 32768 = p.val → s.rd (pgHrtx p) (Reg.hrtBankRole (e.1 % 32)) = 2 → 24 ≤ e.1 % 32) ∧
      ∀ k ∈ t.plans.draining, k / 32 ≠ p.val)

/-- Channel errors, repairs and fences; far requests complete or are abandoned; slots are mapped and sanitized. LINK_CRC_RETRY
of a transfer retried fewer than 4 times counts a retry; otherwise every word of it is poisoned. REPAIR_COPY_DONE with no
other repair due enters the repaired block in the table and the repair record. CE_BUCKET_LIMIT at an armed limit raises
BUCKET and disarms it. CHANNEL_UE_FENCE at UE_FENCE accesses puts the channel among those fenced at the latch point.
NEAR_WIPE_DONE ends the wipe. REFX2_CHANGE shows a changed rate with its cause. FAR_COMPLETION of a fill holds its line,
with every word poisoned when the response is, and of a tile's write lowers its count; FAR_TIMEOUT of a fill counts and
holds a line all poisoned; FAR_LINK_DOWN removes the slot. FAR_RESCAN in IDLE or HELD of an empty, failed or removed slot,
or of one whose rescan has begun, maps a usable device with its capacity in whole 256 MiB, and FAR_SANITIZE in IDLE of a
device directly attached starts; otherwise neither changes the slot. (R130, R401, R405, R407, R410, R411, R415, R416, R417,
R418, R420, R503) -/
def Obligations.ChannelsAndTheFarTier : Prop :=
  (∀ (s : State) (c : Fin 144),
    (∀ n a len, n < 4 → Gives (.linkCrcRetry c n a len) s (fun t => SameMem s t ∧
      t.rd (pgGdc c) Reg.gdcRetryCount = min (2 ^ 32 - 1) (s.rd (pgGdc c) Reg.gdcRetryCount + 1))) ∧
    (∀ n a len, 4 ≤ n → Gives (.linkCrcRetry c n a len) s (fun t => t.mem = s.mem ∧
      ∀ b, a.toNat ≤ b → b < a.toNat + len → t.badAt b = true)) ∧
    (∀ blk pool, SMap.find s.hub.repairing c = some (blk, pool) → s.hub.repairDue = [] → Gives (.repairCopyDone c) s (fun t =>
      SMap.find t.hub.repairs (c.val * 2 ^ 20 + blk) = some pool ∧ SMap.find t.hub.repairing c = none ∧
      SMap.find t.flash.repGddr (c.val * 2 ^ 20 + blk) = some pool ∧ t.rd (pgGdc c) Reg.gdcStateRepairing = 0 ∧
      t.rd (pgGdc c) Reg.gdcRepairUsed = (s.rd (pgGdc c) Reg.gdcRepairUsed + 1) % 2 ^ 12)) ∧
    (s.rd (pgGdc c) Reg.gdcBucketLimit ≠ 0 → 64 * s.rd (pgGdc c) Reg.gdcBucketLimit ≤ s.rd (pgGdc c) Reg.gdcBucketLevel →
      SMap.getD s.hub.disarmed c false = false → Gives (.ceBucketLimit c) s (fun t =>
        bitAt (t.rd (pgGdc c) Reg.intRaw) Reg.causeGdcBucket = true ∧ SMap.getD t.hub.disarmed c false = true)) ∧
    (s.rd (pgGdc c) Reg.gdcCtrlUeFence ≠ 0 → s.rd (pgGdc c) Reg.gdcCtrlUeFence ≤ SMap.getD s.hub.chanUe c 0 →
      c.val ∉ s.hub.fenceChans → Gives (.channelUeFence c) s (fun t => t.hub.fenceChans = s.hub.fenceChans ++ [c.val])) ∧
    (∀ b, s.flag (pgGdc c) Reg.gdcStateRefx2 ≠ b → Gives (.refx2Change c b) s (fun t =>
      t.flag (pgGdc c) Reg.gdcStateRefx2 = b ∧ bitAt (t.rd (pgGdc c) Reg.intRaw) Reg.causeGdcRefx2 = true)) ∧
    Gives .nearWipeDone s (fun t => t.hub.wiping = false)) ∧
  (∀ (s : State) (q : FarReq), s.hub.farReqs.find? (fun r => r.id = q.id) = some q →
    let gone := fun (t : State) => t.hub.farReqs = s.hub.farReqs.filter (fun r => r.id ≠ q.id)
    (∀ n data b, q.write = false → q.owner = .fill n → Gives (.farCompletion q.id data b) s (fun t => gone t ∧
      SMap.find t.hub.farBuf q.addr = some { data := BitVec.ofNat 512 (leNat data), bad := if b then 0xFF else 0 })) ∧
    (∀ n data b, q.write = true → q.owner = .store n → Gives (.farCompletion q.id data b) s (fun t => gone t ∧
      (t.tile n).farWrites = (s.tile n).farWrites - 1)) ∧
    (∀ n, q.write = false → q.owner = .fill n → Gives (.farTimeout q.id) s (fun t => gone t ∧
      t.rd (pgFar q.slot) Reg.farErrcntTimeout = min 65535 (s.rd (pgFar q.slot) Reg.farErrcntTimeout + 1) ∧
      ∃ l, SMap.find t.hub.farBuf q.addr = some l ∧ l.bad = 0xFF))) ∧
  ∀ s : State,
    (∀ k, Gives (.farLinkDown k) s (fun t => t.rd (pgFar k) Reg.farState = 5 ∧
      bitAt (t.rd (pgFar k) Reg.intRaw) Reg.causeFarRemoved = true)) ∧
    (∀ d, let st := s.rd (pgFar d.slot) Reg.farState
      (((s.rd pgStk Reg.stkState = 0 ∨ s.rd pgStk Reg.stkState = 3) ∧ (st = 0 ∨ st = 4 ∨ st = 5)) ∨ st = 1 → farPlaced d = true →
        Gives (.farRescan d) s (fun t =>
          (d.isPresent = false → t.rd (pgFar d.slot) Reg.farState = 0) ∧
          (d.isPresent = true → s.farWhy d = 0 → t.rd (pgFar d.slot) Reg.farState = 2 ∧
            t.rd (pgFar d.slot) Reg.farCap = s.farCapOf d.slot d.cap.toNat) ∧
          (d.isPresent = true → s.farWhy d ≠ 0 → t.rd (pgFar d.slot) Reg.farState = 4 ∧
            t.rd (pgFar d.slot) Reg.farStateFailwhy = s.farWhy d))) ∧
      (¬ ((((s.rd pgStk Reg.stkState = 0 ∨ s.rd pgStk Reg.stkState = 3) ∧ (st = 0 ∨ st = 4 ∨ st = 5)) ∨ st = 1) ∧
          farPlaced d = true) →
        Gives (.farRescan d) s (fun t => t.rd (pgFar d.slot) Reg.farState = st))) ∧
    ∀ k : Fin 8, (s.farDirect k = true → s.rd pgStk Reg.stkState = 0 → Gives (.farSanitize k) s (fun t =>
        t.rd (pgFar k) Reg.farState = 3)) ∧
      (s.farDirect k = false ∨ s.rd pgStk Reg.stkState ≠ 0 → Gives (.farSanitize k) s (fun t =>
        t.rd (pgFar k) Reg.farState = s.rd (pgFar k) Reg.farState))

/-- Flues are counted, declared and remapped; guarantees are judged; bellows levels follow the fill. LANE_COUNT_MAX declares a
good flue whose count has reached the limit, and shows it as the last one; below the limit it changes nothing.
LANE_COUNT_DECAY lowers a page's counts by one when its DECAY divides the device stoke number, and leaves them when DECAY is
0. FLU_SWEEP asks for a sweep of every port of its page. REMAP_WINDOW between the replay decision and the latch point puts a
declared flue into its bundle's fault mask and ends the sweeps; at any other time it changes nothing. GUARANTEE_WINDOW_END
of a class short by more than the tolerance, and TC0_WAIT_MISS, count a miss of the class and append a record to the stoke's
broken-guarantee records; a class within the tolerance changes nothing. BELLOWS_LEVEL_CHANGE sets the master's level from
its fill and the effective level to the larger of the two, counting the cycles spent at level 3. (R369, R378, R379, R381,
R382, R388, R434, R439, R440, R441, R446, R447) -/
def Obligations.FluesAndTraffic : Prop :=
  (∀ (s : State) (page b f : Nat),
    let limit := max 1 (s.rd (pgFlu page) Reg.fluCtrlLaneErrMax)
    let count := SMap.getD s.flues.counts (laneKey page b f) 0
    (limit ≤ count → bitAt (s.fluMask page b) f = false → (page, b, f) ∉ s.flues.declared → f < 68 → b < fluBundles page →
      Gives (.laneCountMax page b f) s (fun t => t.flues.declared = s.flues.declared ++ [(page, b, f)] ∧
        t.rd (pgFlu page) Reg.fluLastBundle = b ∧ t.rd (pgFlu page) Reg.fluLastFlue = f ∧
        t.rd (pgFlu page) Reg.fluLastSource = 0 ∧ t.flues.masks = s.flues.masks)) ∧
    (count < limit → exec (.laneCountMax page b f) s = .next s) ∧
    (fluPages.contains page = true → Gives (.fluSweep page) s (fun t =>
      (∀ port, port < fluPorts page → SMap.find t.flues.sweeps (16 * page + port) = some true) ∧
      t.flues.masks = s.flues.masks)) ∧
    (∀ n, 0 < n → b < 256 → f < 128 → s.flues.counts = [(laneKey page b f, n)] → Gives .laneCountDecay s (fun t =>
      let d := s.rd (pgFlu page) Reg.fluCtrlDecay
      SMap.getD t.flues.counts (laneKey page b f) 0 = if d ≠ 0 ∧ s.rd pgStk Reg.stkNum % d = 0 then n - 1 else n)) ∧
    (s.flag pgDev Reg.devStateReady = false ∨ s.stoke.phase ≠ .decided → ∀ found, exec (.remapWindow found) s = .next s) ∧
    (s.inPhase .decided = true → s.flues.declared = [(page, b, f)] → s.flues.sweeps = [] → Gives (.remapWindow []) s (fun t => t.flues.declared = [] ∧
      t.flues.sweeps = [] ∧ t.fluMask page b = withBit (s.fluMask page b) f ∧ (page, b, f) ∈ t.flash.repFlues))) ∧
  (∀ (s : State) (site : Fin 8) (inst : BitVec 12) (cyc : BitVec 32),
    (∀ o : GuarObs, 1 ≤ o.cls → o.cls ≤ 4 →
      (s.rd pgTrf Reg.trfMonTol < s.owed o.cls o.free - o.granted → Gives (.guaranteeWindowEnd site inst cyc [o]) s (fun t =>
        t.rd pgTrf (Reg.trfMissCount o.cls) = min (2 ^ 32 - 1) (s.rd pgTrf (Reg.trfMissCount o.cls) + 1) ∧
        ∃ r, t.hub.bgrStoke = s.hub.bgrStoke ++ [r] ∧ r.cycle = cyc.toNat)) ∧
      (s.owed o.cls o.free - o.granted ≤ s.rd pgTrf Reg.trfMonTol →
        exec (.guaranteeWindowEnd site inst cyc [o]) s = .next s)) ∧
    ∀ taken owed granted, Gives (.tc0WaitMiss site inst cyc taken owed granted) s (fun t =>
      t.rd pgTrf (Reg.trfMissCount 0) = min (2 ^ 32 - 1) (s.rd pgTrf (Reg.trfMissCount 0) + 1) ∧
      ∃ r, t.hub.bgrStoke = s.hub.bgrStoke ++ [r] ∧ r.slots = owed.toNat * 2 ^ 16 + granted.toNat)) ∧
  ∀ (s : State) (m : Fin 2) (fill : Nat) (cyc : BitVec 32), Gives (.bellowsLevelChange m fill cyc) s (fun t =>
    let lvl := s.blwFall m fill (s.blwRise m fill (s.rd pgTrf (Reg.trfBlwLevel m)))
    (lvl < 4 → t.rd pgTrf (Reg.trfBlwLevel m) = lvl) ∧
    t.rd pgTrf (Reg.trfBlwLevel (1 - m.val)) = s.rd pgTrf (Reg.trfBlwLevel (1 - m.val)) ∧
    (lvl < 4 → s.rd pgTrf (Reg.trfBlwLevel (1 - m.val)) < 4 →
      t.rd pgTrf Reg.trfBlwStateEff = max lvl (s.rd pgTrf (Reg.trfBlwLevel (1 - m.val)))) ∧
    t.rd pgTrf Reg.trfBlwCritCycles = if s.rd pgTrf Reg.trfBlwStateEff = 3 then
        min (2 ^ 32 - 1) (s.rd pgTrf Reg.trfBlwCritCycles + cyc.toNat) else s.rd pgTrf Reg.trfBlwCritCycles)

/-! ## Registers and interrupts (spec/00, spec/02, spec/14) -/

namespace Sys2Proof.Machine

/-- A 32-bit access to BAR0 at an offset, aligned, of an open register page. -/
structure Opens (s : State) (a : Access) (p : Page) (off : Nat) : Prop where
  bar0 : a.bar2 = false
  target : targetAt a.bar2 a.off.toNat = .page p off
  aligned : a.off.toNat % 4 = 0
  isOpen : s.closed p = false
  powered : s.mod.pwrGood = true

end Sys2Proof.Machine

/-- Register writes and reads by access code: RW, RWS, RWL, W1C, ROC, and the two halves of a pair. On an open BAR0 page, an
aligned 32-bit REGISTER_WRITE sets DEV_SCRATCH at once (RW); lands in the shadow of TIL_CTRL.LOCK_POLL and leaves the value
in effect (RWS); clears exactly the causes of INT_RAW written 1, on every page (W1C); and PAIR_HI_WRITE of CXP0's ING_BASE
does not change it while the page is locked (RWL). ROC_READ of ERR_COUNT answers the count and clears it, on every page.
PAIR_LO_READ of STK_NUM answers the low half and latches the high half, which the next read of the high half answers
whatever the counter has become. PAIR_LO_WRITE of STK_RESUME changes nothing visible until PAIR_HI_WRITE commits both
halves. (R12, R44, R58, R59, R62, R63) -/
def Obligations.RegisterAccessesFollowTheirCodes : Prop :=
  ∀ (s : State) (a : Access) (v : BitVec 64),
    let x := v.toNat % 2 ^ 32
    (Opens s a pgDev 0x058 → Gives (.registerWrite a false v) s (fun t => t.rd pgDev Reg.devScratch = x)) ∧
    (∀ n, n < 160 → Opens s a (pgTil n) 0x040 → Gives (.registerWrite a false v) s (fun t =>
      t.shadowOf (pgTil n) Reg.tilCtrlLockPoll = x % 256 ∧
      t.rd (pgTil n) Reg.tilCtrlLockPoll = s.rd (pgTil n) Reg.tilCtrlLockPoll ∧
      t.flag (pgTil n) Reg.statShadowPend = true)) ∧
    (∀ p, Opens s a p 0x010 → Gives (.registerWrite a false v) s (fun t =>
      ∀ b, b < 32 → bitAt (t.rd p Reg.intRaw) b = (bitAt (s.rd p Reg.intRaw) b && !bitAt x b))) ∧
    (Opens s a (pgCxp 0) (Reg.regOff Reg.cxpIngBase + 4) → s.flag (pgCxp 0) Reg.ctrlLock = true → Gives (.pairHiWrite a (BitVec.ofNat 32 x)) s
      (fun t => t.rd (pgCxp 0) Reg.cxpIngBase = s.rd (pgCxp 0) Reg.cxpIngBase)) ∧
    (∀ p, Opens s a p 0x020 → Gives (.rocRead a false) s (fun t => t.rd p Reg.errCount = 0 ∧
      t.out = s.out ++ [.readData (s.rd p Reg.errCount % 2 ^ 32) 32 false])) ∧
    (∀ b, Opens s a pgStk 0x054 → Opens s b pgStk 0x058 → a.tender = b.tender → Gives (.pairLoRead a) s (fun t =>
      t.out = s.out ++ [.readData (s.rd pgStk Reg.stkNum % 2 ^ 32) 32 false] ∧
      ∀ n, Gives (.rocRead b false) (t.wr pgStk Reg.stkNum n) (fun u =>
        u.out = t.out ++ [.readData (s.rd pgStk Reg.stkNum / 2 ^ 32 % 2 ^ 32) 32 false]))) ∧
    ∀ b (w : BitVec 32), Opens s a pgStk 0x064 → Opens s b pgStk 0x068 → Gives (.pairLoWrite a w) s (fun t =>
      t.rd pgStk Reg.stkResume = s.rd pgStk Reg.stkResume ∧ Gives (.pairHiWrite b (BitVec.ofNat 32 x)) t (fun u =>
        u.rd pgStk Reg.stkResume = w.toNat + 2 ^ 32 * x))

/-- Accesses of a bad width, to unassigned offsets, to fenced and dark pages and to the legacy page. With the rails on: a
BAD_WIDTH_ACCESS to BAR0 sets BAD_WIDTH in the DEV page, captures the offset, answers a read with 0 and changes no other
page. An UNMAPPED_ACCESS to BAR0 sets UNMAPPED, captures the offset and answers 0. An access to a fenced page, other than a
read of PAGE_ID or PAGE_STAT, answers a read with 0, captures code 0x05 with the page offset when no error is held, and
DEV_BAD_ADDR; on a dark page it also sets DARK_ACCESS. A write to the CX-3 legacy page only sets LEGACY_WRITE. (R13, R55,
R56, R57, R65, R66, R83, R746) -/
def Obligations.BadAccessesAreCaptured : Prop :=
  ∀ (s : State) (a : Access), a.bar2 = false → s.mod.pwrGood = true →
    let others := fun (t : State) => (∀ p f, p ≠ pgDev → p ≠ pgInt → f.bit < 32768 → t.rd p f = s.rd p f) ∧ t.mem = s.mem ∧ t.shadow = s.shadow
    let captured := fun (t : State) => t.rd pgDev Reg.devBadAddrOffset = a.off.toNat % 2 ^ 26
    (∀ n, widthOk a.off.toNat n = false → ∀ w, Gives (.badWidthAccess a n w) s (fun t => others t ∧ captured t ∧
      bitAt (t.rd pgDev Reg.intRaw) Reg.causeDevBadWidth = true ∧
      (w = false → t.out.getLast? = some (.readData 0 (8 * n) false)))) ∧
    (∀ w, a.off.toNat % 4 = 0 → targetAt false a.off.toNat = .unassigned → Gives (.unmappedAccess a false w) s (fun t =>
      others t ∧ captured t ∧ bitAt (t.rd pgDev Reg.intRaw) Reg.causeDevUnmapped = true ∧
      (w = false → t.out.getLast? = some (.readData 0 32 false)))) ∧
    (∀ p off w, a.off.toNat % 4 = 0 → targetAt false a.off.toNat = .page p off → s.closed p = true →
      w = true ∨ (off ≠ 0 ∧ off ≠ 0xC) → ∀ c ∈ [Instr.fencedPageAccess a false w, .darkPageAccess a false w],
        (c = .darkPageAccess a false w → s.darkPage p = true) → Gives c s (fun t => others t ∧ captured t ∧
          (s.darkPage p = true → bitAt (t.rd pgDev Reg.intRaw) Reg.causeDevDarkAccess = true) ∧
          (s.flag pgDev Reg.errValid = false → t.rd pgDev Reg.errCode = 5 ∧ t.rd pgDev Reg.errDetail = off % 2 ^ 16) ∧
          (w = false → t.out.getLast? = some (.readData 0 32 false)))) ∧
    ∀ off v, off.toNat % 4 = 0 → Gives (.legacyPageWrite off v) s (fun t => others t ∧
      bitAt (t.rd pgDev Reg.intRaw) Reg.causeDevLegacyWrite = true)

/-- INT_ACK, INT_ROUTE, INT_CTRL.EN and the MSI-X mask. INT_ACK arms its vector when no source routed to it asserts; with
delivery possible, the vector unmasked and a source routed to it asserted, it sends exactly one message and the vector stays
disarmed. INT_ROUTE_WRITE stores each of its four vectors below 48; a vector of 48 or more is stored as 0 with ROUTE_BAD.
INT_CTRL_WRITE sets EN, and without EN sends nothing. MSIX_UNMASK clears the mask bit of the table entry and sends a message
that was pending there, with MSI-X enabled and the function not masked. (R75, R77, R78, R79, R80) -/
def Obligations.InterruptRegistersRouteAndRearm : Prop :=
  ∀ s : State,
    (∀ v : BitVec 6, (∀ n, n < 80 → s.rd pgInt (Reg.intRouteVector n) = v.toNat → s.sourceLine n = false) →
      Gives (.intAck v) s (fun t => t.armed v.toNat = true ∧ t.out = s.out)) ∧
    (∀ (v : BitVec 6) n, n < 80 → s.rd pgInt (Reg.intRouteVector n) = v.toNat → s.sourceLine n = true → s.deliverable = true →
      s.vecMasked v.toNat = false → Gives (.intAck v) s (fun t => t.armed v.toNat = false ∧
        t.out = s.out ++ [.msix v.toNat])) ∧
    (∀ (k : Fin 20) (v : BitVec 32) i, i < 4 → Gives (.intRouteWrite k v) s (fun t =>
      let r := bitsAt v.toNat (8 * i) 6
      t.rd pgInt (Reg.intRouteVector (4 * k.val + i)) = (if r < 48 then r else 0) ∧
      (48 ≤ r → bitAt (t.rd pgInt Reg.intRaw) 0 = true))) ∧
    (∀ b, Gives (.intCtrlWrite b) s (fun t => t.flag pgInt Reg.intCtrlEn = b ∧ (b = false → t.out = s.out))) ∧
    ∀ v : Fin 64, Gives (.msixUnmask v) s (fun t => t.vecMasked v = s.msixMask ∧
      (s.msixOn = true → s.msixMask = false → s.msixPend = [(v.val, true)] → t.out = s.out ++ [.msix v.val] ∧ t.msixPend = []))

/-- Writing ARM = 1 to a flip register arms it, taints the page and the record, and is logged. On an open page a write of a flip
register with ARM 1 sets ARM, PAGE_STAT.TAINT and the record's taint, raises SEC's INJECT and appends an injection entry
with the page, the value and the stoke to the attestation log, or counts it as lost where it does not fit; with ARM 0 it
clears ARM and neither taints nor logs. A fenced page ignores the write. MXA, TLM, HRT, FLU, GDC, KNK and CXP. (R509, R510,
R703) -/
def Obligations.FlipRegistersTaintAndLog : Prop :=
  ∀ (s : State) (n : Fin 160) (c : Fin 144) (x : Fin 2) (g : BitVec 12) (v : BitVec 32),
    ∀ e ∈ [(Instr.mxaFlip n v, pgMxa n, Reg.mxaFlipArm), (.tlmFlip n v, pgTlm n, Reg.tlmFlipArm),
        (.hrtFlip n v, pgHrt n, Reg.hrtFlipArm), (.gdcFlip c v, pgGdc c, Reg.gdcFlipArm), (.knkFlip v, pgKnk, Reg.knkFlipArm),
        (.cxpFlip x v, pgCxp x, Reg.cxpFlipArm)] ++
        (if fluPages.contains g.toNat then [(.fluFlip g v, pgFlu g.toNat, Reg.fluFlipArm)] else []),
      (s.closed e.2.1 = true → exec e.1 s = .next s) ∧
      (s.closed e.2.1 = false → v.getLsbD 31 = false → Gives e.1 s (fun t => t.flag e.2.1 e.2.2 = false ∧
        t.record.taint = s.record.taint ∧ t.sec = s.sec)) ∧
      (s.closed e.2.1 = false → v.getLsbD 31 = true → Gives e.1 s (fun t => t.flag e.2.1 e.2.2 = true ∧
        t.flag e.2.1 Reg.statTaint = true ∧ t.record.taint = true ∧
        bitAt (t.rd pgSec Reg.intRaw) Reg.causeSecInject = true ∧ t.mem = s.mem ∧
        (s.sec.log.length + 20 ≤ 65536 → ∃ entry, t.sec.log = s.sec.log ++ entry ∧ entry.length = 20 ∧
          entry.take 4 = leBytes 1 1 ++ leBytes 2 16 ++ leBytes 1 0 ∧ (entry.drop 12).take 4 = leBytes 4 v.toNat) ∧
        (65536 < s.sec.log.length + 20 → t.sec.log = s.sec.log)))

/-! ## Plans, feed queues, transfers, scrubs and host accesses (spec/13, spec/14, spec/17) -/

namespace Sys2Proof.Machine

/-- One command waits at the front of FQ0, of an opcode. -/
def Front (s : State) (opc : Nat) (e : SqEntry) : Prop := (s.queue 0).cmds = [e] ∧ entryOpc e.words = opc

/-- The completion ring of a queue has room, and no completion waits before it. -/
def Room (s : State) (q : Nat) : Prop := (s.queue q).held = [] ∧ s.cqUnread q + 1 < s.cqSize q

/-- A completion with tag, status and value has been written to the next slot of a ring. -/
def Completed (s t : State) (q tag status value : Nat) : Prop :=
  ∃ before after b, t.out = s.out ++ before ++ [.completion q (s.rd (pgFq q) Reg.fqStateCqTail) b] ++ after ∧
    b.take 2 = leBytes 2 tag ∧ (b.drop 4).take 4 = leBytes 4 status ∧ (b.drop 8).take 7 = leBytes 7 value

/-- No request waits at a partition. -/
def NoneWaits (s : State) : Prop := ∀ p, SMap.getD s.hub.waiting p [] = []

end Sys2Proof.Machine

/-- PLAN_LOAD, PLAN_STAGED, PLAN_QUERY and PLAN_WITHDRAW. PLAN_LOAD at the front of FQ0 with an address and length that R470
allows and no image loading or staged starts to read the image from host memory; with other fields it completes with code
0x20, and while an image loads or is staged with code 0x37, and the staging stays. PLAN_QUERY completes with the status word
of the active plan, or of the staged one. PLAN_WITHDRAW ends the staging with code 0x39, and with none completes at once.
PLAN_STAGED of an image that fails a check ends the staging with that check's code and detail; of one that passes, with no
bank to drain, it stages the plan that the image decodes to, with the starts of its work lists; with banks to drain the plan
waits for them, and is staged when the drains have ended. (R470, R471, R474, R476, R478, R583) -/
def Obligations.PlanCommandsLoadStageAndWithdraw : Prop :=
  ∀ s : State,
    (∀ e, Front s 1 e →
      let a := e.words.getD 1 0
      let len := e.words.getD 2 0
      let ok := a % 64 = 0 ∧ 768 ≤ len ∧ len ≤ 2 ^ 32
      (ok → s.plans.staging = none → Gives .planLoad s (fun t => (t.queue 0).cmds = [] ∧
        t.out = s.out ++ [.hostRequest "read" a len] ∧
        t.plans.staging = some { tag := some (entryTag e.words), addr := a, len := len, swapAt := e.words.getD 3 0,
                                 stage := 1, code := 0, detail := 0, plan := none })) ∧
      (¬ ok → Room s 0 → Gives .planLoad s (fun t => t.plans = s.plans ∧
        Completed s t 0 (entryTag e.words) (planWord32 6 0x20 0xFFFE) 0)) ∧
      (ok → s.plans.staging ≠ none → Room s 0 → Gives .planLoad s (fun t => t.plans = s.plans ∧
        Completed s t 0 (entryTag e.words) (planWord32 6 0x37 0) 0))) ∧
    (∀ e, Front s 3 e → Room s 0 → Gives .planQuery s (fun t => t.plans = s.plans ∧
      Completed s t 0 (entryTag e.words) (if bitAt (e.words.getD 1 0) 0 then s.plans.activeStatus
        else match s.plans.staging with
          | some g => g.word
          | none => s.plans.lastStatus) 0)) ∧
    (∀ e, Front s 2 e → Gives .planWithdraw s (fun t => t.plans.staging = none ∧ t.plans.active = s.plans.active ∧
      (s.plans.staging ≠ none → t.plans.lastStatus = planWord32 7 0x39 0 ∧ t.rd pgStk Reg.stkStatePlanStaged = 0) ∧
      (s.plans.staging = none → Room s 0 → Completed s t 0 (entryTag e.words) (planWord32 0 0 0) 0))) ∧
    ∀ g img bad, s.plans.staging = some g →
      let staged := fun (u : State) (p : Plan) (t : State) => t.rd pgStk Reg.stkStatePlanStaged = 1 ∧
        t.plans.staging = some { g with stage := 4, tag := none, plan := some { p with starts := (u.writeHloads p).listStarts p } }
      (g.plan = none → Gives (.planStaged img bad) s (fun t => t.plans.active = s.plans.active ∧
        match s.checkImage img g.len bad with
        | some x => t.plans.staging = none ∧ t.plans.lastStatus = planWord32 6 x.1 x.2 ∧ t.mem = s.returnBanks.mem
        | none =>
          let p := planOf img
          let s1 := (pinnedBanks p.pins).foldl State.prepareBank s
          (s1.plans.draining = [] → s1.checkShape p false = none → (s1.writeHloads p).checkLists p = none → staged s1 p t) ∧
          (s1.plans.draining ≠ [] → t.plans.staging = some { g with stage := 2, plan := some p } ∧
            t.plans.draining = s1.plans.draining))) ∧
      ∀ p, g.plan = some p → g.stage = 2 → s.plans.draining = [] → s.checkShape p false = none →
        (s.writeHloads p).checkLists p = none → Gives (.planStaged img bad) s (fun t => staged s p t ∧
          t.plans.active = s.plans.active)

/-- Planned DMA issues in order and moves words with their poison; a checkpoint copy ends complete or void. PLANNED_DMA_ISSUE in
a working stoke before B issues the partition's next descriptor once its START is reached, and one of length 0 ends the
list; without a next descriptor, or from B on, nothing changes. PLANNED_DMA_DONE of an issued transfer of one word between
hearth or near addresses leaves source word and poison at the destination, takes the transfer off, leaves no valid copy of
the destination in the L1 of the flagged tile, and sets its flag. CHECKPOINT_COPY_END that copies the last frozen blocks
leaves the generation's record complete with the work stoke of the copy; a copy that a write has made void leaves a void
record and ends. (R460, R461, R467, R468, R469, R495) -/
def Obligations.PlannedDmaAndCheckpointCopies : Prop :=
  (∀ (s : State) (p : Fin 160) (cyc : BitVec 32),
    let open_ := s.stoke.working = true ∧ s.stoke.quenched = false ∧ s.stoke.phase = .work ∧ cyc.toNat < s.cycleB
    (∀ a, open_ → s.nextDma p = some a →
      (s.natAt a 4 ≠ 0 → s.natAt (a + 4) 4 ≤ cyc.toNat → Gives (.plannedDmaIssue p cyc) s (fun t =>
        SMap.getD t.plans.dmaNext p 0 = SMap.getD s.plans.dmaNext p 0 + 1 ∧ SameMem s t ∧
        ∃ r, t.plans.dmaRun = s.plans.dmaRun ++ [r] ∧ r.part = p.val ∧ r.index = SMap.getD s.plans.dmaNext p 0 ∧
          r.src = s.natAt (a + 8) 8 ∧ r.dst = s.natAt (a + 16) 8 ∧ r.len = s.natAt a 4)) ∧
      (s.natAt a 4 = 0 → Gives (.plannedDmaIssue p cyc) s (fun t => t.nextDma p = none ∧ t.plans.dmaRun = s.plans.dmaRun))) ∧
    (¬ open_ ∨ s.nextDma p = none → exec (.plannedDmaIssue p cyc) s = .next s)) ∧
  (∀ (s : State) (p : Fin 160) (k : Nat) (far : FarBytes) (r : DmaRun), r.part = p.val → r.index = k →
    s.plans.dmaRun.find? (fun x => x.part = p.val && x.index = k) = some r → r.len = 8 → r.src < farBase → r.dst < farBase →
    SoundCells s → Gives (.plannedDmaDone p k far) s (fun t => t.natAt r.dst 8 = s.natAt r.src 8 ∧ t.badAt r.dst = s.badAt r.src ∧
      (∀ b, b < r.dst ∨ r.dst + 8 ≤ b → t.byteAt b = s.byteAt b) ∧
      t.plans.dmaRun = s.plans.dmaRun.filter (fun x => !(x.part == p.val && x.index == k)) ∧
      (r.flagTile < s.liveTiles.length → r.flag < 16 → t.evtFlag (s.physOf r.flagTile) r.flag = true ∧
        ∀ e ∈ (t.tile (s.physOf r.flagTile)).l1, (e.2.dropIn r.dst 8).valid = e.2.valid))) ∧
  ∀ (s : State) (c : CkptCopy) (n : Nat), s.plans.ckpt = some c → c.finished = false → c.gen < 2 →
    (c.isVoid = false → SoundCells s → c.todo.length ≤ n → Gives (.checkpointCopyEnd n) s (fun t =>
      t.plans.ckpt = some { c with todo := [], finished := true } ∧ (t.ckRec c.gen).state = 1 ∧ (t.ckRec c.gen).work = c.work ∧
      t.mem = s.mem)) ∧
    (c.isVoid = true → Gives (.checkpointCopyEnd n) s (fun t => t.plans.ckpt = none ∧ (t.ckRec c.gen).state = 2 ∧
      (t.ckRec c.gen).work = c.work ∧ t.mem = s.mem))

/-- Queues start empty, doorbells offer entries, STOKE, RECORD and SCRUB complete. QUEUE_ENABLE of a stopped queue whose sizes
and bases are valid starts it with empty rings, into which only completions that were held go; with others it stops in
error; disabling clears both. SQ_TAIL_DOORBELL of a running queue offers the entries up to the tail, and one past the ring,
as CQ_HEAD_DOORBELL past its ring, stops the queue. STOKE at the front acts as a write of STK_CMD and completes; RECORD with
an aligned address writes the determinism record there and completes; SCRUB outside the table completes with 0x02, and
within it is queued, started when no other runs. SCRUB_END of the running scrub writes its summary, completes it and takes
it off. (R504, R505, R506, R517, R580, R581, R582, R583) -/
def Obligations.FeedQueuesOfferRunAndComplete : Prop :=
  (∀ (s : State) (q : Fin 5),
    (s.flag (pgFq q) Reg.fqStateEn = false → Gives (.queueEnable q true) s (fun t =>
      t.flag (pgFq q) Reg.fqStateEn = true ∧ t.rd (pgFq q) Reg.fqStateSqHead = 0 ∧
      ((s.queue q).held = [] → t.rd (pgFq q) Reg.fqStateCqTail = 0) ∧
      (t.queue q).unread = [] ∧ (t.queue q).cqHead = 0 ∧
      t.flag (pgFq q) Reg.fqStateErr = (!s.queueSizesOk q || s.flag (pgFq q) Reg.fqStateErr))) ∧
    Gives (.queueEnable q false) s (fun t => t.flag (pgFq q) Reg.fqStateEn = false ∧ t.flag (pgFq q) Reg.fqStateErr = false) ∧
    (∀ tail entries, q.val ≠ 4 → s.queueOn q = true →
      let n := s.sqSize q
      (tail.toNat < n → (s.queue q).unread = [] → Gives (.sqTailDoorbell q tail entries true) s (fun t =>
        (t.queue q).unread.map (fun e => e.words) =
          (entries.take ((tail.toNat + n - s.rd (pgFq q) Reg.fqStateSqHead % n) % n)).map (fun w => w.map BitVec.toNat))) ∧
      (n ≤ tail.toNat → ∀ b, Gives (.sqTailDoorbell q tail entries b) s (fun t => t.flag (pgFq q) Reg.fqStateErr = true))) ∧
    ∀ head, s.flag (pgFq q) Reg.fqStateEn = true →
      (head.toNat < s.cqSize q → Gives (.cqHeadDoorbell q head) s (fun t => (t.queue q).cqHead = head.toNat)) ∧
      (s.cqSize q ≤ head.toNat → Gives (.cqHeadDoorbell q head) s (fun t => t.flag (pgFq q) Reg.fqStateErr = true))) ∧
  (∀ (s : State) (e : SqEntry), Room s 0 →
    let w := e.words.getD 1 0
    (Front s 0x10 e → w % 16 = 2 → Gives .stoke s (fun t => t.stoke = { s.stoke with stopCmd := true } ∧
      Completed s t 0 (entryTag e.words) 0 t.stkStateWord)) ∧
    (Front s 0x20 e → w % 64 = 0 → Gives .record s (fun t => .hostWrite w s.detrec [] ∈ t.out ∧
      Completed s t 0 (entryTag e.words) 0 0)) ∧
    (Front s 0x30 e → s.scrubOk w (e.words.getD 2 0) (e.words.getD 3 0) (e.words.getD 4 0) = false → Gives .scrub s (fun t =>
      t.feed.scrubs = s.feed.scrubs ∧ Completed s t 0 (entryTag e.words) 0x02 0)) ∧
    (Front s 0x30 e → s.scrubOk w (e.words.getD 2 0) (e.words.getD 3 0) (e.words.getD 4 0) = true → s.feed.scrubs.length < 5 →
      Gives .scrub s (fun t => ∃ c, t.feed.scrubs.length = s.feed.scrubs.length + 1 ∧
        t.feed.scrubs.getLast? = some c ∧ c.start = e.words.getD 2 0 ∧
        c.len = e.words.getD 3 0 ∧ c.mode = bitsAt w 46 2 ∧
        (s.feed.scrubs = [] → c.begun = some (s.rd pgStk Reg.stkNum))))) ∧
  ∀ (s : State) (c : Scrub) (be de : List CellFault), s.feed.scrubs = [c] → s.hub.wiping = false → Room s 0 →
    Gives (.scrubEnd be de) s (fun t => t.feed.scrubs = [] ∧ Completed s t 0 c.cmdTag 0 0 ∧
      ∃ b, .hostWrite c.sumAddr b [] ∈ t.out ∧ b.length = 64 ∧ b.take 2 = leBytes 2 c.tag)

/-- Ingest and egress perform the fixed descriptors of the stoke. For the next descriptor of a queue's fixed set, its START
reached in a working stoke, and stored words sound: INGEST_PERFORM of a push leaves the words of the push area at its
destination and finishes the descriptor; of a pull with CXP0 up and room among the reads in flight it asks the host for the
data; INGEST_DESCRIPTOR_DONE then, with all data before B, leaves the data at the destination and finishes it.
EGRESS_PERFORM on a LIT module with CXP0 up writes the extent to host memory, and finishes the descriptor; a module that is
not LIT finishes it and writes nothing. (R540, R588, R592, R593, R594) -/
def Obligations.TransfersMoveTheirSet : Prop :=
  ∀ (s : State) (k : Nat) (cyc : BitVec 32) (x : Xfer), SoundCells s →
    (∀ q : Fin 2, (s.queue (q.val + 1)).xfers = [x] →
      (s.nextXfer (q.val + 1) k cyc.toNat = some x →
        (x.push = true → x.dst + x.len ≤ farBase → Gives (.ingestPerform q k cyc) s (fun t =>
          (t.queue (q.val + 1)).xfers = [{ x with issued := true, done := true }] ∧
          ∀ i, i < x.len / 8 → t.natAt (x.dst + 8 * i) 8 = s.natAt (s.pushBase + x.src + 8 * i) 8)) ∧
        (x.push = false → s.rd (pgCxp 0) Reg.cxpLinkMode ≠ 0 → s.blwFull 0 = false → Gives (.ingestPerform q k cyc) s (fun t => SameMem s t ∧
          (t.queue (q.val + 1)).xfers = [{ x with issued := true }] ∧ ∃ kind, t.out = s.out ++ [.hostRequest kind x.src x.len]))) ∧
      (∀ data bad, x.fixed = true → x.issued = true → x.done = false → x.slot = k → x.push = false → s.stoke.phase = .work →
        s.stoke.quenched = false → x.len ≤ 8 * data.length → x.dst + x.len ≤ farBase →
        Gives (.ingestDescriptorDone q k data bad) s (fun t => (t.queue (q.val + 1)).xfers = [{ x with done := true }] ∧
          ∀ i d, i < x.len / 8 → data[i]? = some d → t.natAt (x.dst + 8 * i) 8 = d.toNat))) ∧
    ((s.queue 3).xfers = [x] → s.nextXfer 3 k cyc.toNat = some x → ∀ far,
      (s.lit = true → s.rd (pgCxp 0) Reg.cxpLinkMode ≠ 0 → Gives (.egressPerform k cyc far) s (fun t =>
        (t.queue 3).xfers = [{ x with issued := true, done := true }] ∧ t.mem = s.mem ∧
        ∃ pre b bad, t.out = s.out ++ pre ++ [.hostWrite x.dst b bad] ∧ (far = [] → pre = []) ∧ b.length = x.len / 8 * 8 ∧
          (x.src + x.len ≤ farBase → ∀ i, i < b.length → b[i]? = some (s.byteAt (x.src + i))))) ∧
      (s.lit = false → Gives (.egressPerform k cyc far) s (fun t =>
        (t.queue 3).xfers = [{ x with issued := true, done := true }] ∧ t.mem = s.mem ∧ (far = [] → t.out = s.out))))

/-- Host reads and writes, snoops, configuration requests and the CXP links. With CXP0 open, stored words sound and no request
waiting: HOST_MEM_READ within the window answers the bytes and their poison and changes no byte; HOST_MEM_WRITE writes
exactly the masked bytes of its line; beyond the window both set HDM_BEYOND. BI_RESPONSE takes the line out of the filter,
and modified data reaches memory. HOST_SNOOP answers that no line is held. CONFIG_REQUEST answers Retry Status before ready;
ready, it sets MSI-X enable and mask. CDAT_READ of a ready module answers on mailbox 0. CXP_LINK_UP outside bring-up shows
the mode and sets its cause; CXP_LINK_DOWN shows mode 0; CXP_RETRAIN captures 0xC1. CXP_FLIT_RECEIVE of a good flit with no
flip armed changes nothing; a bad one counts a CRC error and a retry, or at the end its words as poison. (R492, R494, R572,
R574, R575, R576, R578, R584, R597, R598, R599, R631) -/
def Obligations.HostReachesNearMemory : Prop :=
  (∀ (s : State) (push : Bool) (off : BitVec 64), s.hostOpen = true → SoundCells s → NoneWaits s →
    (∀ len a, s.hostAddr push off.toNat len = some a → Gives (.hostMemRead push off len) s (fun t => SameMem s t ∧
      t.out.getLast? = some (.readData (s.natAt a len) (8 * len) (s.anyBad a len)))) ∧
    (∀ len, s.hostAddr push off.toNat len = none → Gives (.hostMemRead push off len) s (fun t => SameMem s t ∧
      bitAt (t.rd (pgCxp 0) Reg.intRaw) Reg.causeCxpHdmBeyond = true)) ∧
    ∀ data mask poison,
      (∀ a, s.hostAddr push (off.toNat / 64 * 64) 64 = some a → Gives (.hostMemWrite push off data mask poison) s (fun t =>
        (∀ i, i < 64 → t.byteAt (a + i) = if mask.getLsbD i then data.extractLsb' (8 * i) 8 else s.byteAt (a + i)) ∧
        (∀ b, b < a ∨ a + 64 ≤ b → t.byteAt b = s.byteAt b ∧ t.badAt b = s.badAt b) ∧ t.hashes = s.hashes)) ∧
      (s.hostAddr push (off.toNat / 64 * 64) 64 = none → Gives (.hostMemWrite push off data mask poison) s (fun t =>
        SameMem s t ∧ bitAt (t.rd (pgCxp 0) Reg.intRaw) Reg.causeCxpHdmBeyond = true))) ∧
  (∀ (s : State) (a : BitVec 64),
    let l := a.toNat / 64 * 64
    NoneWaits s → (isNear l = true → ∀ d : BitVec 512, Gives (.biResponse a (some d)) s (fun t => l ∉ t.feed.filter ∧
      ∀ i, i < 64 → t.byteAt (l + i) = d.extractLsb' (8 * i) 8)) ∧
    Gives (.biResponse a none) s (fun t => SameMem s t ∧ t.feed.filter = s.feed.filter.filter (· ≠ l)) ∧
    Gives (.hostSnoop a) s (fun t => ∃ b, t = { s with out := s.out ++ [.response "CXP0 snoop: no line" b] })) ∧
  (∀ (s : State) (r : ConfigReq),
    (s.ready = false → exec (.configRequest r) s = .next { s with out := s.out ++ [.response "CXP0 config: CRS" []] }) ∧
    (∀ en mask, s.ready = true → Gives (.configRequest (.msixControl en mask)) s (fun t => t.msixOn = en ∧ t.msixMask = mask)) ∧
    (s.ready = true → Gives .cdatRead s (fun t => ∃ b, t = { s with out := s.out ++ [.response "DOE 0" b] }))) ∧
  ∀ (s : State) (x : Fin 2),
    (∀ mode w r v devs, s.linkFenced x = false → mode.val ≠ 0 → s.booting 11 = false → Gives (.cxpLinkUp x mode w r v devs) s (fun t =>
      t.rd (pgCxp x) Reg.cxpLinkMode = mode.val ∧ t.rd (pgCxp x) Reg.cxpLinkWidth = min w (s.maxWidth x) % 2 ^ 5 ∧
      bitAt (t.rd (pgCxp x) Reg.intRaw) Reg.causeCxpLinkUp = true)) ∧
    Gives (.cxpLinkDown x) s (fun t => t.rd (pgCxp x) Reg.cxpLinkMode = 0 ∧
      bitAt (t.rd (pgCxp x) Reg.intRaw) Reg.causeCxpLinkDown = true) ∧
    (s.flag (pgCxp x) Reg.errValid = false → Gives (.cxpRetrain x) s (fun t => t.rd (pgCxp x) Reg.errCode = 0xC1)) ∧
    (s.flag (pgCxp x) Reg.cxpFlipArm = false → ∀ n,
      let crc := min (2 ^ 32 - 1) (s.rd (pgCxp x) Reg.cxpCrcerrCount + 1)
      (∀ b, exec (.cxpFlitReceive x true b n) s = .next s) ∧
      Gives (.cxpFlitReceive x false false n) s (fun t => t.rd (pgCxp x) Reg.cxpCrcerrCount = crc ∧
        t.rd (pgCxp x) Reg.cxpRetryCount = min (2 ^ 32 - 1) (s.rd (pgCxp x) Reg.cxpRetryCount + 1)) ∧
      Gives (.cxpFlitReceive x false true n) s (fun t => t.rd (pgCxp x) Reg.cxpCrcerrCount = crc ∧
        t.rd (pgCxp x) Reg.cxpPoisonCount = min (2 ^ 32 - 1) (s.rd (pgCxp x) Reg.cxpPoisonCount + n) ∧
        bitAt (t.rd (pgCxp x) Reg.intRaw) Reg.causeCxpPoisonRx = true))

/-! ## The pair (spec/16) -/

/-- The Kenka link: training, loss, retrain, and flits that are bad or out of sequence. KENKA_LINK_UP outside bring-up shows the
good lanes, the first lane set of R530 that they hold, its width and link up exactly when there is one; a width below 16
sets NARROW; with pairing and width enough a record and a heartbeat go out. KENKA_LINK_LOSS shows link down, discards what
is unacknowledged and waiting, gives the credits back, sets LINK_DOWN, and a PAIRED module with a live pin becomes
UNCHECKED. KNK_RETRAIN starts a retrain with code 0xB5; KENKA_RETRAIN_DONE ends it, counts the flits sent again and sends
them in blocks of four. Of a block without symbol errors, a flit whose CRC is wrong only counts, and the first asks for a
resend after the last good one; a data flit in sequence and without a message advances the sequence number, takes the
acknowledgement and is acknowledged. With the link down or in a retrain no flit changes anything. INVALID_MESSAGE sets PROTO
and leaves the pair logic as it is. (R530, R532, R534, R535, R537, R566) -/
def Obligations.KenkaLinkTrainsAndResends : Prop :=
  ∀ s : State,
    (∀ (good : BitVec 16) v peer, s.linkFenced 2 = false → s.booting 11 = false →
      let c := laneChoice good.toNat
      Gives (.kenkaLinkUp good v peer) s (fun t => t.knk Reg.knkLanesGood = good.toNat ∧
        t.knk Reg.knkLanesInuse = c.2 ∧ t.knk Reg.knkStateWidth = c.1 ∧ t.flag pgKnk Reg.knkStateLinkUp = decide (c.1 ≠ 0) ∧
        (c.1 ≠ 0 → c.1 < 16 → bitAt (t.rd pgKnk Reg.intRaw) Reg.causeKnkNarrow = true) ∧
        (c.1 ≠ 0 → s.pairEn = true → s.minWidth ≤ c.1 → s.pstate ≠ 2 →
          (∃ ws, .kenka 4 ws [] ∈ t.out) ∧ ∃ ws, .kenka 3 ws [] ∈ t.out))) ∧
    Gives .kenkaLinkLoss s (fun t => t.flag pgKnk Reg.knkStateLinkUp = false ∧ t.knk Reg.knkStateWidth = 0 ∧
      t.knk Reg.knkLanesInuse = 0 ∧ t.pair.unacked = [] ∧ t.pair.held = [] ∧ t.pair.credits = [256, 512, 128] ∧
      bitAt (t.rd pgKnk Reg.intRaw) Reg.causeKnkLinkDown = true ∧
      (s.pairEn = true → s.pstate = 1 → s.pair.pinLive = true → t.pstate = 2) ∧ (s.pairEn = false → t.pstate = s.pstate)) ∧
    Gives .knkRetrain s (fun t => t.pair = { s.pair with retraining := true, refused := 0 } ∧
      (s.flag pgKnk Reg.errValid = false → t.rd pgKnk Reg.errCode = 0xB5) ∧ t.out = s.out) ∧
    (s.pair.retraining = true → s.pair.held = [] → Gives .kenkaRetrainDone s (fun t =>
      t.pair = { s.pair with retraining := false, rxWait := false, freed := t.pair.freed, txTurn := t.pair.txTurn } ∧
      t.out.length = s.out.length + ceilDiv s.pair.unacked.length 4 ∧
      t.knk Reg.knkRetryCount = min (2 ^ 32 - 1) (s.knk Reg.knkRetryCount + s.pair.unacked.length))) ∧
    (s.pair.retraining = false → exec .kenkaRetrainDone s = .next s) ∧
    (∀ b place far, s.flag pgKnk Reg.knkStateLinkUp = false ∨ s.pair.retraining = true →
      exec (.kenkaFlitReceive b place far) s = .next s) ∧
    (s.flag pgKnk Reg.knkStateLinkUp = true → s.pair.retraining = false → ∀ (f : BitVec 2048) (place : Fin 4) far,
      let b : KnkBlock := { sent := f, errors := [] }
      let h := (f.extractLsb' 0 64).toNat
      let good := Hash.crc64 ((List.range 248).map (fun i => f.extractLsb' (8 * i) 8)) = (f.extractLsb' 1984 64).toNat
      (¬ good → Gives (.kenkaFlitReceive b place far) s (fun t =>
        t.pair = { s.pair with rxWait := true, freed := t.pair.freed, txTurn := t.pair.txTurn } ∧
        t.knk Reg.knkCrcerrCount = min (2 ^ 32 - 1) (s.knk Reg.knkCrcerrCount + 1) ∧
        (s.pair.rxWait = false → t.out.getLast? = some (.kenkaAck ((s.pair.rxSeq + 1023) % 1024) true)))) ∧
      (good → flitValid h = true → bitsAt h 62 2 = 1 → bitsAt h 49 10 = s.pair.rxSeq → SMap.getD s.pair.rx (bitsAt h 59 3) [] = [] →
        (∀ i, i < 30 → f.extractLsb' (64 * (i + 1)) 64 = 0) → s.pair.held = [] → Gives (.kenkaFlitReceive b place far) s (fun t =>
          t.pair.rxSeq = (s.pair.rxSeq + 1) % 1024 ∧ t.pair.rxWait = false ∧
          t.pair.unacked = ackTo (bitsAt h 39 10) s.pair.unacked ∧ SMap.getD t.pair.rx (bitsAt h 59 3) [] = [] ∧
          t.out.getLast? = some (.kenkaAck s.pair.rxSeq false)))) ∧
    Gives .invalidMessage s (fun t => t.pair = s.pair ∧ bitAt (t.rd pgKnk Reg.intRaw) Reg.causeKnkProto = true ∧ SameMem s t)

/-- Messages of the partner: digest, replay, heartbeat, record, hand-off, split, checkpoint, ready, ingest. DIGEST is held for
comparison. REPLAY with PAIR_REPLAY, before the latch point of its work stoke, waits as its notice. HEARTBEAT shows the
partner's state, and a pair forms when R557 and R558 allow it. RECORD shows the mismatch mask; a mismatch outside SPLIT and
RESYNC sets its cause and keeps the state, and records that match say so. HANDOFF takes PAIRED and UNCHECKED to SOLO, and
promotes a module that is not LIT. SPLIT and CKPT are held; in SPLIT, with both SPLIT messages held and the stoke unit HELD,
one module's faults decide between resuming alone and SPENT, and without a common checkpoint generation the host is asked.
READY equal to the own one starts the count of boundaries, an unequal one is captured. INGEST to a module that forwards into
BANKED is kept, and in its own work stoke written at once. (R537, R546, R553, R554, R555, R557, R558, R540, R519, R36) -/
def Obligations.PairMessagesActAsNamed : Prop :=
  ∀ s : State,
    (∀ words : List (BitVec 64), Gives (.digest words) s (fun t =>
      t.pair.theirs.getLast? = some (digRecOf (words.map BitVec.toNat)) ∧
      t.pair.fresh = s.pair.fresh ++ [digRecOf (words.map BitVec.toNat)] ∧ t.regs = s.regs ∧ t.mem = s.mem)) ∧
    (∀ w : BitVec 64, s.pairEn = true → s.flag pgStk Reg.stkCtrlPairReplay = true → s.stoke.phase.rank < Phase.latched.rank →
      s.stoke.replaying = false → (s.rd pgStk Reg.stkWork < w.toNat ∨ (s.rd pgStk Reg.stkWork = w.toNat ∧ s.stoke.working = true)) →
        exec (.replay w) s = .next { s with stoke := { s.stoke with notice := some w.toNat } }) ∧
    (∀ words : List (BitVec 64),
      let w := (words.map BitVec.toNat).getD 0 0
      (s.pairEn = false → Gives (.heartbeat words) s (fun t => t.pair.partnerState = bitsAt w 0 3 ∧
        t.pair.partnerLit = bitAt w 3 ∧ t.pair.partnerPos = bitAt w 4 ∧ t.pair.linkLive = true ∧ t.pstate = s.pstate ∧
        t.knk Reg.knkStatePhb = phbCode (decide (bitsAt w 0 3 = 4)) (bitAt w 3))) ∧
      (s.pairEn = true → s.pstate = 0 → s.linkGood = true → s.pair.matched = true → s.rd pgStk Reg.stkState = 0 →
        bitsAt w 0 3 ≠ 4 → bitsAt w 0 3 ≠ 5 → b2n (bitAt w 4) ≠ s.knk Reg.knkCtrlPos → Gives (.heartbeat words) s (fun t =>
          t.pstate = 1 ∧ bitAt (t.rd pgKnk Reg.intRaw) Reg.causeKnkPaired = true))) ∧
    (∀ (words : List (BitVec 64)) far, s.pairEn = true →
      let mask := recMismatch s.detrec (words.flatMap (fun w => leBytes 8 w.toNat))
      (mask ≠ 0 → s.pstate ≤ 2 → Gives (.recordMsg words far) s (fun t => t.knk Reg.knkMismatchMask = mask % 2 ^ 16 ∧
        t.pair.matched = false ∧ t.pstate = s.pstate ∧ bitAt (t.rd pgKnk Reg.intRaw) Reg.causeKnkRecord = true)) ∧
      (mask = 0 → s.pstate = 1 → Gives (.recordMsg words far) s (fun t => t.knk Reg.knkMismatchMask = 0 ∧
        t.pair.matched = true ∧ t.pstate = 1))) ∧
    (∀ w : BitVec 64, s.pairEn = true → s.pstate = 1 ∨ s.pstate = 2 → s.pair.sentHandoff = none → Gives (.handoff w) s (fun t =>
      t.pstate = 0 ∧ bitAt (t.rd pgKnk Reg.intRaw) Reg.causeKnkPartnerLost = true ∧
      (s.lit = false → t.pair.rolePair = some true ∧ t.pair.promotedBy = some w.toNat) ∧
      (s.lit = true → t.pair.rolePair = s.pair.rolePair))) ∧
    (∀ words : List (BitVec 64),
      let v := words.map BitVec.toNat
      let b : SplitMsg := { work := v.getD 0 0, faults := v.getD 1 0, hashes := (List.range 304).map (fun i => v.getD (i + 2) 0) }
      (s.pair.ownSplit = none → exec (.splitMsg words) s = .next { s with pair := { s.pair with partnerSplit := some b } }) ∧
      (∀ a, s.pair.ownSplit = some a → s.pstate = 3 → s.pair.splitDone = false → s.rd pgStk Reg.stkState = 3 →
        s.knk Reg.knkSplitOutcome ≠ 4 →
        (a.faults ≠ 0 → b.faults = 0 → Gives (.splitMsg words) s (fun t => t.pstate = 4 ∧ t.knk Reg.knkSplitOutcome = 2 ∧
          t.pair.rolePair = some false)) ∧
        (a.faults = 0 → b.faults ≠ 0 → Gives (.splitMsg words) s (fun t => t.pstate = 0 ∧ t.knk Reg.knkSplitOutcome = 1 ∧
          t.pair.rolePair = some true ∧ t.stoke.resumeCmd = true ∧
          t.rd pgStk Reg.stkResume = s.rd pgStk Reg.stkFailWork % 2 ^ 64)))) ∧
    (∀ words : List (BitVec 64),
      let bytes := (words.map BitVec.toNat).flatMap (leBytes 8)
      let theirs := [ckptRecOf (recPart bytes 0 64), ckptRecOf (recPart bytes 64 64)]
      (s.pstate ≠ 3 → exec (.ckpt words) s = .next { s with pair := { s.pair with ckTheirs := some theirs } }) ∧
      (s.pstate = 3 → s.knk Reg.knkSplitOutcome = 3 → s.ckCommon theirs 0 = false → s.ckCommon theirs 1 = false →
        Gives (.ckpt words) s (fun t => t.pair.ckTheirs = some theirs ∧ t.knk Reg.knkReloadLoValid = 0 ∧
          bitAt (t.rd pgKnk Reg.intRaw) Reg.causeKnkSplitHost = true)) ∧
      (s.pstate = 3 → s.knk Reg.knkSplitOutcome = 3 → s.ckCommon theirs 0 = false → s.ckCommon theirs 1 = true →
        Gives (.ckpt words) s (fun t => t.knk Reg.knkReloadLoValid = 1 ∧ t.knk Reg.knkReloadLoGen = 1 ∧
          t.knk Reg.knkReloadHiWork = (s.ckRec 1).work % 2 ^ 32))) ∧
    (∀ words : List (BitVec 64), s.pstate ≠ 5 →
      let v := words.map BitVec.toNat
      Gives (.readyMsg words) s (fun t => t.pair.readyTheirs = some (v.getD 0 0, v.getD 1 0) ∧ t.pstate = s.pstate ∧
        (s.pair.readyOwn = none → t.pair.readyCount = s.pair.readyCount) ∧
        (s.pair.readyOwn = some (v.getD 0 0) → t.pair.readyCount = some (v.getD 1 0)) ∧
        ∀ a, s.pair.readyOwn = some a → a ≠ v.getD 0 0 → t.pair.readyCount = none ∧
          (s.flag pgStk Reg.errValid = false → t.rd pgStk Reg.errCode = 3))) ∧
    ∀ (work addr x : BitVec 64) bad, (s.fwdBanked = false → exec (.ingest [work, addr, x] bad) s = .next s) ∧
      (s.fwdBanked = true → Gives (.ingest [work, addr, x] bad) s (fun t =>
        t.pair.forwarded = s.pair.forwarded ++ [(work.toNat, addr.toNat, [(x.toNat, bad.contains 2)])] ∧
        (s.rd pgStk Reg.stkWork ≠ work.toNat → t.mem = s.mem) ∧
        (s.stoke.working = true → s.stoke.quenched = false → s.stoke.phase = .work → s.rd pgStk Reg.stkWork = work.toNat →
          t.natAt addr.toNat 8 = x.toNat ∧ t.badAt addr.toNat = bad.contains 2 ∧
          ∀ a, a < addr.toNat ∨ addr.toNat + 8 ≤ a → t.byteAt a = s.byteAt a)))

/-- Heartbeats, lost partners, dual LIT, hand-off and keep. HB_TRANSMIT pulses 40, 20 or 10 µs for SPENT, LIT and BANKED, and
sends a heartbeat where the link can take one. A valid HB_PULSE_RECEIVE makes the pin live and shows its code, and SPENT
ends a pair; an invalid one changes nothing. HB_PATH_LOSS of the pin alone sets HB_PIN; with both paths lost PAIRED and
UNCHECKED become SOLO, and a module that is not LIT takes the role. DUAL_LIT_DETECT sets its cause; position A keeps its
state, position B goes BANKED in PAIRED and SPENT otherwise. KNK_HANDOFF in a pair sends the last clean work stoke and goes
SPENT; without pairing it does nothing. KNK_KEEP after a repeated split, held, goes on alone at STK_FAIL_WORK; elsewhere
code 0x03 is captured and the state stays. (R538, R539, R541, R556, R557, R559, R560, R755, R757) -/
def Obligations.HeartbeatsAndHandOffs : Prop :=
  ∀ s : State,
    Gives .hbTransmit s (fun t => t.pair.window = s.pair.window - 1 ∧
      (∃ rest, t.out = s.out ++ .pulse "PAIR_HB_TX" (if s.pstate = 4 then 40 else if s.codedLit then 20 else 10) :: rest) ∧
      (s.flag pgKnk Reg.knkStateLinkUp = true → s.pair.retraining = false → s.pair.held = [] → 1 ≤ s.pair.credits.getD 0 0 →
        s.pair.unacked.length < 512 → t.out.getLast? = some (.kenka 3
          [s.pstate + 8 * b2n s.codedLit + 16 * s.knk Reg.knkCtrlPos, s.rd pgStk Reg.stkWork] []))) ∧
    (∀ n, (pulseCode n = 0 → exec (.hbPulseReceive n) s = .next s) ∧
      (pulseCode n ≠ 0 → Gives (.hbPulseReceive n) s (fun t => t.pair.pinLive = true ∧ t.knk Reg.knkStatePinOk = 1 ∧
        t.knk Reg.knkStatePhb = pulseCode n ∧ (pulseCode n ≠ 3 → t.pstate = s.pstate) ∧
        (pulseCode n = 3 → s.pairEn = true → s.pstate = 1 ∨ s.pstate = 2 → t.pstate = 0)))) ∧
    (∀ pin, let alive := if pin then s.pair.linkLive else s.pair.pinLive
      Gives (.hbPathLoss pin) s (fun t =>
        (pin = true → t.pair.pinLive = false ∧ t.knk Reg.knkStatePinOk = 0) ∧ (pin = false → t.pair.linkLive = false) ∧
        (alive = true → t.pstate = s.pstate ∧ (pin = true → bitAt (t.rd pgKnk Reg.intRaw) Reg.causeKnkHbPin = true)) ∧
        (alive = false → s.pairEn = true → s.pstate = 1 ∨ s.pstate = 2 → t.pstate = 0 ∧ t.knk Reg.knkStatePhb = 0 ∧
          (s.lit = false → t.pair.rolePair = some true)))) ∧
    (s.pairEn = true → s.codedLit = true → s.pair.partnerLit = true → s.pstate ≤ 2 → Gives .dualLitDetect s (fun t =>
      bitAt (t.rd pgKnk Reg.intRaw) Reg.causeKnkDualLit = true ∧
      (s.flag pgKnk Reg.knkCtrlPos = false → t.pstate = s.pstate ∧ t.pair.rolePair = s.pair.rolePair) ∧
      (s.flag pgKnk Reg.knkCtrlPos = true → t.pair.rolePair = some false ∧ t.pstate = (if s.pstate = 1 then 1 else 4)))) ∧
    (s.pairEn = true → s.pstate = 1 ∨ s.pstate = 2 → Gives .knkHandoff s (fun t => t.pstate = 4 ∧
      t.pair.sentHandoff = some (s.pair.lastClean.getD allOnes64, s.lit) ∧ t.pair.rolePair = some false)) ∧
    (s.pairEn = false → exec .knkHandoff s = .next s) ∧
    (let may := s.pairEn = true ∧ s.pstate = 3 ∧ s.knk Reg.knkSplitOutcome = 4 ∧ s.rd pgStk Reg.stkState = 3;
      (may → Gives .knkKeep s (fun t => t.pstate = 0 ∧ t.knk Reg.knkSplitOutcome = 1 ∧ t.pair.rolePair = some true ∧
        t.stoke.resumeCmd = true ∧ t.rd pgStk Reg.stkResume = s.rd pgStk Reg.stkFailWork % 2 ^ 64)) ∧
      (¬ may → Gives .knkKeep s (fun t => t.pair = s.pair ∧ t.stoke = s.stoke ∧ t.pstate = s.pstate ∧
        (s.flag pgKnk Reg.errValid = false → t.rd pgKnk Reg.errCode = 3))))

/-- Resynchronisation: accepted by the sender, rows and zero runs at the receiver, equal and unequal hashes. KNK_RESYNC_TX under
the conditions of R561 enters RESYNC as sender, which holds for its stoke unit or, HELD already, exchanges records; refused,
it captures code 0x03. At a receiver that takes rows, RS_ROWS below the far tier leaves every word and its poison, RS_ZERO
leaves zeros, both count their rows and leave every other byte; RS_END, stored words sound, with the hash of the own copy
set pairs the modules with this one BANKED and resumes at the sender's work stoke, and with another hash sets RESYNC_FAIL
and enters SPENT. Rows and RS_END change nothing at a module that takes none. RS_ACK notes the acknowledged rows.
RESYNC_HOLD_EXPIRY without a good link gives a split to the host, and a sender back to work alone. (R557, R561, R562, R563,
R564, R565) -/
def Obligations.ResynchronisationCopiesTheSet : Prop :=
  ∀ s : State,
    (let may := s.pairEn = true ∧ s.pstate = 0 ∧ s.lit = true ∧ s.plans.active.isSome = true ∧ s.linkGood = true ∧
        (s.pair.partnerState = 0 ∨ s.pair.partnerState = 4);
      (may → Gives (.knkResyncTx true) s (fun t => t.pstate = 5 ∧ t.flag pgKnk Reg.knkStateDir = false ∧
        t.pair.resync = some { step := if s.rd pgStk Reg.stkState = 3 then .record else .hold, rows := 0, acked := 0, paused := false })) ∧
      (∀ ok, ok = false ∨ ¬ may → Gives (.knkResyncTx ok) s (fun t => t.pair = s.pair ∧ t.pstate = s.pstate ∧
        (s.flag pgKnk Reg.errValid = false → t.rd pgKnk Reg.errCode = 3)))) ∧
    (∀ (a : BitVec 64) (ws : List (BitVec 64)) bad far, s.receiving = false →
      exec (.rsRows (a :: ws) bad) s = .next s ∧ exec (.rsZero (a :: ws)) s = .next s ∧ exec (.rsEnd (a :: ws) far) s = .next s) ∧
    (∀ (a n : BitVec 64) (ws : List (BitVec 64)) bad r, s.receiving = true → s.pair.resync = some r → a.toNat % 8 = 0 →
      (a.toNat + 8 * ws.length ≤ farBase → Gives (.rsRows (a :: ws) bad) s (fun t =>
        (∀ i, i < ws.length → t.natAt (a.toNat + 8 * i) 8 = (ws.getD i 0).toNat ∧
          t.badAt (a.toNat + 8 * i) = bad.contains (i + 1)) ∧
        (∀ b, b < a.toNat ∨ a.toNat + 8 * ws.length ≤ b → t.byteAt b = s.byteAt b) ∧
        t.knk Reg.knkRsDoneRows = (r.rows + ws.length / 64) % 2 ^ 64)) ∧
      (a.toNat + 512 * n.toNat ≤ farBase → a.toNat < farBase → Gives (.rsZero [a, n]) s (fun t =>
        (∀ b, a.toNat ≤ b → b < a.toNat + 512 * n.toNat → t.byteAt b = 0 ∧ t.badAt b = false) ∧
        (∀ b, b < a.toNat ∨ a.toNat + 512 * n.toNat ≤ b → t.byteAt b = s.byteAt b) ∧
        t.knk Reg.knkRsDoneRows = (r.rows + n.toNat) % 2 ^ 64))) ∧
    (∀ (h x : BitVec 64) far, s.receiving = true → SoundCells s →
      (h.toNat = s.resyncHash far → Gives (.rsEnd [h, x] far) s (fun t => t.pstate = 1 ∧ t.pair.resync = none ∧
        t.pair.rolePair = some false ∧ bitAt (t.rd pgKnk Reg.intRaw) Reg.causeKnkResyncDone = true ∧
        (t.ckRec 0).state = 2 ∧ (t.ckRec 1).state = 2 ∧
        t.rd pgStk Reg.stkResume = leNat (recPart (s.pair.partnerRec.getD []) 128 8) % 2 ^ 64)) ∧
      (h.toNat ≠ s.resyncHash far → Gives (.rsEnd [h, x] far) s (fun t => t.pstate = 4 ∧ t.pair.resync = none ∧
        t.pair.rolePair = some false ∧ bitAt (t.rd pgKnk Reg.intRaw) Reg.causeKnkResyncFail = true))) ∧
    (∀ (a : BitVec 64) r, s.pair.resync = some r →
      exec (.rsAck a) s = .next { s with pair := { s.pair with resync := some { r with acked := max r.acked a.toNat } } }) ∧
    (s.pairEn = false ∨ s.linkGood = true → exec .resyncHoldExpiry s = .next s) ∧
    (s.pairEn = true → s.linkGood = false →
      (s.pstate = 3 → Gives .resyncHoldExpiry s (fun t => t.pair = s.pair ∧ t.pstate = 3 ∧
        bitAt (t.rd pgKnk Reg.intRaw) Reg.causeKnkSplitHost = true)) ∧
      (s.pstate = 5 → s.flag pgKnk Reg.knkStateDir = false → Gives .resyncHoldExpiry s (fun t => t.pstate = 0 ∧
        t.pair.resync = none ∧ t.stoke.resumeCmd = true ∧ t.rd pgStk Reg.stkResume = s.rd pgStk Reg.stkWork % 2 ^ 64)))

/-! ## Power, temperature and bring-up (spec/18, spec/19, spec/20) -/

/-- Telemetry, the power cap, PWR_WARN_N and the damper step. TELEMETRY_POLL that succeeds clears the failures, shows the link
up and keeps READ_PIN last; a status that is not 0 sets PM_FAULT; the third failure in a row with the link up loses it.
POWER_CAP_EVAL shows the average of the last WIN readings and moves the cap floor one step up above CAP_W, one step down
below 0.9 CAP_W. PWR_WARN_ASSERT raises the warn floor and the floor with it, and counts; PWR_WARN_RELEASE ends it and notes
its length; RIDE_EXPIRY while it lasts quenches a running stoke to HELD and writes the minimum-voltage records to flash.
DAMPER_CHANGE to a slower step changes the clock at once and gives the hobs their targets; to a faster one it gives the
targets first, and HOB_TARGET_REACHED changes the clock. (R642, R644, R647, R661, R662, R663, R664, R665, R667) -/
def Obligations.PowerFloorsAndTheDamper : Prop :=
  ∀ s : State,
    (∀ pages (pin : BitVec 16), Gives (.telemetryPoll true pages pin) s (fun t => t.power.pmFails = 0 ∧
      t.flag pgPwr Reg.pwrStatePmLinkOk = true ∧ t.power.pins.getLast? = some pin.toNat ∧
      ((∃ e ∈ pages, e.page < s.pmPages ∧ e.status ≠ 0) → bitAt (t.rd pgPwr Reg.intRaw) Reg.causePwrPmFault = true))) ∧
    (∀ pages pin, Gives (.telemetryPoll false pages pin) s (fun t => t.power.pmFails = s.power.pmFails + 1 ∧
      (2 ≤ s.power.pmFails → s.flag pgPwr Reg.pwrStatePmLinkOk = true → t.flag pgPwr Reg.pwrStatePmLinkOk = false ∧
        bitAt (t.rd pgPwr Reg.intRaw) Reg.causePwrPmLink = true) ∧
      (s.power.pmFails < 2 → t.regs = s.regs))) ∧
    (let l := s.power.pins.drop (s.power.pins.length - max 1 (s.rd pgPwr Reg.pwrCapWin))
     let sum := l.foldl (· + ·) 0
     let c := s.power.capFloor
     (l ≠ [] → Gives .powerCapEval s (fun t => t.rd pgPwr Reg.pwrPin = sum / l.length % 2 ^ 16 ∧
        t.power.capFloor = (if s.capW * l.length < sum then min 3 (c + 1)
          else if 10 * sum < 9 * s.capW * l.length then c - 1 else c) ∧
        (s.capW * l.length < sum → bitAt (t.rd pgPwr Reg.intRaw) Reg.causePwrCap = true))) ∧
     (l = [] → exec .powerCapEval s = .next s)) ∧
    (s.flag pgPwr Reg.pwrStateWarn = false → Gives .pwrWarnAssert s (fun t => t.flag pgPwr Reg.pwrStateWarn = true ∧
      t.power.warnFloor = s.rd pgPwr Reg.pwrCtrlWarnDamper ∧
      t.rd pgPwr Reg.pwrStateFloor = max (max s.capFloor s.derateFloor) (s.rd pgPwr Reg.pwrCtrlWarnDamper) % 4 ∧
      t.rd pgPwr Reg.pwrWarncntAsserts = min 65535 (s.rd pgPwr Reg.pwrWarncntAsserts + 1) ∧
      bitAt (t.rd pgPwr Reg.intRaw) Reg.causePwrWarn = true)) ∧
    (s.flag pgPwr Reg.pwrStateWarn = true → exec .pwrWarnAssert s = .next s ∧
      (∀ us, Gives (.pwrWarnRelease us) s (fun t => t.flag pgPwr Reg.pwrStateWarn = false ∧ t.power.warnFloor = 0 ∧
        t.rd pgPwr Reg.pwrWarnLastUs = us.toNat)) ∧
      Gives .rideExpiry s (fun t => t.flash.vmins = s.vminRecs ∧
        bitAt (t.rd pgPwr Reg.intRaw) Reg.causePwrRideExpired = true ∧
        (s.running = true → s.stoke.phase.rank ≤ Phase.writeback.rank → t.stoke.quenched = true ∧ t.stoke.quenchHold = true ∧
          ∀ n, (t.tile n).ctxs = []))) ∧
    (s.flag pgPwr Reg.pwrStateWarn = false → exec .rideExpiry s = .next s ∧ ∀ us, exec (.pwrWarnRelease us) s = .next s) ∧
    (let now := s.rd pgStk Reg.stkStateDamper
     let want := s.wantedDamper
     let targets := fun (t : State) => ∀ k, k < 16 → t.rd (pgHob k) Reg.hobVtgtMv = s.fuses.vtgt.getD (4 * k + want) 0 % 2 ^ 16
     (want = now → s.power.target = none → exec .damperChange s = .next s) ∧
     (now < want → want ≤ 3 → Gives .damperChange s (fun t => t.rd pgStk Reg.stkStateDamper = want ∧
        t.rd pgStk Reg.stkStateDampChg = 1 ∧ t.power.target = none ∧ targets t)) ∧
     (want < now → Gives .damperChange s (fun t => t.rd pgStk Reg.stkStateDamper = now ∧ t.power.target = some want ∧ targets t))) ∧
    (∀ d, d ≤ 3 → s.power.target = some d → Gives .hobTargetReached s (fun t => t.rd pgStk Reg.stkStateDamper = d ∧
      t.power.target = none)) ∧
    (s.power.target = none → exec .hobTargetReached s = .next s)

/-- Droops, failed slices, crack measurements and wakes of a hob. DROOP_WARN of a voltage below its limit stretches the clock
and sets its cause, a new minimum is recorded, and DROOP_RECOVER ends the stretching and counts its cycles. DROOP_TRIP below
its limit sets the causes and the fault summary and quenches a running stoke. SLICE_FAIL switches a slice out for good, in
HOB_SLICES and in flash; the third derates the hob, the fourth quenches and makes it dark. CRACK_MEASURE of a hob that is up
shows the reading; above CRACK_WARN it derates, above CRACK_TRIP the hob's switches will open. HOB_WAKE_KINDLE kindles a
waking hob in a kindling slot or, forced, on the ninth stoke, and else defers it. HOB_WAKE_UP brings a regulated hob up with
its tiles no longer dark; one out of its limits goes dark. (R648, R649, R654, R655, R657, R658, R659, R660, R667, R550) -/
def Obligations.HobsDroopCrackAndWake : Prop :=
  ∀ (s : State) (h : Fin 16),
    let p := pgHob h
    let quenched := fun (t : State) => s.running = true → s.stoke.phase.rank ≤ Phase.writeback.rank →
      t.stoke.quenched = true ∧ t.stoke.fails = s.stoke.fails ++ [4]
    (∀ (mv : BitVec 16) cyc,
      (s.belowBy h mv.toNat (s.rd p Reg.hobCtrlDroopWarn) = true → SMap.getD s.power.stretch h false = false →
        Gives (.droopWarn h mv cyc) s (fun t => SMap.getD t.power.stretch h false = true ∧
          bitAt (t.rd p Reg.intRaw) Reg.causeHobDroopWarn = true ∧ t.rd p Reg.hobVMv = mv.toNat ∧
          (s.flag p Reg.hobVminValid = false ∨ mv.toNat < s.rd p Reg.hobVminMv → t.rd p Reg.hobVminMv = mv.toNat ∧
            t.flag p Reg.hobVminValid = true ∧ t.rd p Reg.hobVminCycCycle = cyc.toNat))) ∧
      (s.belowBy h mv.toNat (s.rd p Reg.hobCtrlDroopWarn) = false → Gives (.droopWarn h mv cyc) s (fun t =>
        t.power.stretch = s.power.stretch ∧ t.rd p Reg.hobVMv = mv.toNat)) ∧
      (s.belowBy h mv.toNat (s.rd p Reg.hobCtrlDroopTrip) = true → Gives (.droopTrip h mv cyc) s (fun t =>
        bitAt (t.rd p Reg.intRaw) Reg.causeHobDroopTrip = true ∧ bitAt (t.rd pgPwr Reg.intRaw) Reg.causePwrVmin = true ∧
        bitAt (t.knk Reg.knkFaults) 4 = true ∧ quenched t))) ∧
    (∀ n, (SMap.getD s.power.stretch h false = true → Gives (.droopRecover h n) s (fun t =>
        SMap.getD t.power.stretch h false = false ∧
        t.rd p Reg.hobStretchCycles = min (2 ^ 32 - 1) (s.rd p Reg.hobStretchCycles + n.toNat))) ∧
      (SMap.getD s.power.stretch h false = false → exec (.droopRecover h n) s = .next s)) ∧
    (∀ k : Fin 24, (bitAt (s.rd p Reg.hobSlicesFailed) k = true → exec (.sliceFail h k) s = .next s) ∧
      (bitAt (s.rd p Reg.hobSlicesFailed) k = false →
        let m := s.rd p Reg.hobSlicesFailed ||| 2 ^ k.val
        Gives (.sliceFail h k) s (fun t => bitAt (t.rd p Reg.hobSlicesFailed) k = true ∧
          SMap.getD t.flash.repSlices h 0 = m ∧ t.rd p Reg.hobStateFailed = popCount 24 m ∧
          (popCount 24 m = 3 → t.flag p Reg.hobStateDerate = true) ∧
          (3 < popCount 24 m → s.rd p Reg.hobState ≠ 4 → t.rd p Reg.hobState = 4 ∧ quenched t)))) ∧
    (∀ x : BitVec 16, s.rd p Reg.hobState = 1 →
      let base := s.rd p Reg.hobResBase
      let above := fun lim => max 1 lim * base < 10 * (x.toNat - base)
      Gives (.crackMeasure [(h, x)]) s (fun t => t.rd p Reg.hobResNow = x.toNat ∧
        (above (s.rd p Reg.hobCtrlCrackWarn) → t.flag p Reg.hobStateDerate = true ∧
          bitAt (t.rd p Reg.intRaw) Reg.causeHobCrackWarn = true) ∧
        (above (s.rd p Reg.hobCtrlCrackTrip) → h.val ∈ t.power.opening) ∧
        (¬ above (s.rd p Reg.hobCtrlCrackTrip) → t.power.opening = s.power.opening))) ∧
    (∀ n, SMap.find s.power.rests h = some (.waking n) →
      (8 ≤ n → Gives (.hobWakeKindle h) s (fun t => t.rd p Reg.hobState = 3 ∧ t.rd p Reg.hobKindleForced = 1 ∧
        SMap.find t.power.rests h = some (.kindling true) ∧ bitAt (t.rd p Reg.intRaw) Reg.causeHobForced = true)) ∧
      (n < 8 → s.kindlingSlot h = true → Gives (.hobWakeKindle h) s (fun t => t.rd p Reg.hobState = 3 ∧
        t.rd p Reg.hobKindleForced = 0 ∧ t.rd p Reg.hobKindleDefer = n ∧ SMap.find t.power.rests h = some (.kindling false))) ∧
      (n < 8 → s.kindlingSlot h = false → exec (.hobWakeKindle h) s =
        .next { s with power := { s.power with rests := SMap.ins s.power.rests h (.waking (n + 1)) } })) ∧
    ∀ (forced : Bool) (mv base : BitVec 16) (slices : BitVec 24), SMap.find s.power.rests h = some (.kindling forced) →
      let m := s.rd p Reg.hobSlicesFailed ||| slices.toNat
      (s.regulated h mv.toNat = true → popCount 24 m ≤ 3 → Gives (.hobWakeUp h mv base slices) s (fun t =>
        t.rd p Reg.hobState = 1 ∧ t.rd p Reg.hobVMv = mv.toNat ∧ t.rd p Reg.hobResBase = base.toNat ∧
        SMap.find t.power.rests h = none ∧ ∀ n ∈ hobTiles h, t.flag (pgTil n) Reg.statDark = false)) ∧
      (s.regulated h mv.toNat = false ∨ 3 < popCount 24 m → Gives (.hobWakeUp h mv base slices) s (fun t =>
        t.rd p Reg.hobState = 4 ∧ bitAt (t.rd pgPwr Reg.intRaw) Reg.causePwrHobDark = true ∧ quenched t ∧
        ∀ n ∈ hobTiles h, t.flag (pgTil n) Reg.statDark = true))

/-- Monitors, diodes, plausibility, the thermal step, and THERMTRIP_N. MONITOR_SAMPLE of a monitor keeps its raw reading; one
that fails its self-count is broken; the second reading in a row at TRIP makes a trip, for a module without one.
DIODE_SAMPLE keeps a good reading and shows it; a broken diode sets its bit and cause and keeps the step at 1 or more.
PLAUS_EVAL keeps T_leak; more than LEAK_DELTA above the Hearth reading the leakage check fails, and at TRIP there is a trip.
THERMAL_STEP_TIMER raises the step with a hot die, lowers it with every die cool, within 0 to 3 and not below 1 with a
broken diode, and else changes nothing. THERMTRIP_ASSERT after a trip, and DIODE_TRIP at TRIP with the rails on, write the
trip record to flash, reset the module and hold THERMTRIP_N; without a trip, or below TRIP, nothing changes. THM_TRIP_CLEAR
erases the record. (R669, R670, R673, R675, R676, R677, R678, R679, R680, R681, R684) -/
def Obligations.ThermalStepsAndTrips : Prop :=
  ∀ s : State,
    (∀ (d : Fin 3) (i : Fin 160) (x : BitVec 16) ok m, s.mon d i = some m →
      Gives (.monitorSample [(d, i, x, ok)]) s (fun t =>
        (∃ m', t.mon d i = some m' ∧ m'.raw = x.toInt ∧ m'.offset = m.offset ∧ (ok = false → m'.broken = true)) ∧
        (deg (s.thrTrip d) ≤ x.toInt + m.offset → 1 ≤ m.trips → s.mod.tripped = false → s.therm.trip = none →
          ∃ r, t.therm.trip = some r ∧ r.die = d.val ∧ r.source = 1 ∧ r.mon = i.val) ∧
        (x.toInt + m.offset < deg (s.thrTrip d) → t.therm.trip = s.therm.trip))) ∧
    (∀ (d : Fin 3) (x : BitVec 16),
      (inRange x.toInt = true → Gives (.diodeSample [(d, x, true)]) s (fun t => SMap.find t.therm.diodes d = some x.toInt ∧
        SMap.getD t.therm.diodeBad d false = false ∧ t.rd pgThm (Reg.thmHotDiode d) = x.toNat)) ∧
      Gives (.diodeSample [(d, x, false)]) s (fun t => SMap.getD t.therm.diodeBad d false = true ∧
        bitAt (t.rd pgThm Reg.thmStateDiodeBad) d = true ∧ 1 ≤ t.rd pgThm Reg.thmStateStep ∧
        (SMap.getD s.therm.diodeBad d false = false → bitAt (t.rd pgThm Reg.intRaw) Reg.causeThmDiodeBad = true))) ∧
    (∀ x : BitVec 16, Gives (.plausEval x) s (fun t => t.therm.tleak = x.toInt ∧ t.therm.ceNow = [] ∧
      (∀ h, s.hearthOwn = some h → h + deg (s.rd pgThm Reg.thmPlausLeakDelta) < x.toInt → t.therm.leak.failing = true) ∧
      (deg (s.thrTrip 1) ≤ x.toInt → s.mod.tripped = false → s.therm.trip = none →
        ∃ r, t.therm.trip = some r ∧ r.source = 2 ∧ r.reading = x.toNat))) ∧
    (let n := s.rd pgThm Reg.thmStateStep
     let lo := if s.rd pgThm Reg.thmStateDiodeBad = 0 then 0 else 1
     let hot := (List.range 3).any (fun d => SMap.getD s.therm.hot d false)
     let cool := (List.range 3).all (fun d => SMap.getD s.therm.cool d false)
     (hot = true → Gives .thermalStepTimer s (fun t => t.rd pgThm Reg.thmStateStep = max lo (min 3 (n + 1)) ∧
        (n < 3 → bitAt (t.rd pgThm Reg.intRaw) Reg.causeThmStep = true))) ∧
     (hot = false → cool = true → Gives .thermalStepTimer s (fun t => t.rd pgThm Reg.thmStateStep = max lo (min 3 (n - 1)))) ∧
     (hot = false → cool = false → exec .thermalStepTimer s = .next s)) ∧
    (let tripped := fun (t : State) (r : TripRec) => t.flash = { s.flash with trip := some r } ∧ t.mod.tripped = true ∧
      t.rd pgTnd Reg.tndResetCause = 16 ∧ t.out.getLast? = some (.pin "THERMTRIP_N" false) ∧ t.mem = [] ∧ t.tiles = []
     (∀ r, s.therm.trip = some r → Gives .thermtripAssert s (fun t => tripped t r)) ∧
     (s.therm.trip = none → exec .thermtripAssert s = .next s) ∧
     ∀ (d : Fin 3) (x : BitVec 16),
       (s.mod.pwrGood = true → SMap.getD s.therm.diodeBad d false = false → s.mod.tripped = false → deg (s.thrTrip d) ≤ x.toInt →
         Gives (.diodeTrip d x) s (fun t => ∃ r, tripped t r ∧ r.die = d.val ∧ r.source = 0 ∧ r.reading = x.toNat)) ∧
       (x.toInt < deg (s.thrTrip d) → exec (.diodeTrip d x) s = .next s)) ∧
    Gives .thmTripClear s (fun t => t.flash = { s.flash with trip := none } ∧ t.rd pgThm Reg.thmTripValid = 0 ∧
      t.therm = s.therm ∧ t.mem = s.mem)

/-- Reset sources clear the module and a bring-up follows when the pins are high. POWER_GOOD_RISE, POWER_GOOD_FALL,
RESET_N_ASSERT, PERST0_N_ASSERT, CXP0_HOT_RESET and WATCHDOG_EXPIRY reset the module, with 1, 1, 2, 4, 8 and 32 in
RESET_CAUSE: memory, tiles and shadows are empty, READY is 0, the outputs take their reset levels; fuses and queue are kept,
and where no bring-up follows flash too. A power-good rise samples the strap, a fall lets THERMTRIP_N go. With PWR_GOOD,
RESET_N and PERST0_N high and no trip held, the release of the last pin, the rise, a hot reset or the watchdog starts a
bring-up, which ends step 7 or fails; one that hangs in step 3 fails with code 1 at step 2. Otherwise none runs. A release
of a pin that is high, a rise when power is good and a fall when it is not change nothing. (R601, R602, R603, R604, R606,
R632, R638, R676) -/
def Obligations.ResetsClearTheModule : Prop :=
  ∀ (s : State) (f : Findings),
    let clean := fun (t : State) (cause : Nat) => t.rd pgTnd Reg.tndResetCause = cause ∧ t.mem = [] ∧ t.memBad = [] ∧
      t.shadow = [] ∧ t.flag pgDev Reg.devStateReady = false ∧ t.fuses = s.fuses ∧ t.pending = s.pending ∧ t.fresh = s.fresh
    let off := fun (t : State) => t.boot.running = false ∧ t.flash = s.flash ∧ t.tiles = [] ∧
      t.out = s.out ++ [.pin "PERST1_N" false, .pin "PAIR_HB_TX" false, .pin "STOKE_SYNC_OUT" false]
    let up := fun (t : State) => (t.boot.failed = true ∧ t.boot.running = false) ∨ (t.bootStep = 7 ∧ t.boot.running = true)
    let hung := fun (t : State) => f.hang = 3 → t.boot.failed = true ∧ t.rd pgTnd Reg.tndBootFail = 1 ∧ t.bootStep = 2
    let m := s.mod
    Gives .resetNAssert s (fun t => clean t 2 ∧ off t ∧ t.mod.resetN = false ∧ t.mod.pwrGood = m.pwrGood) ∧
    Gives .perst0NAssert s (fun t => clean t 4 ∧ off t ∧ t.mod.perst0N = false ∧ t.mod.pwrGood = m.pwrGood) ∧
    (m.pwrGood = true → exec (.powerGoodRise true f) s = .next s ∧ exec (.powerGoodRise false f) s = .next s ∧
      Gives .powerGoodFall s (fun t => clean t 1 ∧ off t ∧ t.mod.pwrGood = false ∧ t.mod.tripped = false)) ∧
    (m.pwrGood = false → exec .powerGoodFall s = .next s ∧ ∀ strap, Gives (.powerGoodRise strap f) s (fun t =>
      clean t 1 ∧ t.mod.pwrGood = true ∧ t.compat = strap ∧
      ((m.resetN && m.perst0N && !m.tripped) = true → up t ∧ hung t) ∧ ((m.resetN && m.perst0N && !m.tripped) = false → off t))) ∧
    (m.resetN = true → exec (.resetNRelease f) s = .next s) ∧ (m.perst0N = true → exec (.perst0NRelease f) s = .next s) ∧
    (m.resetN = false → Gives (.resetNRelease f) s (fun t => t.mod.resetN = true ∧ t.mod.tap = .bypass ∧
      ((m.pwrGood && m.perst0N && !m.tripped) = true → s.boot.failed = false → up t ∧ hung t) ∧
      ((m.pwrGood && m.perst0N && !m.tripped) = false → t.boot = s.boot ∧ t.regs = s.regs))) ∧
    (m.perst0N = false → Gives (.perst0NRelease f) s (fun t => t.mod.perst0N = true ∧
      ((m.pwrGood && m.resetN && !m.tripped) = true → s.boot.failed = false → up t ∧ hung t) ∧
      ((m.pwrGood && m.resetN && !m.tripped) = false → t.boot = s.boot ∧ t.regs = s.regs))) ∧
    ∀ e ∈ [(Instr.cxp0HotReset f, 8), (.watchdogExpiry f, 32)], Gives e.1 s (fun t => clean t e.2 ∧ t.compat = s.compat ∧
      ((m.pwrGood && m.resetN && m.perst0N && !m.tripped) = true → up t ∧ hung t) ∧
      ((m.pwrGood && m.resetN && m.perst0N && !m.tripped) = false → off t))

/-- Kindling, microcode, channel training, limits, ready and the training record. In a bring-up: KINDLING_STAGE closes the next
stage of a wave whose turn it is. HOB_UP_CHECK of a kindled hob within its limits brings it up, another goes dark. A good
MICROCODE_PACKET that reaches an expected receiver is noted there, one that is lost is not, one that reads back differently
uses a spare row; MICROCODE_ROUND ends step 9 when every receiver is complete, and else goes to the next round, or after
round 3 fences what is not complete. CHANNEL_TRAINED without a record in use takes the first passing attempt, narrow from
the fourth on, and fences a channel that never passes or whose speed is not the fused one. STEP_LIMIT_EXPIRY before step 8
fails the bring-up with code 1, in step 12 it ends the step and a link that is late sets its cause. READY shows the module
ready with the times, the stoke unit IDLE and STK_NUM 0. TRAINING_RECORD_SAVE writes a record with the next SEQ;
TREC_DISCARD and FAST_NEXT_WRITE set what the next bring-up does. Out of their step these change nothing. (R606, R609, R610,
R616, R617, R618, R620, R621, R624, R625, R629, R630) -/
def Obligations.BringUpStepsEndInOrder : Prop :=
  ∀ s : State,
    (∀ (w : Fin 4) (g : Fin 8),
      let hobs := (List.range 4).map (fun i => w.val + 4 * i)
      let due := (∀ k ∈ hobs, s.stages k = g.val) ∧ ∀ k, k < 16 → k % 4 < w.val → s.stages k = 8
      (s.booting 7 = true → due → Gives (.kindlingStage w g) s (fun t => ∀ k ∈ hobs, t.stages k = g.val + 1 ∧
        t.rd (pgHob k) Reg.hobState = 3)) ∧
      (s.booting 7 = false ∨ ¬ due → exec (.kindlingStage w g) s = .next s)) ∧
    (∀ (h : Fin 16) (mv base : BitVec 16) (sl : BitVec 24) rows lines,
      let m := s.rd (pgHob h) Reg.hobSlicesFailed ||| sl.toNat
      let ok := s.regulated h mv.toNat = true ∧ popCount 24 m ≤ 3
      let now := s.booting 7 = true ∧ s.stages h = 8 ∧ s.rd (pgHob h) Reg.hobState = 3
      (now → ok → Gives (.hobUpCheck h mv base sl rows lines) s (fun t => t.rd (pgHob h) Reg.hobState = 1 ∧
        t.rd (pgHob h) Reg.hobResBase = base.toNat)) ∧
      (now → ¬ ok → Gives (.hobUpCheck h mv base sl rows lines) s (fun t => t.rd (pgHob h) Reg.hobState = 4 ∧
        bitAt (t.rd pgTnd Reg.tndHobsDark) h = true)) ∧
      (¬ now → exec (.hobUpCheck h mv base sl rows lines) s = .next s)) ∧
    (∀ (p : List (BitVec 8)) (r : Fin 1750),
      (s.booting 8 = false ∨ pktOk p = false → ∀ lost bad, exec (.microcodePacket p [r] lost bad) s = .next s) ∧
      (s.booting 8 = true → pktOk p = true → s.expected r = true → s.rxGone r = false →
        bitAt (pktAt p 4 1) (rxClass r) = true →
        Gives (.microcodePacket p [r] [] []) s (fun t => bitAt (SMap.getD t.boot.got r 0) (pktAt p 0 2) = true ∧
          t.rd pgTnd Reg.tndUcPackets = pktAt p 2 2 % 2 ^ 12) ∧
        Gives (.microcodePacket p [r] [r.val] []) s (fun t => t.boot.got = s.boot.got ∧ t.boot.spares = s.boot.spares) ∧
        Gives (.microcodePacket p [r] [] [r.val]) s (fun t => t.boot.got = s.boot.got ∧
          SMap.getD t.boot.spares r 0 = SMap.getD s.boot.spares r 0 + 1))) ∧
    (s.booting 8 = true →
      (s.incomplete = [] → Gives .microcodeRound s (fun t => t.bootStep = 9 ∧ t.rd pgTnd Reg.tndUcRounds = s.boot.rounds % 4)) ∧
      (s.incomplete ≠ [] → s.boot.rounds < 3 → Gives .microcodeRound s (fun t => t.bootStep = 8 ∧
        t.boot = { s.boot with rounds := s.boot.rounds + 1 })) ∧
      (3 ≤ s.boot.rounds → Gives .microcodeRound s (fun t => ∀ r ∈ s.incomplete, SMap.getD t.boot.fenced r false = true))) ∧
    (s.booting 9 = true → s.trainRec = none → ∀ (c : Fin 144) (peer : BitVec 64) (sp de : Fin 4) v passes set,
      SMap.find s.boot.chans c = none →
      let fused := s.rd (pgGdc c) Reg.gdcStateSpeed = sp.val ∧ s.rd (pgGdc c) Reg.gdcStateDensity = de.val
      (∀ k, fused → (passes.take 5).idxOf? true = some k → Gives (.channelTrained c peer sp de v passes set) s (fun t =>
        SMap.find t.boot.chans c = some { narrow := decide (3 ≤ k), fenced := false, fast := false, peer := peer.toNat,
                                          settings := set } ∧ t.boot.unsaved = true)) ∧
      (¬ fused ∨ true ∉ passes.take 5 → Gives (.channelTrained c peer sp de v passes set) s (fun t =>
        (∃ x, SMap.find t.boot.chans c = some x ∧ x.fenced = true) ∧ t.flag (pgGdc c) Reg.statFenced = true))) ∧
    (s.boot.running = false → exec .stepLimitExpiry s = .next s) ∧
    (s.boot.running = true → s.bootStep < 8 → Gives .stepLimitExpiry s (fun t => t.boot.failed = true ∧ t.boot.running = false ∧
      t.rd pgTnd Reg.tndBootFail = 1)) ∧
    (s.booting 11 = true → Gives .stepLimitExpiry s (fun t => t.bootStep = 12 ∧ t.boot = s.boot ∧
      (∀ i, i < 3 → SMap.find s.boot.links i = none → bitAt (t.rd pgTnd Reg.intRaw) Reg.causeTndLinkLate = true))) ∧
    (∀ total train, s.booting 12 = true ∨ (s.booting 11 = true ∧ (SMap.find s.boot.links 0).isSome = true) →
      Gives (.ready total train) s (fun t => t.flag pgDev Reg.devStateReady = true ∧ t.bootStep = 13 ∧ t.boot.running = false ∧
        t.rd pgStk Reg.stkState = 0 ∧ t.rd pgStk Reg.stkNum = 0 ∧ t.rd pgTnd Reg.tndTimeTotalMs = total.toNat ∧
        t.rd pgTnd Reg.tndTimeTrainMs = train.toNat ∧ bitAt (t.rd pgDev Reg.intRaw) Reg.causeDevReady = true)) ∧
    (let fl := s.flash
     (s.flag pgDev Reg.devStateReady = true → s.boot.unsaved = true → Gives .trainingRecordSave s (fun t =>
        t.boot.unsaved = false ∧ t.flash.discarded = fl.discarded ∧ bitAt (t.rd pgTnd Reg.intRaw) Reg.causeTndTrecSaved = true ∧
        ∃ r : TrainRec, r.seq = max (recSeq fl.trainA) (recSeq fl.trainB) + 1 ∧ r.entries = s.trainEntries ∧
          (recSeq fl.trainA ≤ recSeq fl.trainB → t.flash.trainA = r.bytes) ∧
          (recSeq fl.trainB < recSeq fl.trainA → t.flash.trainB = r.bytes) ∧
          (s.boot.discard = true → t.flash.trainA = r.bytes ∧ t.flash.trainB = r.bytes))) ∧
     (s.flag pgDev Reg.devStateReady = false ∨ s.boot.unsaved = false → exec .trainingRecordSave s = .next s) ∧
     exec .trecDiscard s = .next { s with flash := { fl with discarded := true } } ∧
     ∀ v, Gives (.fastNextWrite v) s (fun t => t.flash = { fl with fastNext := v } ∧ t.flag pgTnd Reg.tndCtrlFastNext = v))

/-! ## Security, Smoke and the board (spec/21, spec/22, spec/23) -/

namespace Sys2Proof.Machine

/-- Mailbox 1 has answered a request with a status and a payload (spec/21 R696). -/
def Answered (t : State) (op status tag : Nat) (payload : List Byte) : Prop :=
  t.out.getLast? = some (.response "DOE 1" (leBytes 1 (op + 0x80) ++ leBytes 1 status ++ leBytes 2 tag ++
    leBytes 4 payload.length ++ payload))

/-- The board controller holds a response with a status and a payload (spec/23 R738). -/
def Replied (t : State) (cmd status : Nat) (payload : List Byte) : Prop :=
  t.mod.resp = some (leBytes 1 (cmd + 0x80) ++ leBytes 1 status ++ leBytes 2 payload.length ++
    leBytes 4 (frameCrc (cmd + 0x80) status payload) ++ payload)

end Sys2Proof.Machine

/-- Certificates, reports, the log, firmware update and life-cycle requests; a sanitize ends. Before READY the requests of
mailbox 1 change nothing, and while a transition waits for its sanitize they wait in order. Then GET_CERTS, GET_REPORT and
GET_LOG answer both certificates, the signed report of a 32-byte nonce (another length answers 2) and up to 61,440 log
bytes. FW_WRITE of a valid kind, offset and length writes the data to the slot that was not booted, erased at the first
write, and else answers 2 and writes nothing. FW_COMMIT answers the status of the image; one that fails leaves the slot
erased. LC_NONCE keeps and answers the random bytes while the TRNG works, and else answers 9. LC_TOKEN consumes the nonce;
refused, it counts, is shown and answered, and leaves fuses and flash; accepted, it starts the sanitize of a directly
attached slot 0, or blows the PEND fuse of its target and resets with cause 64. TRNG_HEALTH_FAIL takes the TRNG out.
FAR_SANITIZE_DONE records the result of a sanitize that runs. (R694, R695, R696, R697, R698, R700, R701, R420) -/
def Obligations.MailboxRequestsAreAnswered : Prop :=
  ∀ (s : State) (tag : BitVec 16),
    (∀ nonce off (kind : BitVec 8) o data rnd tok f,
      let reqs : List (Instr × DoeReq) := [(.getCerts tag, .certs), (.getReport tag nonce, .report nonce), (.getLog tag off, .log off.toNat),
        (.fwWrite tag kind o data, .write kind.toNat o.toNat data), (.fwCommit tag kind, .commit kind.toNat),
        (.lcNonce tag rnd, .nonce rnd), (.lcToken tag tok f, .token tok)]
      ∀ e ∈ reqs, (s.ready = false → exec e.1 s = .next s) ∧
        (s.ready = true → s.sec.wait.isSome = true → exec e.1 s =
          .next { s with sec := { s.sec with queue := s.sec.queue ++ [(tag.toNat, e.2)] } })) ∧
    (s.ready = true → s.sec.wait = none →
      Gives (.getCerts tag) s (fun t => Answered t 0x01 0 tag.toNat s.certs ∧ t.sec = s.sec ∧ t.regs = s.regs) ∧
      (∀ nonce, Gives (.getReport tag nonce) s (fun t => t.sec = s.sec ∧ t.regs = s.regs ∧
        (nonce.length = 32 → Answered t 0x02 0 tag.toNat (s.report nonce)) ∧ (nonce.length ≠ 32 → Answered t 0x02 2 tag.toNat []))) ∧
      (∀ off, Gives (.getLog tag off) s (fun t => t.sec = s.sec ∧ t.regs = s.regs ∧
        Answered t 0x03 0 tag.toNat ((s.sec.log.drop off.toNat).take 61440))) ∧
      (∀ (kind : BitVec 8) (off : BitVec 32) data,
        let k := s.spareSlot kind.toNat
        let ok := kind.toNat ≤ 1 ∧ data.length ≤ 61440 ∧ off.toNat + data.length ≤ 2 ^ 24
        (ok → k < s.flash.slots.length → Gives (.fwWrite tag kind off data) s (fun t => Answered t 0x10 0 tag.toNat [] ∧
          t.slot k = flashWrite (if s.slotOpen kind.toNat then s.slot k else []) off.toNat data ∧
          (∀ j, j ≠ k → t.slot j = s.slot j) ∧ t.slotOpen kind.toNat = true ∧ t.rd pgSec Reg.secUpdState = 1)) ∧
        (¬ ok → Gives (.fwWrite tag kind off data) s (fun t => Answered t 0x10 2 tag.toNat [] ∧ t.flash = s.flash))) ∧
      (∀ kind : BitVec 8, kind.toNat ≤ 1 →
        let k := s.spareSlot kind.toNat
        let st := imgStatus s.fuses kind.toNat (s.slot k)
        Gives (.fwCommit tag kind) s (fun t => Answered t 0x11 st tag.toNat [] ∧ t.rd pgSec Reg.secUpdStatus = st ∧
          t.slotOpen kind.toNat = false ∧ bitAt (t.rd pgSec Reg.intRaw) Reg.causeSecUpdDone = true ∧
          (st = 0 → t.flash = s.flash ∧ t.rd pgSec Reg.secUpdState = 3) ∧ (st ≠ 0 → t.slot k = [] ∧ t.rd pgSec Reg.secUpdState = 4))) ∧
      (∀ rnd : BitVec 256,
        (s.flag pgSec Reg.secStateTrngOk = true → Gives (.lcNonce tag rnd) s (fun t => t.sec.nonce = some (leBytes 32 rnd.toNat) ∧
          t.rd pgLcy Reg.lcyStateNonceOut = 1 ∧ Answered t 0x20 0 tag.toNat (leBytes 32 rnd.toNat))) ∧
        (s.flag pgSec Reg.secStateTrngOk = false → Gives (.lcNonce tag rnd) s (fun t => t.sec.nonce = none ∧
          t.rd pgLcy Reg.lcyStateNonceOut = 0 ∧ Answered t 0x20 9 tag.toNat []))) ∧
      (∀ tok f,
        let st := s.tokenStatus tok
        Gives (.lcToken tag tok f) s (fun t => t.sec.nonce = none ∧
          (st ≠ 0 → t.fuses = s.fuses ∧ t.flash = s.flash ∧ Answered t 0x21 st tag.toNat [] ∧
            t.rd pgLcy Reg.lcyLastStatus = st ∧ t.rd pgLcy Reg.lcyLastValid = 1 ∧
            t.rd pgLcy Reg.lcyRefusedCount = min 65535 (s.rd pgLcy Reg.lcyRefusedCount + 1)) ∧
          (st = 0 → s.farDirect 0 = true → t.sec.wait = some (tag.toNat, tok) ∧ t.rd (pgFar 0) Reg.farState = 3 ∧ t.fuses = s.fuses) ∧
          (st = 0 → s.farDirect 0 = false → s.rd (pgFar 0) Reg.farState ≠ 3 → t.rd pgTnd Reg.tndResetCause = 64 ∧
            t.fuses = { s.fuses with pend := withBit s.fuses.pend (imgAt tok 7 1) })))) ∧
    Gives .trngHealthFail s (fun t => t.flag pgSec Reg.secStateTrngOk = false ∧
      bitAt (t.rd pgSec Reg.intRaw) Reg.causeSecTrngFail = true ∧ t.fuses = s.fuses ∧ t.sec = s.sec) ∧
    ∀ (k : Fin 8) (r : Fin 3) (sec : BitVec 32) f,
      (s.rd (pgFar k) Reg.farState ≠ 3 → exec (.farSanitizeDone k r sec f) s = .next s) ∧
      (s.rd (pgFar k) Reg.farState = 3 → s.sec.wait = none → Gives (.farSanitizeDone k r sec f) s (fun t =>
        t.rd (pgFar k) Reg.farState = (if s.flag (pgFar k) Reg.farStateFailwhy then 4 else 2) ∧
        t.rd (pgFar k) Reg.farSanResult = r.val + 1 ∧ t.rd (pgFar k) Reg.farSanValid = 1 ∧
        t.rd (pgFar k) Reg.farSanSeconds = min 65535 sec.toNat ∧ t.sec = s.sec))

/-- Smoke: groups go to the host ring or the hearth region whole, flush, counter clear. SMK_GROUP_DELIVER takes the oldest
formed group. With DEST 1 and CXP0 up it writes every slot to the host ring at TAIL, which goes on by as many slots, or,
without room, drops the group whole and counts it; with CXP0 down nothing changes. With DEST 2 and a valid region that holds
it after NEXT it writes every slot there, advances NEXT, and no write hash changes; without a region the group is dropped
and HREG_BAD set. SMK_FLUSH with no ring, or while one runs, captures code 0x03; with no group in the region it is done at
once, and with one group that fits and CXP0 up it writes its slots to the ring and is done. SMK_COUNTER_CLR sets the eight
counters of a counter page to 0 and keeps those of every other page. (R707, R711, R712, R713, R714, R716) -/
def Obligations.SmokeDeliversWholeGroups : Prop :=
  ∀ s : State,
    let ring := fun (t : State) (g : List (List Byte)) =>
      (∀ i, i < g.length → .hostWrite (s.rd pgSmk Reg.smkRingBase + 64 * ((s.rd pgSmk Reg.smkRingTail + i) % s.ringSlots))
        (g.getD i []) [] ∈ t.out) ∧
      t.rd pgSmk Reg.smkRingTail = (s.rd pgSmk Reg.smkRingTail + g.length) % s.ringSlots ∧
      bitAt (t.rd pgSmk Reg.intRaw) Reg.causeSmkGroup = true
    let dropped := fun (t : State) => t.smoke.lost = true ∧ t.mem = s.mem ∧
      t.rd pgSmk Reg.smkDropCount = min (2 ^ 32 - 1) (s.rd pgSmk Reg.smkDropCount + 1) ∧
      bitAt (t.rd pgSmk Reg.intRaw) Reg.causeSmkDrop = true
    (s.smoke.groups = [] → exec .smkGroupDeliver s = .next s) ∧
    (∀ g l, s.smoke.groups = g :: l →
      (s.traceDest = 1 → s.hostLinkUp = false → exec .smkGroupDeliver s = .next s) ∧
      (s.traceDest = 1 → s.hostLinkUp = true → s.ringSlots ≠ 0 → g.length ≤ s.ringRoom → Gives .smkGroupDeliver s (fun t =>
        t.smoke.groups = l ∧ t.smoke.lost = false ∧ t.rd pgSmk Reg.smkStatePend = l.length % 8 ∧ ring t g)) ∧
      (s.traceDest = 1 → s.hostLinkUp = true → s.ringSlots = 0 ∨ s.ringRoom < g.length → Gives .smkGroupDeliver s (fun t =>
        t.smoke.groups = l ∧ dropped t)) ∧
      (s.traceDest = 2 → s.pstate ≠ 5 → s.flag pgSmk Reg.smkStateFlushing = false →
        (∀ r, s.traceRegion (s.rd pgSmk Reg.smkHregRegion) = some r → r.base % 8 = 0 →
          let next := s.rd pgSmk Reg.smkHptrNext
          next + g.length ≤ r.len / 64 → (∀ b ∈ g, b.length = 64) → Gives .smkGroupDeliver s (fun t =>
            t.smoke.groups = l ∧ t.hashes = s.hashes ∧ t.rd pgSmk Reg.smkHptrNext = (next + g.length) % 2 ^ 24 ∧
            (∀ i, i < g.length → t.bytesAt (r.base + 64 * (next + i)) 64 = g.getD i []) ∧
            ∀ a, a < r.base + 64 * next ∨ r.base + 64 * (next + g.length) ≤ a → t.byteAt a = s.byteAt a)) ∧
        (s.traceRegion (s.rd pgSmk Reg.smkHregRegion) = none → Gives .smkGroupDeliver s (fun t => t.smoke.groups = l ∧ dropped t ∧
          bitAt (t.rd pgSmk Reg.intRaw) Reg.causeSmkHregBad = true)))) ∧
    (s.ringSlots = 0 ∨ s.flag pgSmk Reg.smkStateFlushing = true → Gives .smkFlush s (fun t => t.smoke = s.smoke ∧
      t.flag pgSmk Reg.smkStateFlushing = s.flag pgSmk Reg.smkStateFlushing ∧
      (s.flag pgSmk Reg.errValid = false → t.rd pgSmk Reg.errCode = 3))) ∧
    (s.ringSlots ≠ 0 → s.flag pgSmk Reg.smkStateFlushing = false →
      (s.regionGroups = [] → Gives .smkFlush s (fun t => t.flag pgSmk Reg.smkStateFlushing = false ∧ t.smoke.flush = [] ∧
        bitAt (t.rd pgSmk Reg.intRaw) Reg.causeSmkFlushDone = true)) ∧
      (∀ g, s.regionGroups = [g] → s.hostLinkUp = true → g.length ≤ s.ringRoom → (∀ k ∈ g, (s.slotBytes k).2 = []) → Gives .smkFlush s (fun t =>
        t.flag pgSmk Reg.smkStateFlushing = false ∧ t.mem = s.mem ∧ ring t (g.map (fun k => (s.slotBytes k).1)) ∧
        bitAt (t.rd pgSmk Reg.intRaw) Reg.causeSmkFlushDone = true))) ∧
    ∀ pg : BitVec 12, (smkcInsts.contains pg.toNat = true → Gives (.smkCounterClr pg) s (fun t =>
        (∀ k, k < 8 → t.rd (pgSmkc pg.toNat) (Reg.smkCnt k) = 0) ∧
        (∀ p f, p ≠ pgSmkc pg.toNat → f.bit < 32768 → t.rd p f = s.rd p f) ∧ t.out = s.out)) ∧
      (smkcInsts.contains pg.toNat = false → exec (.smkCounterClr pg) s = .next s)

/-- I3C frames, firmware recovery and the test access port. While the target answers, I3C_ADDRESS_ASSIGN to its static address
or by ENTDAA sets the dynamic address. A frame before then changes nothing; one whose CRC is wrong is answered 4 and does
nothing else. EVENT_READ answers the oldest event with its DROPPED count and removes it, or an empty payload; LEGACY_READ
answers the value of the legacy page. After a failed bring-up REC_BEGIN zeroes the buffer in the lowest partition that
passes and answers 3 when none does, REC_DATA places its bytes at the next offset and refuses another, REC_COMMIT puts an
image that is valid into FWA and leaves flash otherwise; with no failed bring-up all three answer 3. TAP_BYPASS and
TAP_IDCODE always act and shift out the IDCODE; the others act only while RESET_N is low. (R718, R719, R720, R737, R738,
R739, R740, R741, R83) -/
def Obligations.BoardFramesAndTheTestPort : Prop :=
  ∀ s : State,
    (∀ st (a : BitVec 7), let ok := s.i3cUp = true ∧ (st = none ∨ st = some 0x4C)
      (ok → exec (.i3cAddressAssign st a) s = .next { s with mod := { s.mod with dynAddr := some a.toNat } }) ∧
      (¬ ok → exec (.i3cAddressAssign st a) s = .next s)) ∧
    (∀ (p : List Byte) crc passing,
      ∀ e ∈ [(Instr.eventRead p crc, 0x01), (.legacyRead p crc, 0x02), (.recBegin p crc passing, 0x10), (.recData p crc, 0x11),
          (.recCommit p crc, 0x12)],
        (s.i3cUp = false → exec e.1 s = .next s) ∧
        (s.i3cUp = true → frameCrc e.2 0 p ≠ crc.toNat → Gives e.1 s (fun t => Replied t e.2 4 [] ∧ t.mem = s.mem ∧
          t.flash = s.flash ∧ t.mod.events = s.mod.events)) ∧
        (s.i3cUp = true → frameCrc e.2 0 p = crc.toNat → 0x10 ≤ e.2 → s.boot.failed = false → Gives e.1 s (fun t =>
          Replied t e.2 3 [] ∧ t.mem = s.mem ∧ t.flash = s.flash))) ∧
    (s.i3cUp = true →
      (∀ crc, frameCrc 0x01 0 [] = crc.toNat →
        (∀ e l, s.mod.events = e :: l → Gives (.eventRead [] crc) s (fun t => t.mod.events = l ∧ t.mod.dropped = 0 ∧
          Replied t 0x01 0 (e.set 1 (BitVec.ofNat 8 s.mod.dropped)))) ∧
        (s.mod.events = [] → Gives (.eventRead [] crc) s (fun t => t.mod.events = [] ∧ Replied t 0x01 0 []))) ∧
      (∀ (p : List Byte) crc, frameCrc 0x02 0 p = crc.toNat → p.length = 2 → Gives (.legacyRead p crc) s (fun t =>
        Replied t 0x02 0 (leBytes 4 (s.legacy (leNat p))) ∧ t.regs = s.regs)) ∧
      (s.boot.failed = true →
        (∀ (p : List Byte) crc, frameCrc 0x10 0 p = crc.toNat → p.length = 4 → leNat p ≤ 2 ^ 23 + 320 →
          (∀ (n : Fin 8) l, (∀ k ∈ l, n ≤ k) → Gives (.recBegin p crc (n :: l)) s (fun t => Replied t 0x10 0 [] ∧
            t.mod.recovery = some { part := n.val, len := leNat p, got := 0 } ∧
            (∀ a, recBase n.val ≤ a → a < recBase n.val + recBytes → t.byteAt a = 0 ∧ t.badAt a = false) ∧
            ∀ a, a < recBase n.val ∨ recBase n.val + recBytes ≤ a → t.byteAt a = s.byteAt a ∧ t.badAt a = s.badAt a)) ∧
          Gives (.recBegin p crc []) s (fun t => Replied t 0x10 3 [] ∧ t.mem = s.mem ∧ t.mod.recovery = s.mod.recovery)) ∧
        (∀ r off (data : List Byte) crc, s.mod.recovery = some r → off < 2 ^ 32 → data.length ≤ 1016 →
          frameCrc 0x11 0 (leBytes 4 off ++ data) = crc.toNat → r.got + data.length ≤ r.len →
          (off = r.got → Gives (.recData (leBytes 4 off ++ data) crc) s (fun t => Replied t 0x11 0 [] ∧
            t.mod.recovery = some { r with got := r.got + data.length } ∧
            (∀ i, i < data.length → t.byteAt (recBase r.part + r.got + i) = data.getD i 0) ∧
            ∀ a, a < recBase r.part + r.got ∨ recBase r.part + r.got + data.length ≤ a → t.byteAt a = s.byteAt a)) ∧
          (off ≠ r.got → Gives (.recData (leBytes 4 off ++ data) crc) s (fun t => Replied t 0x11 2 [] ∧ t.mem = s.mem))) ∧
        (∀ r crc, s.mod.recovery = some r → frameCrc 0x12 0 [] = crc.toNat → 0 < s.flash.slots.length →
          let img := s.bytesAt (recBase r.part) r.len
          Gives (.recCommit [] crc) s (fun t => (imgValid s.fuses 0 img = true → Replied t 0x12 0 [] ∧ t.slot 0 = img) ∧
            (imgValid s.fuses 0 img = false → Replied t 0x12 5 [] ∧ t.flash = s.flash) ∧ ∀ k, k ≠ 0 → t.slot k = s.slot k)))) ∧
    exec .tapBypass s = .next { s with mod := { s.mod with tap := .bypass } } ∧
    Gives .tapIdcode s (fun t => t.mod.tap = .idcode ∧
      t.out = s.out ++ [.tdo (2 * 2 ^ 28 + 0x0C44 * 2 ^ 12 + Config.jedec.toNat * 2 + 1) 32]) ∧
    ∀ pins pre, (s.mod.resetN = true → ∀ c ∈ [Instr.tapSamplePreload pins pre, .tapExtest, .tapClamp, .tapHighz],
        exec c s = .next s) ∧
      (s.mod.resetN = false →
        Gives (.tapSamplePreload pins pre) s (fun t => t.mod.tap = .sample ∧ t.mod.boundary = bitsNat pre ∧
          t.out = s.out ++ [.tdo (bitsNat pins) pins.length]) ∧
        Gives .tapExtest s (fun t => t.mod.tap = .extest ∧ t.out = s.out ++ [.pulse "boundary drive" s.mod.boundary]) ∧
        Gives .tapClamp s (fun t => t.mod.tap = .clamp ∧ t.out = s.out ++ [.pulse "boundary drive" s.mod.boundary]) ∧
        Gives .tapHighz s (fun t => t.mod.tap = .highz ∧ t.out = s.out ++ [.pulse "boundary float" 0]))
end

