-- ==== Sys2Proof/Laws/Sparse.lean ====
section
/-! SUPPORT. Sparse maps: a read after a write, and the canonical form that every write keeps. -/
namespace Sys2Proof.SMap

variable {α : Type}

/-! ## A read after a write -/

@[simp] theorem find_ins_same (m : SMap α) (k : Nat) (v : α) : find (ins m k v) k = some v := by
  induction m with
  | nil => simp [ins, find]
  | cons e m ih =>
    obtain ⟨k', v'⟩ := e
    unfold ins
    split
    · simp [find]
    · split
      · simp [find]
      · simp [find, *]

theorem find_ins_ne (m : SMap α) (k j : Nat) (v : α) (h : j ≠ k) : find (ins m k v) j = find m j := by
  induction m with
  | nil => simp [ins, find, h]
  | cons e m ih =>
    obtain ⟨k', v'⟩ := e
    unfold ins
    split
    · simp [find, h]
    · split
      · subst_vars; simp [find, h]
      · simp [find, ih]

@[simp] theorem find_del_same (m : SMap α) (k : Nat) : find (del m k) k = none := by
  induction m with
  | nil => simp [del, find]
  | cons e m ih =>
    obtain ⟨k', v'⟩ := e
    unfold del
    split
    · exact ih
    · simp [find, *]

theorem find_del_ne (m : SMap α) (k j : Nat) (h : j ≠ k) : find (del m k) j = find m j := by
  induction m with
  | nil => simp [del]
  | cons e m ih =>
    obtain ⟨k', v'⟩ := e
    unfold del
    split
    · subst_vars; simp [find, ih, h]
    · simp [find, ih]

variable [DecidableEq α]

@[simp] theorem getD_setD_same (m : SMap α) (k : Nat) (d v : α) : getD (setD m k d v) k d = v := by
  unfold setD getD
  split <;> simp_all

theorem getD_setD_ne (m : SMap α) (k j : Nat) (d v e : α) (h : j ≠ k) : getD (setD m k d v) j e = getD m j e := by
  unfold setD getD
  split
  · rw [find_del_ne m k j h]
  · rw [find_ins_ne m k j v h]

theorem getD_setD (m : SMap α) (k j : Nat) (d v : α) : getD (setD m k d v) j d = if j = k then v else getD m j d := by
  split
  · subst_vars; exact getD_setD_same m _ d v
  · exact getD_setD_ne m k j d v d ‹_›

@[simp] theorem getD_modD_same (m : SMap α) (k : Nat) (d : α) (f : α → α) : getD (modD m k d f) k d = f (getD m k d) :=
  getD_setD_same m k d _

theorem getD_modD_ne (m : SMap α) (k j : Nat) (d e : α) (f : α → α) (h : j ≠ k) : getD (modD m k d f) j e = getD m j e :=
  getD_setD_ne m k j d _ e h

/-! ## The canonical form -/

omit [DecidableEq α] in
theorem rising_mono {b c : Nat} (h : b ≤ c) (m : SMap α) (r : rising c m = true) : rising b m = true := by
  cases m with
  | nil => rfl
  | cons e m =>
    simp only [rising, Bool.and_eq_true, decide_eq_true_eq] at r ⊢
    exact ⟨by omega, r.2⟩

omit [DecidableEq α] in
theorem rising_ins (m : SMap α) (k : Nat) (v : α) (b : Nat) (hb : b ≤ k) (r : rising b m = true) : rising b (ins m k v) = true := by
  induction m generalizing b with
  | nil => simp [ins, rising, hb]
  | cons e m ih =>
    obtain ⟨k', v'⟩ := e
    simp only [rising, Bool.and_eq_true, decide_eq_true_eq] at r
    unfold ins
    split
    · simp only [rising, Bool.and_eq_true, decide_eq_true_eq]
      exact ⟨hb, by omega, r.2⟩
    · split
      · subst_vars; simp [rising, r]
      · simp [rising, r.1, ih (k' + 1) (by omega) r.2]

omit [DecidableEq α] in
theorem rising_del (m : SMap α) (k b : Nat) (r : rising b m = true) : rising b (del m k) = true := by
  induction m generalizing b with
  | nil => rfl
  | cons e m ih =>
    obtain ⟨k', v'⟩ := e
    simp only [rising, Bool.and_eq_true, decide_eq_true_eq] at r
    unfold del
    split
    · exact ih b (rising_mono (by omega) m r.2)
    · simp [rising, r.1, ih (k' + 1) r.2]

omit [DecidableEq α] in
theorem rising_filter (m : SMap α) (q : Nat × α → Bool) (b : Nat) (r : rising b m = true) : rising b (m.filter q) = true := by
  induction m generalizing b with
  | nil => rfl
  | cons e m ih =>
    obtain ⟨k', v'⟩ := e
    simp only [rising, Bool.and_eq_true, decide_eq_true_eq] at r
    rw [List.filter_cons]
    split
    · simp [rising, r.1, ih (k' + 1) r.2]
    · exact ih b (rising_mono (by omega) m r.2)

omit [DecidableEq α] in
theorem mem_ins (m : SMap α) (k : Nat) (v : α) (e : Nat × α) (h : e ∈ ins m k v) : e = (k, v) ∨ e ∈ m := by
  induction m with
  | nil => simpa [ins] using h
  | cons x m ih =>
    obtain ⟨k', v'⟩ := x
    unfold ins at h
    split at h
    · simp at h ⊢; exact h
    · split at h
      · simp at h ⊢
        exact h.imp id .inr
      · simp at h ⊢
        rcases h with h | h
        · exact .inr (.inl h)
        · exact (ih h).imp id .inr

omit [DecidableEq α] in
theorem mem_del (m : SMap α) (k : Nat) (e : Nat × α) (h : e ∈ del m k) : e ∈ m := by
  induction m with
  | nil => simp [del] at h
  | cons x m ih =>
    obtain ⟨k', v'⟩ := x
    unfold del at h
    split at h
    · exact List.mem_cons_of_mem _ (ih h)
    · simp at h ⊢
      rcases h with h | h
      · exact .inl h
      · exact .inr (ih h)

/-- A write keeps the canonical form. -/
theorem wf_setD (m : SMap α) (k : Nat) (d v : α) (h : wf d m = true) : wf d (setD m k d v) = true := by
  simp only [wf, Bool.and_eq_true, List.all_eq_true, decide_eq_true_eq] at h ⊢
  unfold setD
  split
  · exact ⟨rising_del m k 0 h.1, fun e he => h.2 e (mem_del m k e he)⟩
  · refine ⟨rising_ins m k v 0 (Nat.zero_le k) h.1, fun e he => ?_⟩
    rcases mem_ins m k v e he with rfl | he
    · assumption
    · exact h.2 e he

theorem wf_modD (m : SMap α) (k : Nat) (d : α) (f : α → α) (h : wf d m = true) : wf d (modD m k d f) = true :=
  wf_setD m k d _ h

/-- Leaving entries out keeps the canonical form. -/
theorem wf_filter (m : SMap α) (d : α) (q : Nat × α → Bool) (h : wf d m = true) : wf d (m.filter q) = true := by
  simp only [wf, Bool.and_eq_true, List.all_eq_true, decide_eq_true_eq] at h ⊢
  exact ⟨rising_filter m q 0 h.1, fun e he => h.2 e (List.mem_filter.mp he).1⟩

theorem wf_nil (d : α) : wf d ([] : SMap α) = true := rfl

end Sys2Proof.SMap
end

