-- ==== Sys2Proof/Laws/State.lean ====
section
/-! SUPPORT. What each basic update of State leaves in each field, so that no proof unfolds a record update. -/
namespace Sys2Proof.Machine

variable (s : State) (p : Page) (f : Fld) (v a : Nat) (o : Output) (b : Byte) (c : Bool) (ft : Tile → Tile)
variable (fStoke : StokeUnit → StokeUnit) (fPair : Pair → Pair) (fPlans : Plans → Plans) (fFeed : Feed → Feed) (fFlues : Flues → Flues)
variable (fMod : Module → Module) (fBoot : Boot → Boot) (fPower : Power → Power) (fTherm : Thermal → Thermal) (fSec : Security → Security)
variable (fSmoke : Smoke → Smoke)

/-! ## State.wr -/

@[simp] theorem State.wr_pending : (s.wr p f v).pending = s.pending := rfl
@[simp] theorem State.wr_out : (s.wr p f v).out = s.out := rfl
@[simp] theorem State.wr_fresh : (s.wr p f v).fresh = s.fresh := rfl
@[simp] theorem State.wr_regs : (s.wr p f v).regs = SMap.setD s.regs (regKey p f) f.rst (v % 2 ^ f.width) := rfl
@[simp] theorem State.wr_shadow : (s.wr p f v).shadow = s.shadow := rfl
@[simp] theorem State.wr_latches : (s.wr p f v).latches = s.latches := rfl
@[simp] theorem State.wr_heldLo : (s.wr p f v).heldLo = s.heldLo := rfl
@[simp] theorem State.wr_msixTable : (s.wr p f v).msixTable = s.msixTable := rfl
@[simp] theorem State.wr_msixPend : (s.wr p f v).msixPend = s.msixPend := rfl
@[simp] theorem State.wr_msixOn : (s.wr p f v).msixOn = s.msixOn := rfl
@[simp] theorem State.wr_msixMask : (s.wr p f v).msixMask = s.msixMask := rfl
@[simp] theorem State.wr_stoke : (s.wr p f v).stoke = s.stoke := rfl
@[simp] theorem State.wr_tiles : (s.wr p f v).tiles = s.tiles := rfl
@[simp] theorem State.wr_mem : (s.wr p f v).mem = s.mem := rfl
@[simp] theorem State.wr_memBad : (s.wr p f v).memBad = s.memBad := rfl
@[simp] theorem State.wr_vague : (s.wr p f v).vague = s.vague := rfl
@[simp] theorem State.wr_firstAt : (s.wr p f v).firstAt = s.firstAt := rfl
@[simp] theorem State.wr_plans : (s.wr p f v).plans = s.plans := rfl
@[simp] theorem State.wr_hashes : (s.wr p f v).hashes = s.hashes := rfl
@[simp] theorem State.wr_frozen : (s.wr p f v).frozen = s.frozen := rfl
@[simp] theorem State.wr_hub : (s.wr p f v).hub = s.hub := rfl
@[simp] theorem State.wr_flues : (s.wr p f v).flues = s.flues := rfl
@[simp] theorem State.wr_record : (s.wr p f v).record = s.record := rfl
@[simp] theorem State.wr_pair : (s.wr p f v).pair = s.pair := rfl
@[simp] theorem State.wr_feed : (s.wr p f v).feed = s.feed := rfl
@[simp] theorem State.wr_flash : (s.wr p f v).flash = s.flash := rfl
@[simp] theorem State.wr_fuses : (s.wr p f v).fuses = s.fuses := rfl
@[simp] theorem State.wr_mod : (s.wr p f v).mod = s.mod := rfl
@[simp] theorem State.wr_boot : (s.wr p f v).boot = s.boot := rfl
@[simp] theorem State.wr_power : (s.wr p f v).power = s.power := rfl
@[simp] theorem State.wr_therm : (s.wr p f v).therm = s.therm := rfl
@[simp] theorem State.wr_sec : (s.wr p f v).sec = s.sec := rfl
@[simp] theorem State.wr_smoke : (s.wr p f v).smoke = s.smoke := rfl

/-! ## State.emit -/

@[simp] theorem State.emit_pending : (s.emit o).pending = s.pending := rfl
@[simp] theorem State.emit_out : (s.emit o).out = s.out ++ [o] := rfl
@[simp] theorem State.emit_fresh : (s.emit o).fresh = s.fresh := rfl
@[simp] theorem State.emit_regs : (s.emit o).regs = s.regs := rfl
@[simp] theorem State.emit_shadow : (s.emit o).shadow = s.shadow := rfl
@[simp] theorem State.emit_latches : (s.emit o).latches = s.latches := rfl
@[simp] theorem State.emit_heldLo : (s.emit o).heldLo = s.heldLo := rfl
@[simp] theorem State.emit_msixTable : (s.emit o).msixTable = s.msixTable := rfl
@[simp] theorem State.emit_msixPend : (s.emit o).msixPend = s.msixPend := rfl
@[simp] theorem State.emit_msixOn : (s.emit o).msixOn = s.msixOn := rfl
@[simp] theorem State.emit_msixMask : (s.emit o).msixMask = s.msixMask := rfl
@[simp] theorem State.emit_stoke : (s.emit o).stoke = s.stoke := rfl
@[simp] theorem State.emit_tiles : (s.emit o).tiles = s.tiles := rfl
@[simp] theorem State.emit_mem : (s.emit o).mem = s.mem := rfl
@[simp] theorem State.emit_memBad : (s.emit o).memBad = s.memBad := rfl
@[simp] theorem State.emit_vague : (s.emit o).vague = s.vague := rfl
@[simp] theorem State.emit_firstAt : (s.emit o).firstAt = s.firstAt := rfl
@[simp] theorem State.emit_plans : (s.emit o).plans = s.plans := rfl
@[simp] theorem State.emit_hashes : (s.emit o).hashes = s.hashes := rfl
@[simp] theorem State.emit_frozen : (s.emit o).frozen = s.frozen := rfl
@[simp] theorem State.emit_hub : (s.emit o).hub = s.hub := rfl
@[simp] theorem State.emit_flues : (s.emit o).flues = s.flues := rfl
@[simp] theorem State.emit_record : (s.emit o).record = s.record := rfl
@[simp] theorem State.emit_pair : (s.emit o).pair = s.pair := rfl
@[simp] theorem State.emit_feed : (s.emit o).feed = s.feed := rfl
@[simp] theorem State.emit_flash : (s.emit o).flash = s.flash := rfl
@[simp] theorem State.emit_fuses : (s.emit o).fuses = s.fuses := rfl
@[simp] theorem State.emit_mod : (s.emit o).mod = s.mod := rfl
@[simp] theorem State.emit_boot : (s.emit o).boot = s.boot := rfl
@[simp] theorem State.emit_power : (s.emit o).power = s.power := rfl
@[simp] theorem State.emit_therm : (s.emit o).therm = s.therm := rfl
@[simp] theorem State.emit_sec : (s.emit o).sec = s.sec := rfl
@[simp] theorem State.emit_smoke : (s.emit o).smoke = s.smoke := rfl

/-! ## State.tookFree -/

@[simp] theorem State.tookFree_pending : s.tookFree.pending = s.pending := rfl
@[simp] theorem State.tookFree_out : s.tookFree.out = s.out := rfl
@[simp] theorem State.tookFree_fresh : s.tookFree.fresh = s.fresh + 1 := rfl
@[simp] theorem State.tookFree_regs : s.tookFree.regs = s.regs := rfl
@[simp] theorem State.tookFree_shadow : s.tookFree.shadow = s.shadow := rfl
@[simp] theorem State.tookFree_latches : s.tookFree.latches = s.latches := rfl
@[simp] theorem State.tookFree_heldLo : s.tookFree.heldLo = s.heldLo := rfl
@[simp] theorem State.tookFree_msixTable : s.tookFree.msixTable = s.msixTable := rfl
@[simp] theorem State.tookFree_msixPend : s.tookFree.msixPend = s.msixPend := rfl
@[simp] theorem State.tookFree_msixOn : s.tookFree.msixOn = s.msixOn := rfl
@[simp] theorem State.tookFree_msixMask : s.tookFree.msixMask = s.msixMask := rfl
@[simp] theorem State.tookFree_stoke : s.tookFree.stoke = s.stoke := rfl
@[simp] theorem State.tookFree_tiles : s.tookFree.tiles = s.tiles := rfl
@[simp] theorem State.tookFree_mem : s.tookFree.mem = s.mem := rfl
@[simp] theorem State.tookFree_memBad : s.tookFree.memBad = s.memBad := rfl
@[simp] theorem State.tookFree_vague : s.tookFree.vague = s.vague := rfl
@[simp] theorem State.tookFree_firstAt : s.tookFree.firstAt = s.firstAt := rfl
@[simp] theorem State.tookFree_plans : s.tookFree.plans = s.plans := rfl
@[simp] theorem State.tookFree_hashes : s.tookFree.hashes = s.hashes := rfl
@[simp] theorem State.tookFree_frozen : s.tookFree.frozen = s.frozen := rfl
@[simp] theorem State.tookFree_hub : s.tookFree.hub = s.hub := rfl
@[simp] theorem State.tookFree_flues : s.tookFree.flues = s.flues := rfl
@[simp] theorem State.tookFree_record : s.tookFree.record = s.record := rfl
@[simp] theorem State.tookFree_pair : s.tookFree.pair = s.pair := rfl
@[simp] theorem State.tookFree_feed : s.tookFree.feed = s.feed := rfl
@[simp] theorem State.tookFree_flash : s.tookFree.flash = s.flash := rfl
@[simp] theorem State.tookFree_fuses : s.tookFree.fuses = s.fuses := rfl
@[simp] theorem State.tookFree_mod : s.tookFree.mod = s.mod := rfl
@[simp] theorem State.tookFree_boot : s.tookFree.boot = s.boot := rfl
@[simp] theorem State.tookFree_power : s.tookFree.power = s.power := rfl
@[simp] theorem State.tookFree_therm : s.tookFree.therm = s.therm := rfl
@[simp] theorem State.tookFree_sec : s.tookFree.sec = s.sec := rfl
@[simp] theorem State.tookFree_smoke : s.tookFree.smoke = s.smoke := rfl

/-! ## State.setByte -/

@[simp] theorem State.setByte_pending : (s.setByte a b).pending = s.pending := rfl
@[simp] theorem State.setByte_out : (s.setByte a b).out = s.out := rfl
@[simp] theorem State.setByte_fresh : (s.setByte a b).fresh = s.fresh := rfl
@[simp] theorem State.setByte_regs : (s.setByte a b).regs = s.regs := rfl
@[simp] theorem State.setByte_shadow : (s.setByte a b).shadow = s.shadow := rfl
@[simp] theorem State.setByte_latches : (s.setByte a b).latches = s.latches := rfl
@[simp] theorem State.setByte_heldLo : (s.setByte a b).heldLo = s.heldLo := rfl
@[simp] theorem State.setByte_msixTable : (s.setByte a b).msixTable = s.msixTable := rfl
@[simp] theorem State.setByte_msixPend : (s.setByte a b).msixPend = s.msixPend := rfl
@[simp] theorem State.setByte_msixOn : (s.setByte a b).msixOn = s.msixOn := rfl
@[simp] theorem State.setByte_msixMask : (s.setByte a b).msixMask = s.msixMask := rfl
@[simp] theorem State.setByte_stoke : (s.setByte a b).stoke = s.stoke := rfl
@[simp] theorem State.setByte_tiles : (s.setByte a b).tiles = s.tiles := rfl
@[simp] theorem State.setByte_mem : (s.setByte a b).mem = SMap.setD s.mem a 0 b := rfl
@[simp] theorem State.setByte_memBad : (s.setByte a b).memBad = s.memBad := rfl
@[simp] theorem State.setByte_vague : (s.setByte a b).vague = s.vague.define a := rfl
@[simp] theorem State.setByte_firstAt : (s.setByte a b).firstAt = s.firstAt := rfl
@[simp] theorem State.setByte_plans : (s.setByte a b).plans = s.plans := rfl
@[simp] theorem State.setByte_hashes : (s.setByte a b).hashes = s.hashes := rfl
@[simp] theorem State.setByte_frozen : (s.setByte a b).frozen = s.frozen := rfl
@[simp] theorem State.setByte_hub : (s.setByte a b).hub = s.hub := rfl
@[simp] theorem State.setByte_flues : (s.setByte a b).flues = s.flues := rfl
@[simp] theorem State.setByte_record : (s.setByte a b).record = s.record := rfl
@[simp] theorem State.setByte_pair : (s.setByte a b).pair = s.pair := rfl
@[simp] theorem State.setByte_feed : (s.setByte a b).feed = s.feed := rfl
@[simp] theorem State.setByte_flash : (s.setByte a b).flash = s.flash := rfl
@[simp] theorem State.setByte_fuses : (s.setByte a b).fuses = s.fuses := rfl
@[simp] theorem State.setByte_mod : (s.setByte a b).mod = s.mod := rfl
@[simp] theorem State.setByte_boot : (s.setByte a b).boot = s.boot := rfl
@[simp] theorem State.setByte_power : (s.setByte a b).power = s.power := rfl
@[simp] theorem State.setByte_therm : (s.setByte a b).therm = s.therm := rfl
@[simp] theorem State.setByte_sec : (s.setByte a b).sec = s.sec := rfl
@[simp] theorem State.setByte_smoke : (s.setByte a b).smoke = s.smoke := rfl

/-! ## State.setBad -/

@[simp] theorem State.setBad_pending : (s.setBad a c).pending = s.pending := rfl
@[simp] theorem State.setBad_out : (s.setBad a c).out = s.out := rfl
@[simp] theorem State.setBad_fresh : (s.setBad a c).fresh = s.fresh := rfl
@[simp] theorem State.setBad_regs : (s.setBad a c).regs = s.regs := rfl
@[simp] theorem State.setBad_shadow : (s.setBad a c).shadow = s.shadow := rfl
@[simp] theorem State.setBad_latches : (s.setBad a c).latches = s.latches := rfl
@[simp] theorem State.setBad_heldLo : (s.setBad a c).heldLo = s.heldLo := rfl
@[simp] theorem State.setBad_msixTable : (s.setBad a c).msixTable = s.msixTable := rfl
@[simp] theorem State.setBad_msixPend : (s.setBad a c).msixPend = s.msixPend := rfl
@[simp] theorem State.setBad_msixOn : (s.setBad a c).msixOn = s.msixOn := rfl
@[simp] theorem State.setBad_msixMask : (s.setBad a c).msixMask = s.msixMask := rfl
@[simp] theorem State.setBad_stoke : (s.setBad a c).stoke = s.stoke := rfl
@[simp] theorem State.setBad_tiles : (s.setBad a c).tiles = s.tiles := rfl
@[simp] theorem State.setBad_mem : (s.setBad a c).mem = s.mem := rfl
@[simp] theorem State.setBad_memBad : (s.setBad a c).memBad = SMap.setD s.memBad a false c := rfl
@[simp] theorem State.setBad_vague : (s.setBad a c).vague = s.vague := rfl
@[simp] theorem State.setBad_firstAt : (s.setBad a c).firstAt = s.firstAt := rfl
@[simp] theorem State.setBad_plans : (s.setBad a c).plans = s.plans := rfl
@[simp] theorem State.setBad_hashes : (s.setBad a c).hashes = s.hashes := rfl
@[simp] theorem State.setBad_frozen : (s.setBad a c).frozen = s.frozen := rfl
@[simp] theorem State.setBad_hub : (s.setBad a c).hub = s.hub := rfl
@[simp] theorem State.setBad_flues : (s.setBad a c).flues = s.flues := rfl
@[simp] theorem State.setBad_record : (s.setBad a c).record = s.record := rfl
@[simp] theorem State.setBad_pair : (s.setBad a c).pair = s.pair := rfl
@[simp] theorem State.setBad_feed : (s.setBad a c).feed = s.feed := rfl
@[simp] theorem State.setBad_flash : (s.setBad a c).flash = s.flash := rfl
@[simp] theorem State.setBad_fuses : (s.setBad a c).fuses = s.fuses := rfl
@[simp] theorem State.setBad_mod : (s.setBad a c).mod = s.mod := rfl
@[simp] theorem State.setBad_boot : (s.setBad a c).boot = s.boot := rfl
@[simp] theorem State.setBad_power : (s.setBad a c).power = s.power := rfl
@[simp] theorem State.setBad_therm : (s.setBad a c).therm = s.therm := rfl
@[simp] theorem State.setBad_sec : (s.setBad a c).sec = s.sec := rfl
@[simp] theorem State.setBad_smoke : (s.setBad a c).smoke = s.smoke := rfl

/-! ## State.addHash -/

@[simp] theorem State.addHash_pending : (s.addHash a v).pending = s.pending := rfl
@[simp] theorem State.addHash_out : (s.addHash a v).out = s.out := rfl
@[simp] theorem State.addHash_fresh : (s.addHash a v).fresh = s.fresh := rfl
@[simp] theorem State.addHash_regs : (s.addHash a v).regs = s.regs := rfl
@[simp] theorem State.addHash_shadow : (s.addHash a v).shadow = s.shadow := rfl
@[simp] theorem State.addHash_latches : (s.addHash a v).latches = s.latches := rfl
@[simp] theorem State.addHash_heldLo : (s.addHash a v).heldLo = s.heldLo := rfl
@[simp] theorem State.addHash_msixTable : (s.addHash a v).msixTable = s.msixTable := rfl
@[simp] theorem State.addHash_msixPend : (s.addHash a v).msixPend = s.msixPend := rfl
@[simp] theorem State.addHash_msixOn : (s.addHash a v).msixOn = s.msixOn := rfl
@[simp] theorem State.addHash_msixMask : (s.addHash a v).msixMask = s.msixMask := rfl
@[simp] theorem State.addHash_stoke : (s.addHash a v).stoke = s.stoke := rfl
@[simp] theorem State.addHash_tiles : (s.addHash a v).tiles = s.tiles := rfl
@[simp] theorem State.addHash_mem : (s.addHash a v).mem = s.mem := rfl
@[simp] theorem State.addHash_memBad : (s.addHash a v).memBad = s.memBad := rfl
@[simp] theorem State.addHash_vague : (s.addHash a v).vague = s.vague := rfl
@[simp] theorem State.addHash_firstAt : (s.addHash a v).firstAt = s.firstAt := rfl
@[simp] theorem State.addHash_plans : (s.addHash a v).plans = s.plans := rfl
@[simp] theorem State.addHash_hashes : (s.addHash a v).hashes = SMap.modD s.hashes a 0 (fun x => (x + v) % hashMod) := rfl
@[simp] theorem State.addHash_frozen : (s.addHash a v).frozen = s.frozen := rfl
@[simp] theorem State.addHash_hub : (s.addHash a v).hub = s.hub := rfl
@[simp] theorem State.addHash_flues : (s.addHash a v).flues = s.flues := rfl
@[simp] theorem State.addHash_record : (s.addHash a v).record = s.record := rfl
@[simp] theorem State.addHash_pair : (s.addHash a v).pair = s.pair := rfl
@[simp] theorem State.addHash_feed : (s.addHash a v).feed = s.feed := rfl
@[simp] theorem State.addHash_flash : (s.addHash a v).flash = s.flash := rfl
@[simp] theorem State.addHash_fuses : (s.addHash a v).fuses = s.fuses := rfl
@[simp] theorem State.addHash_mod : (s.addHash a v).mod = s.mod := rfl
@[simp] theorem State.addHash_boot : (s.addHash a v).boot = s.boot := rfl
@[simp] theorem State.addHash_power : (s.addHash a v).power = s.power := rfl
@[simp] theorem State.addHash_therm : (s.addHash a v).therm = s.therm := rfl
@[simp] theorem State.addHash_sec : (s.addHash a v).sec = s.sec := rfl
@[simp] theorem State.addHash_smoke : (s.addHash a v).smoke = s.smoke := rfl

/-! ## State.updTile -/

@[simp] theorem State.updTile_pending : (s.updTile a ft).pending = s.pending := rfl
@[simp] theorem State.updTile_out : (s.updTile a ft).out = s.out := rfl
@[simp] theorem State.updTile_fresh : (s.updTile a ft).fresh = s.fresh := rfl
@[simp] theorem State.updTile_regs : (s.updTile a ft).regs = s.regs := rfl
@[simp] theorem State.updTile_shadow : (s.updTile a ft).shadow = s.shadow := rfl
@[simp] theorem State.updTile_latches : (s.updTile a ft).latches = s.latches := rfl
@[simp] theorem State.updTile_heldLo : (s.updTile a ft).heldLo = s.heldLo := rfl
@[simp] theorem State.updTile_msixTable : (s.updTile a ft).msixTable = s.msixTable := rfl
@[simp] theorem State.updTile_msixPend : (s.updTile a ft).msixPend = s.msixPend := rfl
@[simp] theorem State.updTile_msixOn : (s.updTile a ft).msixOn = s.msixOn := rfl
@[simp] theorem State.updTile_msixMask : (s.updTile a ft).msixMask = s.msixMask := rfl
@[simp] theorem State.updTile_stoke : (s.updTile a ft).stoke = s.stoke := rfl
@[simp] theorem State.updTile_tiles : (s.updTile a ft).tiles = SMap.modD s.tiles a Tile.empty ft := rfl
@[simp] theorem State.updTile_mem : (s.updTile a ft).mem = s.mem := rfl
@[simp] theorem State.updTile_memBad : (s.updTile a ft).memBad = s.memBad := rfl
@[simp] theorem State.updTile_vague : (s.updTile a ft).vague = s.vague := rfl
@[simp] theorem State.updTile_firstAt : (s.updTile a ft).firstAt = s.firstAt := rfl
@[simp] theorem State.updTile_plans : (s.updTile a ft).plans = s.plans := rfl
@[simp] theorem State.updTile_hashes : (s.updTile a ft).hashes = s.hashes := rfl
@[simp] theorem State.updTile_frozen : (s.updTile a ft).frozen = s.frozen := rfl
@[simp] theorem State.updTile_hub : (s.updTile a ft).hub = s.hub := rfl
@[simp] theorem State.updTile_flues : (s.updTile a ft).flues = s.flues := rfl
@[simp] theorem State.updTile_record : (s.updTile a ft).record = s.record := rfl
@[simp] theorem State.updTile_pair : (s.updTile a ft).pair = s.pair := rfl
@[simp] theorem State.updTile_feed : (s.updTile a ft).feed = s.feed := rfl
@[simp] theorem State.updTile_flash : (s.updTile a ft).flash = s.flash := rfl
@[simp] theorem State.updTile_fuses : (s.updTile a ft).fuses = s.fuses := rfl
@[simp] theorem State.updTile_mod : (s.updTile a ft).mod = s.mod := rfl
@[simp] theorem State.updTile_boot : (s.updTile a ft).boot = s.boot := rfl
@[simp] theorem State.updTile_power : (s.updTile a ft).power = s.power := rfl
@[simp] theorem State.updTile_therm : (s.updTile a ft).therm = s.therm := rfl
@[simp] theorem State.updTile_sec : (s.updTile a ft).sec = s.sec := rfl
@[simp] theorem State.updTile_smoke : (s.updTile a ft).smoke = s.smoke := rfl

/-! ## State.updStoke -/

@[simp] theorem State.updStoke_pending : (s.updStoke fStoke).pending = s.pending := rfl
@[simp] theorem State.updStoke_out : (s.updStoke fStoke).out = s.out := rfl
@[simp] theorem State.updStoke_fresh : (s.updStoke fStoke).fresh = s.fresh := rfl
@[simp] theorem State.updStoke_regs : (s.updStoke fStoke).regs = s.regs := rfl
@[simp] theorem State.updStoke_shadow : (s.updStoke fStoke).shadow = s.shadow := rfl
@[simp] theorem State.updStoke_latches : (s.updStoke fStoke).latches = s.latches := rfl
@[simp] theorem State.updStoke_heldLo : (s.updStoke fStoke).heldLo = s.heldLo := rfl
@[simp] theorem State.updStoke_msixTable : (s.updStoke fStoke).msixTable = s.msixTable := rfl
@[simp] theorem State.updStoke_msixPend : (s.updStoke fStoke).msixPend = s.msixPend := rfl
@[simp] theorem State.updStoke_msixOn : (s.updStoke fStoke).msixOn = s.msixOn := rfl
@[simp] theorem State.updStoke_msixMask : (s.updStoke fStoke).msixMask = s.msixMask := rfl
@[simp] theorem State.updStoke_stoke : (s.updStoke fStoke).stoke = fStoke s.stoke := rfl
@[simp] theorem State.updStoke_tiles : (s.updStoke fStoke).tiles = s.tiles := rfl
@[simp] theorem State.updStoke_mem : (s.updStoke fStoke).mem = s.mem := rfl
@[simp] theorem State.updStoke_memBad : (s.updStoke fStoke).memBad = s.memBad := rfl
@[simp] theorem State.updStoke_vague : (s.updStoke fStoke).vague = s.vague := rfl
@[simp] theorem State.updStoke_firstAt : (s.updStoke fStoke).firstAt = s.firstAt := rfl
@[simp] theorem State.updStoke_plans : (s.updStoke fStoke).plans = s.plans := rfl
@[simp] theorem State.updStoke_hashes : (s.updStoke fStoke).hashes = s.hashes := rfl
@[simp] theorem State.updStoke_frozen : (s.updStoke fStoke).frozen = s.frozen := rfl
@[simp] theorem State.updStoke_hub : (s.updStoke fStoke).hub = s.hub := rfl
@[simp] theorem State.updStoke_flues : (s.updStoke fStoke).flues = s.flues := rfl
@[simp] theorem State.updStoke_record : (s.updStoke fStoke).record = s.record := rfl
@[simp] theorem State.updStoke_pair : (s.updStoke fStoke).pair = s.pair := rfl
@[simp] theorem State.updStoke_feed : (s.updStoke fStoke).feed = s.feed := rfl
@[simp] theorem State.updStoke_flash : (s.updStoke fStoke).flash = s.flash := rfl
@[simp] theorem State.updStoke_fuses : (s.updStoke fStoke).fuses = s.fuses := rfl
@[simp] theorem State.updStoke_mod : (s.updStoke fStoke).mod = s.mod := rfl
@[simp] theorem State.updStoke_boot : (s.updStoke fStoke).boot = s.boot := rfl
@[simp] theorem State.updStoke_power : (s.updStoke fStoke).power = s.power := rfl
@[simp] theorem State.updStoke_therm : (s.updStoke fStoke).therm = s.therm := rfl
@[simp] theorem State.updStoke_sec : (s.updStoke fStoke).sec = s.sec := rfl
@[simp] theorem State.updStoke_smoke : (s.updStoke fStoke).smoke = s.smoke := rfl

/-! ## State.updPair -/

@[simp] theorem State.updPair_pending : (s.updPair fPair).pending = s.pending := rfl
@[simp] theorem State.updPair_out : (s.updPair fPair).out = s.out := rfl
@[simp] theorem State.updPair_fresh : (s.updPair fPair).fresh = s.fresh := rfl
@[simp] theorem State.updPair_regs : (s.updPair fPair).regs = s.regs := rfl
@[simp] theorem State.updPair_shadow : (s.updPair fPair).shadow = s.shadow := rfl
@[simp] theorem State.updPair_latches : (s.updPair fPair).latches = s.latches := rfl
@[simp] theorem State.updPair_heldLo : (s.updPair fPair).heldLo = s.heldLo := rfl
@[simp] theorem State.updPair_msixTable : (s.updPair fPair).msixTable = s.msixTable := rfl
@[simp] theorem State.updPair_msixPend : (s.updPair fPair).msixPend = s.msixPend := rfl
@[simp] theorem State.updPair_msixOn : (s.updPair fPair).msixOn = s.msixOn := rfl
@[simp] theorem State.updPair_msixMask : (s.updPair fPair).msixMask = s.msixMask := rfl
@[simp] theorem State.updPair_stoke : (s.updPair fPair).stoke = s.stoke := rfl
@[simp] theorem State.updPair_tiles : (s.updPair fPair).tiles = s.tiles := rfl
@[simp] theorem State.updPair_mem : (s.updPair fPair).mem = s.mem := rfl
@[simp] theorem State.updPair_memBad : (s.updPair fPair).memBad = s.memBad := rfl
@[simp] theorem State.updPair_vague : (s.updPair fPair).vague = s.vague := rfl
@[simp] theorem State.updPair_firstAt : (s.updPair fPair).firstAt = s.firstAt := rfl
@[simp] theorem State.updPair_plans : (s.updPair fPair).plans = s.plans := rfl
@[simp] theorem State.updPair_hashes : (s.updPair fPair).hashes = s.hashes := rfl
@[simp] theorem State.updPair_frozen : (s.updPair fPair).frozen = s.frozen := rfl
@[simp] theorem State.updPair_hub : (s.updPair fPair).hub = s.hub := rfl
@[simp] theorem State.updPair_flues : (s.updPair fPair).flues = s.flues := rfl
@[simp] theorem State.updPair_record : (s.updPair fPair).record = s.record := rfl
@[simp] theorem State.updPair_pair : (s.updPair fPair).pair = fPair s.pair := rfl
@[simp] theorem State.updPair_feed : (s.updPair fPair).feed = s.feed := rfl
@[simp] theorem State.updPair_flash : (s.updPair fPair).flash = s.flash := rfl
@[simp] theorem State.updPair_fuses : (s.updPair fPair).fuses = s.fuses := rfl
@[simp] theorem State.updPair_mod : (s.updPair fPair).mod = s.mod := rfl
@[simp] theorem State.updPair_boot : (s.updPair fPair).boot = s.boot := rfl
@[simp] theorem State.updPair_power : (s.updPair fPair).power = s.power := rfl
@[simp] theorem State.updPair_therm : (s.updPair fPair).therm = s.therm := rfl
@[simp] theorem State.updPair_sec : (s.updPair fPair).sec = s.sec := rfl
@[simp] theorem State.updPair_smoke : (s.updPair fPair).smoke = s.smoke := rfl

/-! ## State.updPlans -/

@[simp] theorem State.updPlans_pending : (s.updPlans fPlans).pending = s.pending := rfl
@[simp] theorem State.updPlans_out : (s.updPlans fPlans).out = s.out := rfl
@[simp] theorem State.updPlans_fresh : (s.updPlans fPlans).fresh = s.fresh := rfl
@[simp] theorem State.updPlans_regs : (s.updPlans fPlans).regs = s.regs := rfl
@[simp] theorem State.updPlans_shadow : (s.updPlans fPlans).shadow = s.shadow := rfl
@[simp] theorem State.updPlans_latches : (s.updPlans fPlans).latches = s.latches := rfl
@[simp] theorem State.updPlans_heldLo : (s.updPlans fPlans).heldLo = s.heldLo := rfl
@[simp] theorem State.updPlans_msixTable : (s.updPlans fPlans).msixTable = s.msixTable := rfl
@[simp] theorem State.updPlans_msixPend : (s.updPlans fPlans).msixPend = s.msixPend := rfl
@[simp] theorem State.updPlans_msixOn : (s.updPlans fPlans).msixOn = s.msixOn := rfl
@[simp] theorem State.updPlans_msixMask : (s.updPlans fPlans).msixMask = s.msixMask := rfl
@[simp] theorem State.updPlans_stoke : (s.updPlans fPlans).stoke = s.stoke := rfl
@[simp] theorem State.updPlans_tiles : (s.updPlans fPlans).tiles = s.tiles := rfl
@[simp] theorem State.updPlans_mem : (s.updPlans fPlans).mem = s.mem := rfl
@[simp] theorem State.updPlans_memBad : (s.updPlans fPlans).memBad = s.memBad := rfl
@[simp] theorem State.updPlans_vague : (s.updPlans fPlans).vague = s.vague := rfl
@[simp] theorem State.updPlans_firstAt : (s.updPlans fPlans).firstAt = s.firstAt := rfl
@[simp] theorem State.updPlans_plans : (s.updPlans fPlans).plans = fPlans s.plans := rfl
@[simp] theorem State.updPlans_hashes : (s.updPlans fPlans).hashes = s.hashes := rfl
@[simp] theorem State.updPlans_frozen : (s.updPlans fPlans).frozen = s.frozen := rfl
@[simp] theorem State.updPlans_hub : (s.updPlans fPlans).hub = s.hub := rfl
@[simp] theorem State.updPlans_flues : (s.updPlans fPlans).flues = s.flues := rfl
@[simp] theorem State.updPlans_record : (s.updPlans fPlans).record = s.record := rfl
@[simp] theorem State.updPlans_pair : (s.updPlans fPlans).pair = s.pair := rfl
@[simp] theorem State.updPlans_feed : (s.updPlans fPlans).feed = s.feed := rfl
@[simp] theorem State.updPlans_flash : (s.updPlans fPlans).flash = s.flash := rfl
@[simp] theorem State.updPlans_fuses : (s.updPlans fPlans).fuses = s.fuses := rfl
@[simp] theorem State.updPlans_mod : (s.updPlans fPlans).mod = s.mod := rfl
@[simp] theorem State.updPlans_boot : (s.updPlans fPlans).boot = s.boot := rfl
@[simp] theorem State.updPlans_power : (s.updPlans fPlans).power = s.power := rfl
@[simp] theorem State.updPlans_therm : (s.updPlans fPlans).therm = s.therm := rfl
@[simp] theorem State.updPlans_sec : (s.updPlans fPlans).sec = s.sec := rfl
@[simp] theorem State.updPlans_smoke : (s.updPlans fPlans).smoke = s.smoke := rfl

/-! ## State.updFeed -/

@[simp] theorem State.updFeed_pending : (s.updFeed fFeed).pending = s.pending := rfl
@[simp] theorem State.updFeed_out : (s.updFeed fFeed).out = s.out := rfl
@[simp] theorem State.updFeed_fresh : (s.updFeed fFeed).fresh = s.fresh := rfl
@[simp] theorem State.updFeed_regs : (s.updFeed fFeed).regs = s.regs := rfl
@[simp] theorem State.updFeed_shadow : (s.updFeed fFeed).shadow = s.shadow := rfl
@[simp] theorem State.updFeed_latches : (s.updFeed fFeed).latches = s.latches := rfl
@[simp] theorem State.updFeed_heldLo : (s.updFeed fFeed).heldLo = s.heldLo := rfl
@[simp] theorem State.updFeed_msixTable : (s.updFeed fFeed).msixTable = s.msixTable := rfl
@[simp] theorem State.updFeed_msixPend : (s.updFeed fFeed).msixPend = s.msixPend := rfl
@[simp] theorem State.updFeed_msixOn : (s.updFeed fFeed).msixOn = s.msixOn := rfl
@[simp] theorem State.updFeed_msixMask : (s.updFeed fFeed).msixMask = s.msixMask := rfl
@[simp] theorem State.updFeed_stoke : (s.updFeed fFeed).stoke = s.stoke := rfl
@[simp] theorem State.updFeed_tiles : (s.updFeed fFeed).tiles = s.tiles := rfl
@[simp] theorem State.updFeed_mem : (s.updFeed fFeed).mem = s.mem := rfl
@[simp] theorem State.updFeed_memBad : (s.updFeed fFeed).memBad = s.memBad := rfl
@[simp] theorem State.updFeed_vague : (s.updFeed fFeed).vague = s.vague := rfl
@[simp] theorem State.updFeed_firstAt : (s.updFeed fFeed).firstAt = s.firstAt := rfl
@[simp] theorem State.updFeed_plans : (s.updFeed fFeed).plans = s.plans := rfl
@[simp] theorem State.updFeed_hashes : (s.updFeed fFeed).hashes = s.hashes := rfl
@[simp] theorem State.updFeed_frozen : (s.updFeed fFeed).frozen = s.frozen := rfl
@[simp] theorem State.updFeed_hub : (s.updFeed fFeed).hub = s.hub := rfl
@[simp] theorem State.updFeed_flues : (s.updFeed fFeed).flues = s.flues := rfl
@[simp] theorem State.updFeed_record : (s.updFeed fFeed).record = s.record := rfl
@[simp] theorem State.updFeed_pair : (s.updFeed fFeed).pair = s.pair := rfl
@[simp] theorem State.updFeed_feed : (s.updFeed fFeed).feed = fFeed s.feed := rfl
@[simp] theorem State.updFeed_flash : (s.updFeed fFeed).flash = s.flash := rfl
@[simp] theorem State.updFeed_fuses : (s.updFeed fFeed).fuses = s.fuses := rfl
@[simp] theorem State.updFeed_mod : (s.updFeed fFeed).mod = s.mod := rfl
@[simp] theorem State.updFeed_boot : (s.updFeed fFeed).boot = s.boot := rfl
@[simp] theorem State.updFeed_power : (s.updFeed fFeed).power = s.power := rfl
@[simp] theorem State.updFeed_therm : (s.updFeed fFeed).therm = s.therm := rfl
@[simp] theorem State.updFeed_sec : (s.updFeed fFeed).sec = s.sec := rfl
@[simp] theorem State.updFeed_smoke : (s.updFeed fFeed).smoke = s.smoke := rfl

/-! ## State.updFlues -/

@[simp] theorem State.updFlues_pending : (s.updFlues fFlues).pending = s.pending := rfl
@[simp] theorem State.updFlues_out : (s.updFlues fFlues).out = s.out := rfl
@[simp] theorem State.updFlues_fresh : (s.updFlues fFlues).fresh = s.fresh := rfl
@[simp] theorem State.updFlues_regs : (s.updFlues fFlues).regs = s.regs := rfl
@[simp] theorem State.updFlues_shadow : (s.updFlues fFlues).shadow = s.shadow := rfl
@[simp] theorem State.updFlues_latches : (s.updFlues fFlues).latches = s.latches := rfl
@[simp] theorem State.updFlues_heldLo : (s.updFlues fFlues).heldLo = s.heldLo := rfl
@[simp] theorem State.updFlues_msixTable : (s.updFlues fFlues).msixTable = s.msixTable := rfl
@[simp] theorem State.updFlues_msixPend : (s.updFlues fFlues).msixPend = s.msixPend := rfl
@[simp] theorem State.updFlues_msixOn : (s.updFlues fFlues).msixOn = s.msixOn := rfl
@[simp] theorem State.updFlues_msixMask : (s.updFlues fFlues).msixMask = s.msixMask := rfl
@[simp] theorem State.updFlues_stoke : (s.updFlues fFlues).stoke = s.stoke := rfl
@[simp] theorem State.updFlues_tiles : (s.updFlues fFlues).tiles = s.tiles := rfl
@[simp] theorem State.updFlues_mem : (s.updFlues fFlues).mem = s.mem := rfl
@[simp] theorem State.updFlues_memBad : (s.updFlues fFlues).memBad = s.memBad := rfl
@[simp] theorem State.updFlues_vague : (s.updFlues fFlues).vague = s.vague := rfl
@[simp] theorem State.updFlues_firstAt : (s.updFlues fFlues).firstAt = s.firstAt := rfl
@[simp] theorem State.updFlues_plans : (s.updFlues fFlues).plans = s.plans := rfl
@[simp] theorem State.updFlues_hashes : (s.updFlues fFlues).hashes = s.hashes := rfl
@[simp] theorem State.updFlues_frozen : (s.updFlues fFlues).frozen = s.frozen := rfl
@[simp] theorem State.updFlues_hub : (s.updFlues fFlues).hub = s.hub := rfl
@[simp] theorem State.updFlues_flues : (s.updFlues fFlues).flues = fFlues s.flues := rfl
@[simp] theorem State.updFlues_record : (s.updFlues fFlues).record = s.record := rfl
@[simp] theorem State.updFlues_pair : (s.updFlues fFlues).pair = s.pair := rfl
@[simp] theorem State.updFlues_feed : (s.updFlues fFlues).feed = s.feed := rfl
@[simp] theorem State.updFlues_flash : (s.updFlues fFlues).flash = s.flash := rfl
@[simp] theorem State.updFlues_fuses : (s.updFlues fFlues).fuses = s.fuses := rfl
@[simp] theorem State.updFlues_mod : (s.updFlues fFlues).mod = s.mod := rfl
@[simp] theorem State.updFlues_boot : (s.updFlues fFlues).boot = s.boot := rfl
@[simp] theorem State.updFlues_power : (s.updFlues fFlues).power = s.power := rfl
@[simp] theorem State.updFlues_therm : (s.updFlues fFlues).therm = s.therm := rfl
@[simp] theorem State.updFlues_sec : (s.updFlues fFlues).sec = s.sec := rfl
@[simp] theorem State.updFlues_smoke : (s.updFlues fFlues).smoke = s.smoke := rfl

/-! ## State.updMod -/

@[simp] theorem State.updMod_pending : (s.updMod fMod).pending = s.pending := rfl
@[simp] theorem State.updMod_out : (s.updMod fMod).out = s.out := rfl
@[simp] theorem State.updMod_fresh : (s.updMod fMod).fresh = s.fresh := rfl
@[simp] theorem State.updMod_regs : (s.updMod fMod).regs = s.regs := rfl
@[simp] theorem State.updMod_shadow : (s.updMod fMod).shadow = s.shadow := rfl
@[simp] theorem State.updMod_latches : (s.updMod fMod).latches = s.latches := rfl
@[simp] theorem State.updMod_heldLo : (s.updMod fMod).heldLo = s.heldLo := rfl
@[simp] theorem State.updMod_msixTable : (s.updMod fMod).msixTable = s.msixTable := rfl
@[simp] theorem State.updMod_msixPend : (s.updMod fMod).msixPend = s.msixPend := rfl
@[simp] theorem State.updMod_msixOn : (s.updMod fMod).msixOn = s.msixOn := rfl
@[simp] theorem State.updMod_msixMask : (s.updMod fMod).msixMask = s.msixMask := rfl
@[simp] theorem State.updMod_stoke : (s.updMod fMod).stoke = s.stoke := rfl
@[simp] theorem State.updMod_tiles : (s.updMod fMod).tiles = s.tiles := rfl
@[simp] theorem State.updMod_mem : (s.updMod fMod).mem = s.mem := rfl
@[simp] theorem State.updMod_memBad : (s.updMod fMod).memBad = s.memBad := rfl
@[simp] theorem State.updMod_vague : (s.updMod fMod).vague = s.vague := rfl
@[simp] theorem State.updMod_firstAt : (s.updMod fMod).firstAt = s.firstAt := rfl
@[simp] theorem State.updMod_plans : (s.updMod fMod).plans = s.plans := rfl
@[simp] theorem State.updMod_hashes : (s.updMod fMod).hashes = s.hashes := rfl
@[simp] theorem State.updMod_frozen : (s.updMod fMod).frozen = s.frozen := rfl
@[simp] theorem State.updMod_hub : (s.updMod fMod).hub = s.hub := rfl
@[simp] theorem State.updMod_flues : (s.updMod fMod).flues = s.flues := rfl
@[simp] theorem State.updMod_record : (s.updMod fMod).record = s.record := rfl
@[simp] theorem State.updMod_pair : (s.updMod fMod).pair = s.pair := rfl
@[simp] theorem State.updMod_feed : (s.updMod fMod).feed = s.feed := rfl
@[simp] theorem State.updMod_flash : (s.updMod fMod).flash = s.flash := rfl
@[simp] theorem State.updMod_fuses : (s.updMod fMod).fuses = s.fuses := rfl
@[simp] theorem State.updMod_mod : (s.updMod fMod).mod = fMod s.mod := rfl
@[simp] theorem State.updMod_boot : (s.updMod fMod).boot = s.boot := rfl
@[simp] theorem State.updMod_power : (s.updMod fMod).power = s.power := rfl
@[simp] theorem State.updMod_therm : (s.updMod fMod).therm = s.therm := rfl
@[simp] theorem State.updMod_sec : (s.updMod fMod).sec = s.sec := rfl
@[simp] theorem State.updMod_smoke : (s.updMod fMod).smoke = s.smoke := rfl

/-! ## State.updBoot -/

@[simp] theorem State.updBoot_pending : (s.updBoot fBoot).pending = s.pending := rfl
@[simp] theorem State.updBoot_out : (s.updBoot fBoot).out = s.out := rfl
@[simp] theorem State.updBoot_fresh : (s.updBoot fBoot).fresh = s.fresh := rfl
@[simp] theorem State.updBoot_regs : (s.updBoot fBoot).regs = s.regs := rfl
@[simp] theorem State.updBoot_shadow : (s.updBoot fBoot).shadow = s.shadow := rfl
@[simp] theorem State.updBoot_latches : (s.updBoot fBoot).latches = s.latches := rfl
@[simp] theorem State.updBoot_heldLo : (s.updBoot fBoot).heldLo = s.heldLo := rfl
@[simp] theorem State.updBoot_msixTable : (s.updBoot fBoot).msixTable = s.msixTable := rfl
@[simp] theorem State.updBoot_msixPend : (s.updBoot fBoot).msixPend = s.msixPend := rfl
@[simp] theorem State.updBoot_msixOn : (s.updBoot fBoot).msixOn = s.msixOn := rfl
@[simp] theorem State.updBoot_msixMask : (s.updBoot fBoot).msixMask = s.msixMask := rfl
@[simp] theorem State.updBoot_stoke : (s.updBoot fBoot).stoke = s.stoke := rfl
@[simp] theorem State.updBoot_tiles : (s.updBoot fBoot).tiles = s.tiles := rfl
@[simp] theorem State.updBoot_mem : (s.updBoot fBoot).mem = s.mem := rfl
@[simp] theorem State.updBoot_memBad : (s.updBoot fBoot).memBad = s.memBad := rfl
@[simp] theorem State.updBoot_vague : (s.updBoot fBoot).vague = s.vague := rfl
@[simp] theorem State.updBoot_firstAt : (s.updBoot fBoot).firstAt = s.firstAt := rfl
@[simp] theorem State.updBoot_plans : (s.updBoot fBoot).plans = s.plans := rfl
@[simp] theorem State.updBoot_hashes : (s.updBoot fBoot).hashes = s.hashes := rfl
@[simp] theorem State.updBoot_frozen : (s.updBoot fBoot).frozen = s.frozen := rfl
@[simp] theorem State.updBoot_hub : (s.updBoot fBoot).hub = s.hub := rfl
@[simp] theorem State.updBoot_flues : (s.updBoot fBoot).flues = s.flues := rfl
@[simp] theorem State.updBoot_record : (s.updBoot fBoot).record = s.record := rfl
@[simp] theorem State.updBoot_pair : (s.updBoot fBoot).pair = s.pair := rfl
@[simp] theorem State.updBoot_feed : (s.updBoot fBoot).feed = s.feed := rfl
@[simp] theorem State.updBoot_flash : (s.updBoot fBoot).flash = s.flash := rfl
@[simp] theorem State.updBoot_fuses : (s.updBoot fBoot).fuses = s.fuses := rfl
@[simp] theorem State.updBoot_mod : (s.updBoot fBoot).mod = s.mod := rfl
@[simp] theorem State.updBoot_boot : (s.updBoot fBoot).boot = fBoot s.boot := rfl
@[simp] theorem State.updBoot_power : (s.updBoot fBoot).power = s.power := rfl
@[simp] theorem State.updBoot_therm : (s.updBoot fBoot).therm = s.therm := rfl
@[simp] theorem State.updBoot_sec : (s.updBoot fBoot).sec = s.sec := rfl
@[simp] theorem State.updBoot_smoke : (s.updBoot fBoot).smoke = s.smoke := rfl

/-! ## State.updPower -/

@[simp] theorem State.updPower_pending : (s.updPower fPower).pending = s.pending := rfl
@[simp] theorem State.updPower_out : (s.updPower fPower).out = s.out := rfl
@[simp] theorem State.updPower_fresh : (s.updPower fPower).fresh = s.fresh := rfl
@[simp] theorem State.updPower_regs : (s.updPower fPower).regs = s.regs := rfl
@[simp] theorem State.updPower_shadow : (s.updPower fPower).shadow = s.shadow := rfl
@[simp] theorem State.updPower_latches : (s.updPower fPower).latches = s.latches := rfl
@[simp] theorem State.updPower_heldLo : (s.updPower fPower).heldLo = s.heldLo := rfl
@[simp] theorem State.updPower_msixTable : (s.updPower fPower).msixTable = s.msixTable := rfl
@[simp] theorem State.updPower_msixPend : (s.updPower fPower).msixPend = s.msixPend := rfl
@[simp] theorem State.updPower_msixOn : (s.updPower fPower).msixOn = s.msixOn := rfl
@[simp] theorem State.updPower_msixMask : (s.updPower fPower).msixMask = s.msixMask := rfl
@[simp] theorem State.updPower_stoke : (s.updPower fPower).stoke = s.stoke := rfl
@[simp] theorem State.updPower_tiles : (s.updPower fPower).tiles = s.tiles := rfl
@[simp] theorem State.updPower_mem : (s.updPower fPower).mem = s.mem := rfl
@[simp] theorem State.updPower_memBad : (s.updPower fPower).memBad = s.memBad := rfl
@[simp] theorem State.updPower_vague : (s.updPower fPower).vague = s.vague := rfl
@[simp] theorem State.updPower_firstAt : (s.updPower fPower).firstAt = s.firstAt := rfl
@[simp] theorem State.updPower_plans : (s.updPower fPower).plans = s.plans := rfl
@[simp] theorem State.updPower_hashes : (s.updPower fPower).hashes = s.hashes := rfl
@[simp] theorem State.updPower_frozen : (s.updPower fPower).frozen = s.frozen := rfl
@[simp] theorem State.updPower_hub : (s.updPower fPower).hub = s.hub := rfl
@[simp] theorem State.updPower_flues : (s.updPower fPower).flues = s.flues := rfl
@[simp] theorem State.updPower_record : (s.updPower fPower).record = s.record := rfl
@[simp] theorem State.updPower_pair : (s.updPower fPower).pair = s.pair := rfl
@[simp] theorem State.updPower_feed : (s.updPower fPower).feed = s.feed := rfl
@[simp] theorem State.updPower_flash : (s.updPower fPower).flash = s.flash := rfl
@[simp] theorem State.updPower_fuses : (s.updPower fPower).fuses = s.fuses := rfl
@[simp] theorem State.updPower_mod : (s.updPower fPower).mod = s.mod := rfl
@[simp] theorem State.updPower_boot : (s.updPower fPower).boot = s.boot := rfl
@[simp] theorem State.updPower_power : (s.updPower fPower).power = fPower s.power := rfl
@[simp] theorem State.updPower_therm : (s.updPower fPower).therm = s.therm := rfl
@[simp] theorem State.updPower_sec : (s.updPower fPower).sec = s.sec := rfl
@[simp] theorem State.updPower_smoke : (s.updPower fPower).smoke = s.smoke := rfl

/-! ## State.updTherm -/

@[simp] theorem State.updTherm_pending : (s.updTherm fTherm).pending = s.pending := rfl
@[simp] theorem State.updTherm_out : (s.updTherm fTherm).out = s.out := rfl
@[simp] theorem State.updTherm_fresh : (s.updTherm fTherm).fresh = s.fresh := rfl
@[simp] theorem State.updTherm_regs : (s.updTherm fTherm).regs = s.regs := rfl
@[simp] theorem State.updTherm_shadow : (s.updTherm fTherm).shadow = s.shadow := rfl
@[simp] theorem State.updTherm_latches : (s.updTherm fTherm).latches = s.latches := rfl
@[simp] theorem State.updTherm_heldLo : (s.updTherm fTherm).heldLo = s.heldLo := rfl
@[simp] theorem State.updTherm_msixTable : (s.updTherm fTherm).msixTable = s.msixTable := rfl
@[simp] theorem State.updTherm_msixPend : (s.updTherm fTherm).msixPend = s.msixPend := rfl
@[simp] theorem State.updTherm_msixOn : (s.updTherm fTherm).msixOn = s.msixOn := rfl
@[simp] theorem State.updTherm_msixMask : (s.updTherm fTherm).msixMask = s.msixMask := rfl
@[simp] theorem State.updTherm_stoke : (s.updTherm fTherm).stoke = s.stoke := rfl
@[simp] theorem State.updTherm_tiles : (s.updTherm fTherm).tiles = s.tiles := rfl
@[simp] theorem State.updTherm_mem : (s.updTherm fTherm).mem = s.mem := rfl
@[simp] theorem State.updTherm_memBad : (s.updTherm fTherm).memBad = s.memBad := rfl
@[simp] theorem State.updTherm_vague : (s.updTherm fTherm).vague = s.vague := rfl
@[simp] theorem State.updTherm_firstAt : (s.updTherm fTherm).firstAt = s.firstAt := rfl
@[simp] theorem State.updTherm_plans : (s.updTherm fTherm).plans = s.plans := rfl
@[simp] theorem State.updTherm_hashes : (s.updTherm fTherm).hashes = s.hashes := rfl
@[simp] theorem State.updTherm_frozen : (s.updTherm fTherm).frozen = s.frozen := rfl
@[simp] theorem State.updTherm_hub : (s.updTherm fTherm).hub = s.hub := rfl
@[simp] theorem State.updTherm_flues : (s.updTherm fTherm).flues = s.flues := rfl
@[simp] theorem State.updTherm_record : (s.updTherm fTherm).record = s.record := rfl
@[simp] theorem State.updTherm_pair : (s.updTherm fTherm).pair = s.pair := rfl
@[simp] theorem State.updTherm_feed : (s.updTherm fTherm).feed = s.feed := rfl
@[simp] theorem State.updTherm_flash : (s.updTherm fTherm).flash = s.flash := rfl
@[simp] theorem State.updTherm_fuses : (s.updTherm fTherm).fuses = s.fuses := rfl
@[simp] theorem State.updTherm_mod : (s.updTherm fTherm).mod = s.mod := rfl
@[simp] theorem State.updTherm_boot : (s.updTherm fTherm).boot = s.boot := rfl
@[simp] theorem State.updTherm_power : (s.updTherm fTherm).power = s.power := rfl
@[simp] theorem State.updTherm_therm : (s.updTherm fTherm).therm = fTherm s.therm := rfl
@[simp] theorem State.updTherm_sec : (s.updTherm fTherm).sec = s.sec := rfl
@[simp] theorem State.updTherm_smoke : (s.updTherm fTherm).smoke = s.smoke := rfl

/-! ## State.updSec -/

@[simp] theorem State.updSec_pending : (s.updSec fSec).pending = s.pending := rfl
@[simp] theorem State.updSec_out : (s.updSec fSec).out = s.out := rfl
@[simp] theorem State.updSec_fresh : (s.updSec fSec).fresh = s.fresh := rfl
@[simp] theorem State.updSec_regs : (s.updSec fSec).regs = s.regs := rfl
@[simp] theorem State.updSec_shadow : (s.updSec fSec).shadow = s.shadow := rfl
@[simp] theorem State.updSec_latches : (s.updSec fSec).latches = s.latches := rfl
@[simp] theorem State.updSec_heldLo : (s.updSec fSec).heldLo = s.heldLo := rfl
@[simp] theorem State.updSec_msixTable : (s.updSec fSec).msixTable = s.msixTable := rfl
@[simp] theorem State.updSec_msixPend : (s.updSec fSec).msixPend = s.msixPend := rfl
@[simp] theorem State.updSec_msixOn : (s.updSec fSec).msixOn = s.msixOn := rfl
@[simp] theorem State.updSec_msixMask : (s.updSec fSec).msixMask = s.msixMask := rfl
@[simp] theorem State.updSec_stoke : (s.updSec fSec).stoke = s.stoke := rfl
@[simp] theorem State.updSec_tiles : (s.updSec fSec).tiles = s.tiles := rfl
@[simp] theorem State.updSec_mem : (s.updSec fSec).mem = s.mem := rfl
@[simp] theorem State.updSec_memBad : (s.updSec fSec).memBad = s.memBad := rfl
@[simp] theorem State.updSec_vague : (s.updSec fSec).vague = s.vague := rfl
@[simp] theorem State.updSec_firstAt : (s.updSec fSec).firstAt = s.firstAt := rfl
@[simp] theorem State.updSec_plans : (s.updSec fSec).plans = s.plans := rfl
@[simp] theorem State.updSec_hashes : (s.updSec fSec).hashes = s.hashes := rfl
@[simp] theorem State.updSec_frozen : (s.updSec fSec).frozen = s.frozen := rfl
@[simp] theorem State.updSec_hub : (s.updSec fSec).hub = s.hub := rfl
@[simp] theorem State.updSec_flues : (s.updSec fSec).flues = s.flues := rfl
@[simp] theorem State.updSec_record : (s.updSec fSec).record = s.record := rfl
@[simp] theorem State.updSec_pair : (s.updSec fSec).pair = s.pair := rfl
@[simp] theorem State.updSec_feed : (s.updSec fSec).feed = s.feed := rfl
@[simp] theorem State.updSec_flash : (s.updSec fSec).flash = s.flash := rfl
@[simp] theorem State.updSec_fuses : (s.updSec fSec).fuses = s.fuses := rfl
@[simp] theorem State.updSec_mod : (s.updSec fSec).mod = s.mod := rfl
@[simp] theorem State.updSec_boot : (s.updSec fSec).boot = s.boot := rfl
@[simp] theorem State.updSec_power : (s.updSec fSec).power = s.power := rfl
@[simp] theorem State.updSec_therm : (s.updSec fSec).therm = s.therm := rfl
@[simp] theorem State.updSec_sec : (s.updSec fSec).sec = fSec s.sec := rfl
@[simp] theorem State.updSec_smoke : (s.updSec fSec).smoke = s.smoke := rfl

/-! ## State.updSmoke -/

@[simp] theorem State.updSmoke_pending : (s.updSmoke fSmoke).pending = s.pending := rfl
@[simp] theorem State.updSmoke_out : (s.updSmoke fSmoke).out = s.out := rfl
@[simp] theorem State.updSmoke_fresh : (s.updSmoke fSmoke).fresh = s.fresh := rfl
@[simp] theorem State.updSmoke_regs : (s.updSmoke fSmoke).regs = s.regs := rfl
@[simp] theorem State.updSmoke_shadow : (s.updSmoke fSmoke).shadow = s.shadow := rfl
@[simp] theorem State.updSmoke_latches : (s.updSmoke fSmoke).latches = s.latches := rfl
@[simp] theorem State.updSmoke_heldLo : (s.updSmoke fSmoke).heldLo = s.heldLo := rfl
@[simp] theorem State.updSmoke_msixTable : (s.updSmoke fSmoke).msixTable = s.msixTable := rfl
@[simp] theorem State.updSmoke_msixPend : (s.updSmoke fSmoke).msixPend = s.msixPend := rfl
@[simp] theorem State.updSmoke_msixOn : (s.updSmoke fSmoke).msixOn = s.msixOn := rfl
@[simp] theorem State.updSmoke_msixMask : (s.updSmoke fSmoke).msixMask = s.msixMask := rfl
@[simp] theorem State.updSmoke_stoke : (s.updSmoke fSmoke).stoke = s.stoke := rfl
@[simp] theorem State.updSmoke_tiles : (s.updSmoke fSmoke).tiles = s.tiles := rfl
@[simp] theorem State.updSmoke_mem : (s.updSmoke fSmoke).mem = s.mem := rfl
@[simp] theorem State.updSmoke_memBad : (s.updSmoke fSmoke).memBad = s.memBad := rfl
@[simp] theorem State.updSmoke_vague : (s.updSmoke fSmoke).vague = s.vague := rfl
@[simp] theorem State.updSmoke_firstAt : (s.updSmoke fSmoke).firstAt = s.firstAt := rfl
@[simp] theorem State.updSmoke_plans : (s.updSmoke fSmoke).plans = s.plans := rfl
@[simp] theorem State.updSmoke_hashes : (s.updSmoke fSmoke).hashes = s.hashes := rfl
@[simp] theorem State.updSmoke_frozen : (s.updSmoke fSmoke).frozen = s.frozen := rfl
@[simp] theorem State.updSmoke_hub : (s.updSmoke fSmoke).hub = s.hub := rfl
@[simp] theorem State.updSmoke_flues : (s.updSmoke fSmoke).flues = s.flues := rfl
@[simp] theorem State.updSmoke_record : (s.updSmoke fSmoke).record = s.record := rfl
@[simp] theorem State.updSmoke_pair : (s.updSmoke fSmoke).pair = s.pair := rfl
@[simp] theorem State.updSmoke_feed : (s.updSmoke fSmoke).feed = s.feed := rfl
@[simp] theorem State.updSmoke_flash : (s.updSmoke fSmoke).flash = s.flash := rfl
@[simp] theorem State.updSmoke_fuses : (s.updSmoke fSmoke).fuses = s.fuses := rfl
@[simp] theorem State.updSmoke_mod : (s.updSmoke fSmoke).mod = s.mod := rfl
@[simp] theorem State.updSmoke_boot : (s.updSmoke fSmoke).boot = s.boot := rfl
@[simp] theorem State.updSmoke_power : (s.updSmoke fSmoke).power = s.power := rfl
@[simp] theorem State.updSmoke_therm : (s.updSmoke fSmoke).therm = s.therm := rfl
@[simp] theorem State.updSmoke_sec : (s.updSmoke fSmoke).sec = s.sec := rfl
@[simp] theorem State.updSmoke_smoke : (s.updSmoke fSmoke).smoke = fSmoke s.smoke := rfl

end Sys2Proof.Machine
end

