-- ==== Sys2Proof/Laws/Registers.lean ====
section
/-! SUPPORT. Register fields: a read after a write, and what setting a cause, counting and capturing an error can change. -/
namespace Sys2Proof.Machine

/-! ## Bits -/

theorem bitAt_eq_testBit (x b : Nat) : bitAt x b = x.testBit b := by
  rw [bitAt, Nat.testBit_eq_decide_div_mod_eq]

theorem bitAt_mod (x w b : Nat) (h : b < w) : bitAt (x % 2 ^ w) b = bitAt x b := by
  simp [bitAt_eq_testBit, Nat.testBit_mod_two_pow, h]

@[simp] theorem bitAt_withBit_same (x b : Nat) : bitAt (withBit x b) b = true := by
  unfold withBit
  split
  · assumption
  · rename_i h
    simp only [bitAt, decide_eq_true_eq] at h ⊢
    rw [Nat.add_div_right x (Nat.two_pow_pos b)]
    omega

/-! ## Keys -/

theorem kindIndex_lt (k : Kind) : Reg.kindIndex k < 64 := by cases k <;> decide

theorem kindIndex_inj (j k : Kind) (h : Reg.kindIndex j = Reg.kindIndex k) : j = k := by
  cases j <;> cases k <;> first | rfl | exact absurd h (by decide)

/-- Fields of different places on their pages have different keys. -/
theorem regKey_ne_of_bit (p q : Page) (f g : Fld) (hf : f.bit < 32768) (hg : g.bit < 32768) (h : f.bit ≠ g.bit) :
    regKey p f ≠ regKey q g := by
  unfold regKey; omega

/-- Fields of different pages have different keys. -/
theorem regKey_ne_of_page (p q : Page) (f g : Fld) (hf : f.bit < 32768) (hg : g.bit < 32768) (h : p ≠ q) :
    regKey p f ≠ regKey q g := by
  intro e
  apply h
  unfold regKey at e
  have hp := kindIndex_lt p.kind
  have hq := kindIndex_lt q.kind
  obtain ⟨pk, pi⟩ := p
  obtain ⟨qk, qi⟩ := q
  simp only at e hp hq
  have hk : Reg.kindIndex pk = Reg.kindIndex qk := by omega
  have hi : pi = qi := by omega
  rw [kindIndex_inj pk qk hk, hi]

/-! ## Reading and writing fields -/

@[simp] theorem rd_wr_same (s : State) (p : Page) (f : Fld) (v : Nat) : (s.wr p f v).rd p f = v % 2 ^ f.width :=
  SMap.getD_setD_same _ _ _ _

theorem rd_wr_ne (s : State) (p q : Page) (f g : Fld) (v : Nat) (h : regKey q g ≠ regKey p f) :
    (s.wr p f v).rd q g = s.rd q g :=
  SMap.getD_setD_ne _ _ _ _ _ _ h

/-- What does not change the registers changes no field. -/
theorem rd_of_regs (s t : State) (h : t.regs = s.regs) (p : Page) (f : Fld) : t.rd p f = s.rd p f := by
  rw [State.rd, State.rd, h]

theorem rd_wrs_ne (l : List (Fld × Nat)) (s : State) (p q : Page) (g : Fld)
    (h : ∀ e ∈ l, regKey q g ≠ regKey p e.1) : (s.wrs p l).rd q g = s.rd q g := by
  induction l generalizing s with
  | nil => rfl
  | cons e l ih =>
    have h1 : (s.wrs p (e :: l)) = (s.wr p e.1 e.2).wrs p l := rfl
    rw [h1, ih _ (fun x hx => h x (List.mem_cons_of_mem _ hx)), rd_wr_ne _ _ _ _ _ _ (h e List.mem_cons_self)]

@[simp] theorem wrs_nil (s : State) (p : Page) : s.wrs p [] = s := rfl
@[simp] theorem wrs_cons (s : State) (p : Page) (e : Fld × Nat) (l : List (Fld × Nat)) :
    s.wrs p (e :: l) = (s.wr p e.1 e.2).wrs p l := rfl

/-! ## What only shows: registers, outputs, pending messages and Smoke's counts -/

/-- t differs from s at most in what it shows: registers, outputs, pending MSI-X messages, what Smoke counts and
the cycle of INT_FIRST. -/
def OnlyShows (s t : State) : Prop :=
  ∃ r o p k c, t = { s with regs := r, out := o, msixPend := p, smoke := k, firstAt := c }

namespace OnlyShows

theorem rfl' (s : State) : OnlyShows s s := ⟨s.regs, s.out, s.msixPend, s.smoke, s.firstAt, rfl⟩

theorem trans {s t u : State} (h : OnlyShows s t) (g : OnlyShows t u) : OnlyShows s u := by
  obtain ⟨r, o, p, k, c, rfl⟩ := h
  obtain ⟨r', o', p', k', c', rfl⟩ := g
  exact ⟨r', o', p', k', c', rfl⟩

theorem mem {s t : State} (h : OnlyShows s t) : t.mem = s.mem := by obtain ⟨_, _, _, _, _, rfl⟩ := h; rfl
theorem memBad {s t : State} (h : OnlyShows s t) : t.memBad = s.memBad := by obtain ⟨_, _, _, _, _, rfl⟩ := h; rfl
theorem tiles {s t : State} (h : OnlyShows s t) : t.tiles = s.tiles := by obtain ⟨_, _, _, _, _, rfl⟩ := h; rfl
theorem stoke {s t : State} (h : OnlyShows s t) : t.stoke = s.stoke := by obtain ⟨_, _, _, _, _, rfl⟩ := h; rfl
theorem pending {s t : State} (h : OnlyShows s t) : t.pending = s.pending := by obtain ⟨_, _, _, _, _, rfl⟩ := h; rfl
theorem pair {s t : State} (h : OnlyShows s t) : t.pair = s.pair := by obtain ⟨_, _, _, _, _, rfl⟩ := h; rfl
theorem plans {s t : State} (h : OnlyShows s t) : t.plans = s.plans := by obtain ⟨_, _, _, _, _, rfl⟩ := h; rfl
theorem hashes {s t : State} (h : OnlyShows s t) : t.hashes = s.hashes := by obtain ⟨_, _, _, _, _, rfl⟩ := h; rfl
theorem hub {s t : State} (h : OnlyShows s t) : t.hub = s.hub := by obtain ⟨_, _, _, _, _, rfl⟩ := h; rfl
theorem flash {s t : State} (h : OnlyShows s t) : t.flash = s.flash := by obtain ⟨_, _, _, _, _, rfl⟩ := h; rfl
theorem fuses {s t : State} (h : OnlyShows s t) : t.fuses = s.fuses := by obtain ⟨_, _, _, _, _, rfl⟩ := h; rfl
theorem shadow {s t : State} (h : OnlyShows s t) : t.shadow = s.shadow := by obtain ⟨_, _, _, _, _, rfl⟩ := h; rfl

end OnlyShows

theorem onlyShows_foldl {α : Type} (f : State → α → State) (h : ∀ s a, OnlyShows s (f s a)) (l : List α) (s : State) :
    OnlyShows s (l.foldl f s) := by
  induction l generalizing s with
  | nil => exact .rfl' s
  | cons a l ih => exact (h s a).trans (ih _)

theorem wr_shows (s : State) (p : Page) (f : Fld) (v : Nat) : OnlyShows s (s.wr p f v) :=
  ⟨_, s.out, s.msixPend, s.smoke, s.firstAt, rfl⟩
theorem emit_shows (s : State) (o : Output) : OnlyShows s (s.emit o) := ⟨s.regs, _, s.msixPend, s.smoke, s.firstAt, rfl⟩
theorem wrs_shows (s : State) (p : Page) (l : List (Fld × Nat)) : OnlyShows s (s.wrs p l) :=
  onlyShows_foldl (fun (s : State) (e : Fld × Nat) => s.wr p e.1 e.2) (fun s e => wr_shows s p e.1 e.2) l s

theorem message_shows (s : State) (v : Nat) : OnlyShows s (s.message v) := by
  unfold State.message
  split
  · exact ⟨s.regs, s.out, _, s.smoke, s.firstAt, rfl⟩
  · exact emit_shows s _

theorem trySource_shows (s : State) (n : Nat) : OnlyShows s (s.trySource n) := by
  unfold State.trySource
  dsimp only
  split
  · exact (wr_shows s _ _ _).trans (message_shows _ _)
  · exact .rfl' s

theorem captureSource_shows (s : State) (n : Nat) : OnlyShows s (s.captureSource n) := by
  unfold State.captureSource
  split
  · split
    · exact wr_shows s _ _ _
    · exact .rfl' s
  · exact OnlyShows.trans ⟨s.regs, s.out, s.msixPend, s.smoke, s.here, rfl⟩ (wrs_shows { s with firstAt := s.here } _ _)

theorem lineRaised_shows (s : State) (p : Page) (was : Bool) : OnlyShows s (s.lineRaised p was) := by
  unfold State.lineRaised
  split
  · refine OnlyShows.trans ?_ (trySource_shows _ _)
    split
    · exact .rfl' s
    · exact captureSource_shows s _
  · exact .rfl' s

theorem noteCause_shows (s : State) (p : Page) (b : Nat) : OnlyShows s (s.noteCause p b) := by
  unfold State.noteCause
  split
  · exact ⟨s.regs, s.out, s.msixPend, _, s.firstAt, rfl⟩
  · exact .rfl' s

/-- Setting a cause shows it, and may raise an interrupt. -/
theorem setCause_shows (s : State) (p : Page) (b : Nat) : OnlyShows s (s.setCause p b) :=
  ((noteCause_shows s p b).trans (wr_shows _ _ _ _)).trans (lineRaised_shows _ _ _)

theorem countOne_shows (s : State) (p : Page) (n k : Nat) : OnlyShows s (s.countOne p n k) := by
  unfold State.countOne
  dsimp only
  split
  · exact wr_shows s _ _ _
  · exact (wrs_shows s _ _).trans (setCause_shows _ _ _)

theorem count_shows (s : State) (inst code n : Nat) : OnlyShows s (s.count inst code n) := by
  unfold State.count
  dsimp only
  split
  · exact .rfl' s
  · exact onlyShows_foldl _ (fun s k => countOne_shows s _ _ _) _ s

theorem noteCount_shows (s : State) (p : Page) (f : Fld) (n : Nat) : OnlyShows s (s.noteCount p f n) := by
  unfold State.noteCount
  dsimp only
  split
  · exact ⟨s.regs, s.out, s.msixPend, _, s.firstAt, rfl⟩
  · exact .rfl' s

/-- Counting shows the count, and may count in Smoke and raise an interrupt. -/
theorem bump_shows (s : State) (p : Page) (f : Fld) (n : Nat) : OnlyShows s (s.bump p f n) := by
  have h : OnlyShows s ((s.noteCount p f n).wr p f (satAdd (2 ^ f.width - 1) (s.rd p f) n)) :=
    (noteCount_shows s p f n).trans (wr_shows _ _ _ _)
  unfold State.bump
  dsimp only
  split
  · exact h.trans (count_shows _ _ _ _)
  · exact h

/-- Capturing an error shows it. -/
theorem err_shows (s : State) (p : Page) (code detail : Nat) : OnlyShows s (s.err p code detail) := by
  unfold State.err
  dsimp only
  split
  · exact (bump_shows s _ _ _).trans (wr_shows _ _ _ _)
  · exact (bump_shows s _ _ _).trans (wrs_shows _ _ _)

/-! ## Registers that setting a cause can change -/

/-- The fields of the INT page that an interrupt changes. -/
def intShown : List Fld := [Reg.intArmed, Reg.intFirstValid, Reg.intFirstSource, Reg.intFirstStk]

theorem rd_message (s : State) (v : Nat) (q : Page) (g : Fld) : (s.message v).rd q g = s.rd q g := by
  unfold State.message
  split <;> rfl

theorem rd_trySource (s : State) (n : Nat) (q : Page) (g : Fld) (h : ∀ f ∈ intShown, regKey q g ≠ regKey pgInt f) :
    (s.trySource n).rd q g = s.rd q g := by
  unfold State.trySource
  dsimp only
  split
  · rw [rd_message]; exact rd_wr_ne _ _ _ _ _ _ (h _ (by simp [intShown]))
  · rfl

theorem rd_captureSource (s : State) (n : Nat) (q : Page) (g : Fld) (h : ∀ f ∈ intShown, regKey q g ≠ regKey pgInt f) :
    (s.captureSource n).rd q g = s.rd q g := by
  unfold State.captureSource
  split
  · split
    · exact rd_wr_ne _ _ _ _ _ _ (h _ (by simp [intShown]))
    · rfl
  · refine Eq.trans (rd_wrs_ne _ { s with firstAt := s.here } _ _ _ ?_) rfl
    intro e he
    simp only [List.mem_cons, List.not_mem_nil, or_false] at he
    rcases he with rfl | rfl | rfl <;> exact h _ (by simp [intShown])

theorem rd_lineRaised (s : State) (p : Page) (was : Bool) (q : Page) (g : Fld)
    (h : ∀ f ∈ intShown, regKey q g ≠ regKey pgInt f) : (s.lineRaised p was).rd q g = s.rd q g := by
  unfold State.lineRaised
  split
  · rw [rd_trySource _ _ _ _ h]
    split
    · rfl
    · exact rd_captureSource _ _ _ _ h
  · rfl

theorem rd_noteCause (s : State) (p : Page) (b : Nat) (q : Page) (g : Fld) : (s.noteCause p b).rd q g = s.rd q g := by
  unfold State.noteCause
  split <;> rfl

/-- A field that is neither the page's INT_RAW nor one that an interrupt changes keeps its value. -/
theorem rd_setCause (s : State) (p : Page) (b : Nat) (q : Page) (g : Fld) (hr : regKey q g ≠ regKey p Reg.intRaw)
    (h : ∀ f ∈ intShown, regKey q g ≠ regKey pgInt f) : (s.setCause p b).rd q g = s.rd q g := by
  unfold State.setCause
  rw [rd_lineRaised _ _ _ _ _ h, rd_wr_ne _ _ _ _ _ _ hr, rd_noteCause]

theorem intRaw_not_shown (p : Page) : ∀ f ∈ intShown, regKey p Reg.intRaw ≠ regKey pgInt f := by
  intro f hf
  simp only [intShown, List.mem_cons, List.not_mem_nil, or_false] at hf
  rcases hf with rfl | rfl | rfl | rfl <;> exact regKey_ne_of_bit _ _ _ _ (by decide) (by decide) (by decide)

/-- INT_RAW of the page holds the cause; the other causes stay. -/
theorem intRaw_setCause (s : State) (p : Page) (b : Nat) :
    (s.setCause p b).rd p Reg.intRaw = withBit (s.rd p Reg.intRaw) b % 2 ^ 32 := by
  unfold State.setCause
  rw [rd_lineRaised _ _ _ _ _ (intRaw_not_shown p), rd_wr_same]
  rfl

theorem bit_setCause (s : State) (p : Page) (b : Nat) (h : b < 32) :
    bitAt ((s.setCause p b).rd p Reg.intRaw) b = true := by
  rw [intRaw_setCause, bitAt_mod _ _ _ h, bitAt_withBit_same]

/-! ## Capturing an error -/

/-- ERR_COUNT is no event that Smoke counts, so a captured error changes its page alone. -/
theorem bump_errCount (s : State) (p : Page) : s.bump p Reg.errCount 1 =
    (s.noteCount p Reg.errCount 1).wr p Reg.errCount (satAdd (2 ^ 32 - 1) (s.rd p Reg.errCount) 1) := by
  unfold State.bump
  have h : smkEvent p Reg.errCount = none := by unfold smkEvent; split <;> rfl
  rw [h]
  rfl

/-- With no error held, an error is captured with its code and detail. -/
theorem err_captures (s : State) (p : Page) (code detail : Nat) (h : s.flag p Reg.errValid = false) :
    (s.err p code detail).rd p Reg.errValid = 1 ∧ (s.err p code detail).rd p Reg.errCode = code % 2 ^ 8 ∧
    (s.err p code detail).rd p Reg.errDetail = detail % 2 ^ 16 := by
  unfold State.err
  dsimp only
  rw [if_neg (by simp [h]), wrs_cons, wrs_cons, wrs_cons, wrs_cons, wrs_nil]
  refine ⟨?_, ?_, ?_⟩
  · dsimp only
    rw [rd_wr_ne, rd_wr_ne, rd_wr_ne, rd_wr_same] <;>
      first | rfl | exact regKey_ne_of_bit _ _ _ _ (by decide) (by decide) (by decide)
  · dsimp only
    rw [rd_wr_ne, rd_wr_ne, rd_wr_same] <;>
      first | rfl | exact regKey_ne_of_bit _ _ _ _ (by decide) (by decide) (by decide)
  · dsimp only
    rw [rd_wr_ne, rd_wr_same] <;>
      first | rfl | exact regKey_ne_of_bit _ _ _ _ (by decide) (by decide) (by decide)

/-- Other pages keep their fields when an error is captured. -/
theorem rd_err_ne (s : State) (p q : Page) (code detail : Nat) (g : Fld) (h : q ≠ p) (hg : g.bit < 32768) :
    (s.err p code detail).rd q g = s.rd q g := by
  have hb : ∀ f : Fld, f.bit < 32768 → regKey q g ≠ regKey p f := fun f hf => regKey_ne_of_page q p g f hg hf h
  have hc : (s.bump p Reg.errCount 1).rd q g = s.rd q g := by
    rw [bump_errCount, rd_wr_ne _ _ _ _ _ _ (hb _ (by decide))]
    unfold State.noteCount
    dsimp only
    split <;> rfl
  unfold State.err
  dsimp only
  split
  · rw [rd_wr_ne _ _ _ _ _ _ (hb _ (by decide)), hc]
  · rw [rd_wrs_ne, hc]
    intro e he
    simp only [List.mem_cons, List.not_mem_nil, or_false] at he
    rcases he with rfl | rfl | rfl | rfl
    · exact hb Reg.errValid (by decide)
    · exact hb Reg.errCode (by decide)
    · exact hb Reg.errDetail (by decide)
    · exact hb Reg.errStk (by decide)

end Sys2Proof.Machine
end

