-- ==== Sys2Proof/Laws/Memory.lean ====
section
/-! SUPPORT. The hearth and near windows: a read after a write, and the canonical form of memory and poison, which every
memory operation keeps and State.reset has. -/
namespace Sys2Proof.Machine

/-! ## Bytes of a number -/

@[simp] theorem leBytes_length (n x : Nat) : (leBytes n x).length = n := by
  induction n generalizing x with
  | zero => rfl
  | succ n ih => simp [leBytes, ih]

@[simp] theorem leNat_leBytes (n x : Nat) : leNat (leBytes n x) = x % 256 ^ n := by
  induction n generalizing x with
  | zero => simp [leBytes, leNat, Nat.mod_one]
  | succ n ih =>
    simp only [leBytes, leNat, ih, BitVec.toNat_ofNat]
    have h : (256 : Nat) ^ (n + 1) = 256 * 256 ^ n := by rw [Nat.pow_succ, Nat.mul_comm]
    rw [h, Nat.mod_mul]

/-! ## A read after a write -/

/-- A byte that is written is defined; the others are as undefined as before. -/
theorem vague_define (v : Vague) (a x : Nat) : (v.define a).at_ x = if x = a then none else v.at_ x := by
  unfold Vague.define Vague.at_
  by_cases e : v.extents = []
  · simp [e]
  · simp only [e, if_false, SMap.getD_setD]
    split <;> split <;> simp_all

@[simp] theorem byteAt_setByte (s : State) (a x : Nat) (b : Byte) :
    (s.setByte a b).byteAt x = if x = a then b else s.byteAt x := by
  simp only [State.byteAt, State.setByte, vague_define, SMap.getD_setD]
  by_cases h : x = a <;> simp [h]

theorem badAt_setBad (s : State) (w a : Nat) (b : Bool) : (s.setBad w b).badAt a = if a / 8 = w then b else s.badAt a := by
  unfold State.badAt
  exact SMap.getD_setD _ _ _ _ _

@[simp] theorem byteAt_setBad (s : State) (w x : Nat) (b : Bool) : (s.setBad w b).byteAt x = s.byteAt x := by
  unfold State.byteAt State.setBad; rfl
@[simp] theorem badAt_setByte (s : State) (a x : Nat) (b : Byte) : (s.setByte a b).badAt x = s.badAt x := rfl

/-- Bytes written at an address read back there, and every other byte is as before. -/
theorem byteAt_setBytes (bs : List Byte) (s : State) (a x : Nat) :
    (s.setBytes a bs).byteAt x = if a ≤ x ∧ x < a + bs.length then bs.getD (x - a) 0 else s.byteAt x := by
  induction bs generalizing s a with
  | nil =>
    rw [if_neg (by simp only [List.length_nil]; omega)]
    rfl
  | cons b bs ih =>
    rw [State.setBytes, ih, byteAt_setByte]
    by_cases h : x = a
    · subst h
      rw [if_neg (by omega), if_pos rfl, if_pos (by simp)]
      simp
    · by_cases h2 : a + 1 ≤ x ∧ x < a + 1 + bs.length
      · rw [if_pos h2, if_pos (by simp only [List.length_cons]; omega)]
        have : x - a = x - (a + 1) + 1 := by omega
        rw [this]
        simp
      · rw [if_neg h2, if_neg h, if_neg (by simp only [List.length_cons]; omega)]

@[simp] theorem memBad_setBytes (bs : List Byte) (s : State) (a : Nat) : (s.setBytes a bs).memBad = s.memBad := by
  induction bs generalizing s a with
  | nil => rfl
  | cons b bs ih => rw [State.setBytes, ih]; rfl

/-- Bytes written outside an address do not change it. -/
theorem byteAt_setBytes_ne (bs : List Byte) (s : State) (a x : Nat) (h : x < a ∨ a + bs.length ≤ x) :
    (s.setBytes a bs).byteAt x = s.byteAt x := by
  rw [byteAt_setBytes, if_neg (by omega)]

/-! ## The canonical form -/

/-- What leaves memory and poison alone keeps the form. -/
theorem inv_of_same {s t : State} (h : Inv s) (hm : t.mem = s.mem) (hb : t.memBad = s.memBad) : Inv t := by
  unfold Inv; rw [hm, hb]; exact h

theorem OnlyShows.inv {s t : State} (h : OnlyShows s t) (i : Inv s) : Inv t := inv_of_same i h.mem h.memBad

/-- Right after reset memory has the form: nothing is listed. -/
theorem inv_reset : Inv State.reset := ⟨rfl, rfl⟩

theorem inv_setByte (s : State) (a : Nat) (b : Byte) (h : Inv s) : Inv (s.setByte a b) :=
  ⟨SMap.wf_setD _ _ _ _ h.1, h.2⟩

theorem inv_setBad (s : State) (w : Nat) (b : Bool) (h : Inv s) : Inv (s.setBad w b) :=
  ⟨h.1, SMap.wf_setD _ _ _ _ h.2⟩

theorem inv_setBytes (bs : List Byte) (s : State) (a : Nat) (h : Inv s) : Inv (s.setBytes a bs) := by
  induction bs generalizing s a with
  | nil => exact h
  | cons b bs ih => exact ih _ _ (inv_setByte s a b h)

/-- Whatever keeps the form in each step keeps it over a list. -/
theorem inv_foldl {α : Type} (f : State → α → State) (hf : ∀ s a, Inv s → Inv (f s a)) (l : List α) (s : State) (h : Inv s) :
    Inv (l.foldl f s) := by
  induction l generalizing s with
  | nil => exact h
  | cons a l ih => exact ih _ (hf s a h)

theorem inv_mergePoison (s : State) (w lo hi : Nat) (bad : Bool) (h : Inv s) : Inv (s.mergePoison w lo hi bad) := by
  unfold State.mergePoison
  split
  · exact inv_setBad s w bad h
  · split
    · exact inv_setBad s w true h
    · exact h

/-- Writing bytes with poison keeps the form. -/
theorem inv_store (s : State) (a : Nat) (bs : List Byte) (bad : Bool) (h : Inv s) : Inv (s.store a bs bad) := by
  unfold State.store
  refine inv_foldl _ (fun s w hs => ?_) _ _ (inv_setBytes bs s a h)
  split
  · exact inv_mergePoison s _ _ _ _ hs
  · exact hs

/-- Writing a masked line keeps the form. -/
theorem inv_storeLine (s : State) (a : Nat) (data : Line512) (mask : BitVec 64) (poison : BitVec 8) (h : Inv s) :
    Inv (s.storeLine a data mask poison) := by
  unfold State.storeLine
  refine inv_foldl _ (fun s k hs => ?_) _ _ (inv_foldl _ (fun s i hs => ?_) _ s h)
  · extract_lets m
    split
    · exact hs
    · split
      · exact inv_setBad s _ _ hs
      · split
        · exact inv_setBad s _ _ hs
        · exact hs
  · split
    · exact inv_setByte s _ _ hs
    · exact hs

/-- Leaving bytes and poison out, as a wipe, a release and a bank that is given back do, keeps the form. -/
theorem inv_filter (s : State) (q : Host.Cell → Bool) (r : Nat × Bool → Bool) (h : Inv s) :
    Inv { s with mem := s.mem.filter q, memBad := s.memBad.filter r } :=
  ⟨SMap.wf_filter _ _ _ h.1, SMap.wf_filter _ _ _ h.2⟩

/-! ## Words written at home -/

theorem ckptWrite_mem (s : State) (a : Nat) : (s.ckptWrite a).mem = s.mem ∧ (s.ckptWrite a).memBad = s.memBad := by
  unfold State.ckptWrite
  split <;> exact ⟨rfl, rfl⟩

/-- What changes neither the bytes nor their poison: the maps are the same, and as much is undefined. -/
structure SameBytes (s t : State) : Prop where
  mem : t.mem = s.mem
  memBad : t.memBad = s.memBad
  vague : ∀ x, t.vague.at_ x = s.vague.at_ x

namespace SameBytes
variable {s t u : State}
theorem rfl' (s : State) : SameBytes s s := ⟨rfl, rfl, fun _ => rfl⟩
theorem trans (h : SameBytes s t) (g : SameBytes t u) : SameBytes s u :=
  ⟨g.mem.trans h.mem, g.memBad.trans h.memBad, fun x => (g.vague x).trans (h.vague x)⟩
theorem byteAt (h : SameBytes s t) (x : Nat) : t.byteAt x = s.byteAt x := by rw [State.byteAt, State.byteAt, h.vague, h.mem]
theorem badAt (h : SameBytes s t) (x : Nat) : t.badAt x = s.badAt x := by rw [State.badAt, State.badAt, h.memBad]
theorem inv (h : SameBytes s t) (i : Inv s) : Inv t := inv_of_same i h.mem h.memBad
end SameBytes

theorem OnlyShows.bytes {s t : State} (h : OnlyShows s t) : SameBytes s t := by
  obtain ⟨_, _, _, _, _, rfl⟩ := h
  exact ⟨rfl, rfl, fun _ => rfl⟩

theorem freshCell_bytes (s : State) (d : Bool) (w : Nat) : SameBytes s (s.freshCell d w) := by
  unfold State.freshCell
  split <;> exact ⟨rfl, rfl, fun _ => rfl⟩

theorem spoilCell_bytes (s : State) (d : Bool) (w : Nat) (m : BitVec 80) : SameBytes s (s.spoilCell d w m) := by
  unfold State.spoilCell
  split <;> exact ⟨rfl, rfl, fun _ => rfl⟩

theorem applyHrtFlip_bytes (s : State) (a : Nat) : SameBytes s (s.applyHrtFlip a) := by
  unfold State.applyHrtFlip
  dsimp only
  split
  · exact (wr_shows s _ _ _).bytes.trans (spoilCell_bytes _ _ _ _)
  · exact .rfl' s

theorem wroteWord_bytes (s : State) (a : Nat) : SameBytes s (s.wroteWord a) := by
  unfold State.wroteWord
  have h := (freshCell_bytes s false (a / 8)).trans (freshCell_bytes _ true (a / 8))
  refine SameBytes.trans (t := _) ⟨?_, ?_, ?_⟩ (applyHrtFlip_bytes _ _)
  · exact h.mem
  · exact h.memBad
  · exact h.vague

theorem ckptWrite_bytes (s : State) (a : Nat) : SameBytes s (s.ckptWrite a) :=
  ⟨(ckptWrite_mem s a).1, (ckptWrite_mem s a).2, fun _ => rfl⟩

theorem noteWork_bytes (s : State) (a : Nat) : SameBytes s (s.noteWork a) := by
  unfold State.noteWork
  split
  · split
    · exact .rfl' s
    · exact ⟨rfl, rfl, fun _ => rfl⟩
  · exact .rfl' s

theorem addHash_bytes (s : State) (n t : Nat) : SameBytes s (s.addHash n t) := ⟨rfl, rfl, fun _ => rfl⟩

/-- A whole word written at its home reads back with its poison. -/
theorem homeWord_bytes (s : State) (a v : Nat) (bad : Bool) :
    SameBytes ((s.setBytes a (leBytes 8 v)).setBad (a / 8) bad) (s.homeWord a v bad) :=
  (((wroteWord_bytes _ a).trans (ckptWrite_bytes _ a)).trans (noteWork_bytes _ a)).trans (addHash_bytes _ _ _)

/-- A word written at its home leaves every other byte. -/
theorem byteAt_homeWord_ne (s : State) (a v x : Nat) (bad : Bool) (h : x < a ∨ a + 8 ≤ x) :
    (s.homeWord a v bad).byteAt x = s.byteAt x := by
  rw [(homeWord_bytes s a v bad).byteAt, byteAt_setBad, byteAt_setBytes_ne _ _ _ _ (by simpa using h)]

theorem badAt_homeWord (s : State) (a v x : Nat) (bad : Bool) :
    (s.homeWord a v bad).badAt x = if x / 8 = a / 8 then bad else s.badAt x := by
  rw [(homeWord_bytes s a v bad).badAt, badAt_setBad, State.badAt, State.badAt, memBad_setBytes]

theorem inv_homeWord (s : State) (a v : Nat) (bad : Bool) (h : Inv s) : Inv (s.homeWord a v bad) :=
  (homeWord_bytes s a v bad).inv (inv_setBad _ (a / 8) bad (inv_setBytes (leBytes 8 v) s a h))

theorem rawWord_bytes (s : State) (a v : Nat) (bad : Bool) :
    SameBytes ((s.setBytes a (leBytes 8 v)).setBad (a / 8) bad) (s.rawWord a v bad) :=
  (wroteWord_bytes _ a).trans (ckptWrite_bytes _ a)

theorem inv_rawWord (s : State) (a v : Nat) (bad : Bool) (h : Inv s) : Inv (s.rawWord a v bad) :=
  (rawWord_bytes s a v bad).inv (inv_setBad _ (a / 8) bad (inv_setBytes (leBytes 8 v) s a h))

theorem inv_rawWords (s : State) (a : Nat) (l : List Byte) (h : Inv s) : Inv (s.rawWords a l) := by
  unfold State.rawWords
  exact inv_foldl _ (fun s e hs => inv_rawWord s _ _ _ hs) _ s h

end Sys2Proof.Machine
end

