-- ==== Sys2Proof/Laws/Issue.lean ====
section
/-! SUPPORT. Failing and quenching a stoke, tile exceptions, and the frame of a Yalzu issue: what each can do. -/
namespace Sys2Proof.Machine

/-! ## Failure sources and quench -/

/-- A source in a stoke that does not work changes nothing. -/
theorem failWith_idle (s : State) (c : Nat) (h : s.running = false) : s.failWith c = s := by
  simp [State.failWith, h]

/-- A failure source changes the stoke unit and registers alone. -/
theorem failWith_rest (s : State) (c : Nat) : ∃ r u, s.failWith c = { s with regs := r, stoke := u } := by
  unfold State.failWith
  split
  · exact ⟨s.regs, s.stoke, rfl⟩
  · split
    · dsimp only
      split
      · exact ⟨_, _, rfl⟩
      · exact ⟨s.regs, _, rfl⟩
    · exact ⟨s.regs, _, rfl⟩

/-- Up to the commit point the source joins those of the stoke that ends. -/
theorem failWith_fails (s : State) (c : Nat) (h : s.running = true) (p : s.stoke.phase.rank ≤ Phase.writeback.rank) :
    (s.failWith c).stoke.fails = s.stoke.fails ++ [c] := by
  unfold State.failWith
  rw [if_neg (by simp [h]), if_pos p]
  dsimp only
  split <;> rfl

/-- After the commit point it joins those of the next. -/
theorem failWith_next (s : State) (c : Nat) (h : s.running = true) (p : ¬ s.stoke.phase.rank ≤ Phase.writeback.rank) :
    (s.failWith c).stoke = s.stoke.addNext c s.now := by
  unfold State.failWith
  rw [if_neg (by simp [h]), if_neg p]

theorem quench_idle (s : State) (c : Nat) (b : Bool) (h : s.running = false) :
    s.quench c b = s.wr pgStk Reg.stkFailCause c := by
  simp [State.quench, h]

/-! ## What concerns one tile -/

/-- t differs from s at most in what it shows, the free values drawn, one tile, the stoke unit and the pair logic. -/
def OnlyTile (n : Nat) (s t : State) : Prop :=
  (∃ r o p k c f ts u q, t = { s with
    regs := r, out := o, msixPend := p, smoke := k, firstAt := c, fresh := f, tiles := ts, stoke := u, pair := q }) ∧
  ∀ m, m ≠ n → t.tile m = s.tile m

namespace OnlyTile

variable {n : Nat} {s t u : State}

theorem rfl' (n : Nat) (s : State) : OnlyTile n s s :=
  ⟨⟨s.regs, s.out, s.msixPend, s.smoke, s.firstAt, s.fresh, s.tiles, s.stoke, s.pair, rfl⟩, fun _ _ => rfl⟩

theorem trans (h : OnlyTile n s t) (g : OnlyTile n t u) : OnlyTile n s u := by
  obtain ⟨⟨r, o, p, k, c, f, ts, w, q, rfl⟩, h2⟩ := h
  obtain ⟨⟨r', o', p', k', c', f', ts', w', q', rfl⟩, g2⟩ := g
  exact ⟨⟨r', o', p', k', c', f', ts', w', q', rfl⟩, fun m hm => (g2 m hm).trans (h2 m hm)⟩

theorem mem (h : OnlyTile n s t) : t.mem = s.mem := by obtain ⟨⟨_, _, _, _, _, _, _, _, _, rfl⟩, _⟩ := h; rfl
theorem memBad (h : OnlyTile n s t) : t.memBad = s.memBad := by obtain ⟨⟨_, _, _, _, _, _, _, _, _, rfl⟩, _⟩ := h; rfl
theorem hashes (h : OnlyTile n s t) : t.hashes = s.hashes := by obtain ⟨⟨_, _, _, _, _, _, _, _, _, rfl⟩, _⟩ := h; rfl
theorem pending (h : OnlyTile n s t) : t.pending = s.pending := by obtain ⟨⟨_, _, _, _, _, _, _, _, _, rfl⟩, _⟩ := h; rfl
theorem rest (h : OnlyTile n s t) : SameRest s t := by
  obtain ⟨⟨_, _, _, _, _, _, _, _, _, rfl⟩, _⟩ := h
  exact ⟨rfl, rfl, rfl, rfl, rfl, rfl⟩
theorem inv (h : OnlyTile n s t) (i : Inv s) : Inv t := inv_of_same i h.mem h.memBad
theorem bytes (h : OnlyTile n s t) : SameBytes s t := by
  obtain ⟨⟨_, _, _, _, _, _, _, _, _, rfl⟩, _⟩ := h
  exact ⟨rfl, rfl, fun _ => rfl⟩
theorem sameMem (h : OnlyTile n s t) : SameMem s t :=
  ⟨h.bytes.byteAt, h.bytes.badAt, fun k => by rw [h.hashes]⟩

end OnlyTile

theorem OnlyShows.onlyTile {s t : State} (h : OnlyShows s t) (n : Nat) : OnlyTile n s t := by
  obtain ⟨r, o, p, k, c, rfl⟩ := h
  exact ⟨⟨r, o, p, k, c, s.fresh, s.tiles, s.stoke, s.pair, rfl⟩, fun _ _ => rfl⟩

theorem tile_updTile (s : State) (n m : Nat) (f : Tile → Tile) :
    (s.updTile n f).tile m = if m = n then f (s.tile n) else s.tile m := by
  unfold State.tile State.updTile
  split
  · subst_vars; exact SMap.getD_modD_same _ _ _ _
  · exact SMap.getD_modD_ne _ _ _ _ _ _ ‹_›

theorem updTile_only (s : State) (n : Nat) (f : Tile → Tile) : OnlyTile n s (s.updTile n f) :=
  ⟨⟨s.regs, s.out, s.msixPend, s.smoke, s.firstAt, s.fresh, _, s.stoke, s.pair, rfl⟩, fun m hm => by rw [tile_updTile, if_neg hm]⟩

theorem updCtx_only (s : State) (n c : Nat) (f : Ctx → Ctx) : OnlyTile n s (s.updCtx n c f) := updTile_only s n _

theorem past_only (s : State) (i : Issue) : OnlyTile i.tile s (s.past i) := updCtx_only s _ _ _

theorem tookFree_only (s : State) (n : Nat) : OnlyTile n s s.tookFree :=
  ⟨⟨s.regs, s.out, s.msixPend, s.smoke, s.firstAt, _, s.tiles, s.stoke, s.pair, rfl⟩, fun _ _ => rfl⟩

theorem failWith_only (s : State) (n c : Nat) : OnlyTile n s (s.failWith c) := by
  obtain ⟨r, u, h⟩ := failWith_rest s c
  rw [h]
  exact ⟨⟨r, s.out, s.msixPend, s.smoke, s.firstAt, s.fresh, s.tiles, u, s.pair, rfl⟩, fun _ _ => rfl⟩

theorem consumeAt_only (s : State) (n : Nat) : OnlyTile n s (s.consumeAt n) :=
  (updTile_only s n _).trans (failWith_only _ n 2)

theorem logFault_only (s : State) (n b : Nat) : OnlyTile n s (s.logFault b) := by
  refine OnlyTile.trans ?_ ((wr_shows _ _ _ _).onlyTile n)
  exact ⟨⟨s.regs, s.out, s.msixPend, s.smoke, s.firstAt, s.fresh, s.tiles, s.stoke, _, rfl⟩, fun _ _ => rfl⟩

/-- A residue or parity mismatch concerns the tile, the fault summary and the stoke. -/
theorem spoil_only (s : State) (i : Issue) : OnlyTile i.tile s (s.spoil i) := by
  unfold State.spoil
  dsimp only
  have h : OnlyTile i.tile s (if i.residue = 0 then s else s.logFault 6) := by
    split
    · exact .rfl' _ s
    · exact logFault_only s _ _
  generalize (if i.residue = 0 then s else s.logFault 6) = t at h ⊢
  refine h.trans ?_
  split
  · exact consumeAt_only _ _
  · exact .rfl' _ _

/-! ## Overrun and exceptions -/

theorem overrunTile_only (s : State) (n kind entry cyc : Nat) : OnlyTile n s (s.overrunTile n kind entry cyc) := by
  unfold State.overrunTile
  split
  · split
    · exact (wrs_shows s _ _).onlyTile n
    · exact .rfl' n s
  · exact (((wrs_shows s _ _).onlyTile n).trans (updTile_only _ n _)).trans ((setCause_shows _ _ _).onlyTile n)

/-- A tile that enters overrun has nothing resident. -/
theorem overrunTile_stops (s : State) (n kind entry cyc : Nat) (h : (s.tile n).overrun = false) :
    ((s.overrunTile n kind entry cyc).tile n).overrun = true ∧ ((s.overrunTile n kind entry cyc).tile n).ctxs = [] := by
  unfold State.overrunTile
  rw [if_neg (by simp [h])]
  have e : ∀ (u : State) p b m, (u.setCause p b).tile m = u.tile m := fun u p b m => by
    rw [State.tile, State.tile, (setCause_shows u p b).tiles]
  rw [e, tile_updTile, if_pos rfl]
  exact ⟨rfl, rfl⟩

/-- An exception concerns its tile, registers and the free value of ERR_FIRST.DETAIL. -/
theorem raiseExc_only (s : State) (n c code : Nat) (lanes : BitVec 32) (pc entry cyc : Nat) :
    OnlyTile n s (s.raiseExc n c code lanes pc entry cyc) := by
  unfold State.raiseExc
  dsimp only
  refine OnlyTile.trans ?_ (overrunTile_only _ n 4 entry cyc)
  refine OnlyTile.trans ?_ ((setCause_shows _ _ _).onlyTile n)
  refine OnlyTile.trans ?_ (tookFree_only _ n)
  refine OnlyTile.trans ?_ ((err_shows _ _ _ _).onlyTile n)
  split
  · exact .rfl' n s
  · exact ((wrs_shows s _ _).onlyTile n).trans (updTile_only _ n _)

/-! ## The frame of an issue -/

theorem atCycle_shows (s : State) (c : Nat) : OnlyShows s (s.atCycle c) := wr_shows s _ _ _

/-- A command of a tile at a cycle concerns the tile alone where its effect does. -/
theorem inCycle_only (s : State) (n cyc : Nat) (f : State → State) (h : ∀ t, OnlyTile n t (f t)) :
    OnlyTile n s (s.inCycle n cyc f) := by
  unfold State.inCycle
  refine ((atCycle_shows s cyc).onlyTile n).trans ?_
  dsimp only
  split
  · split
    · exact ((((updTile_only _ n _).trans ((wr_shows _ _ _ _).onlyTile n)).trans (h _)).trans (updTile_only _ n _)).trans
        ((wr_shows _ _ _ _).onlyTile n)
    · exact h _
  · exact h _

/-- Outside the cycle of an overrun a command has its effect at its cycle. -/
theorem inCycle_going {s : State} {n : Nat} (cyc : Nat) (f : State → State) (h : (s.tile n).stop = none) :
    s.inCycle n cyc f = f (s.atCycle cyc) := by
  unfold State.inCycle
  have e : ((s.atCycle cyc).tile n).stop = none := h
  simp only [e]

theorem fetched_only (s : State) (i : Issue) (u : Sub) : OnlyTile i.tile s (s.fetched i u) := by
  unfold State.fetched State.noteMerge State.fetch
  refine OnlyTile.trans ?_ (updTile_only _ _ _)
  split
  · exact (wr_shows _ _ _ _).onlyTile _
  · exact .rfl' _ s

/-- The state in which the body of an issue runs: at its cycle, with its word fetched and counted. -/
def State.issuing (s : State) (i : Issue) (u : Sub) : State :=
  ((s.atCycle i.cyc.toNat).fetched i u).count (0x100 + i.tile) 1 1

theorem issuing_only (s : State) (i : Issue) (u : Sub) : OnlyTile i.tile s (s.issuing i u) :=
  (((atCycle_shows s _).onlyTile _).trans (fetched_only _ i u)).trans ((count_shows _ _ _ _).onlyTile _)

/-- An instruction of a ready subgroup at a clean word of the code region that spells it, in a form that is legal, runs its
body. -/
theorem issueAs_runs {s : State} {c : Instr} {i : Issue} {x : Ctx} {u : Sub} (h : Issues s i x u) (w : i.spells c = true)
    (li : i.listed = true) (legal : Ctx → Bool) (body : State → Ctx → Sub → BitVec 32 → State) (hl : legal x = true) :
    s.issueAs c i legal body = body (s.issuing i u) x u (enabledMask x u i) := by
  unfold State.issueAs
  rw [if_neg (by simp [w]), inCycle_going _ _ h.going]
  have e1 : (s.atCycle i.cyc.toNat).ctx i.tile i.ctx = some x := h.ctx
  have e2 : (s.atCycle i.cyc.toNat).inCode u.pc 8 = true := h.code
  have e3 : (s.atCycle i.cyc.toNat).fetchBad i.tile u.pc = false := h.clean
  simp only [e1, h.sub, h.ready, e2, e3, hl, li]
  simp [State.issuing]

/-- Where the body concerns its tile alone, so does the whole issue, whatever its word, its form and its exception. -/
theorem issueAs_only (s : State) (c : Instr) (i : Issue) (legal : Ctx → Bool) (body : State → Ctx → Sub → BitVec 32 → State)
    (h : ∀ t x u en, OnlyTile i.tile t (body t x u en)) : OnlyTile i.tile s (s.issueAs c i legal body) := by
  unfold State.issueAs
  split
  · exact .rfl' _ s
  · refine inCycle_only s _ _ _ (fun s => ?_)
    dsimp only
    split
    · exact .rfl' _ s
    · split
      · exact .rfl' _ s
      · split
        · exact .rfl' _ s
        · split
          · exact raiseExc_only _ _ _ _ _ _ _ _
          · split
            · exact ((updTile_only s _ _).trans (consumeAt_only _ _)).trans (overrunTile_only _ _ _ _ _)
            · split
              · unfold State.raiseIllegal
                split
                · exact (fetched_only _ i _).trans (past_only _ i)
                · exact (fetched_only _ i _).trans (raiseExc_only _ _ _ _ _ _ _ _)
              · exact ((fetched_only _ i _).trans ((count_shows _ _ _ _).onlyTile _)).trans (h _ _ _ _)

/-- A memory instruction without an access exception has its effect. -/
theorem memIssue_runs {s : State} {c : Instr} {i : Issue} {x : Ctx} {u : Sub} (h : Issues s i x u) (w : i.spells c = true)
    (li : i.listed = true) (ord write : Bool) (len : Nat) (extra : Nat → Bool) (effect : State → Ctx → BitVec 32 → State)
    (he : enabledMask x u i ≠ 0)
    (hw : worstOf ((accessLanes i (enabledMask x u i)).map (fun j =>
        let a := mAddr i ord x j
        (j, if a % len ≠ 0 then some 0x11 else if extra a then some 0x12
            else (s.issuing i u).accessFault i.tile i.mGlob a len write))) = none) :
    s.memIssue c i true ord write len extra effect = effect ((s.issuing i u).spoil i) x (enabledMask x u i) := by
  unfold State.memIssue
  rw [issueAs_runs h w li _ _ rfl, if_neg he]
  dsimp only at hw ⊢
  rw [hw]

/-- A memory instruction whose effect concerns its tile alone does so in every form and with every exception. -/
theorem memIssue_only (s : State) (c : Instr) (i : Issue) (legal ord write : Bool) (len : Nat) (extra : Nat → Bool)
    (effect : State → Ctx → BitVec 32 → State) (h : ∀ t x en, OnlyTile i.tile t (effect t x en)) :
    OnlyTile i.tile s (s.memIssue c i legal ord write len extra effect) := by
  unfold State.memIssue
  refine issueAs_only s c i _ _ (fun t x u en => ?_)
  dsimp only
  split
  · exact past_only t i
  · split
    · exact raiseExc_only _ _ _ _ _ _ _ _
    · exact (spoil_only t i).trans (h _ _ _)

/-- A word that spells an instruction is a listed one. -/
theorem spells_listed {i : Issue} {c : Instr} (h : i.spells c = true) : i.listed = true := by
  unfold Issue.spells at h
  unfold Issue.listed
  generalize i.code = k at h ⊢
  cases c <;> simp only [opCodes, List.contains_nil, Bool.false_eq_true] at h <;>
    (simp only [List.contains_cons, List.contains_nil, Bool.or_false, Bool.or_eq_true, beq_iff_eq] at h
     first
       | (subst h; decide)
       | (rcases h with h | h <;> subst h <;> decide))

/-- A branch concerns its tile: it goes on, diverges or raises an exception. -/
theorem branch_only (s : State) (i : Issue) (x : Ctx) (u : Sub) (en : BitVec 32) (target : Nat) :
    OnlyTile i.tile s (s.branch i x u en target) := by
  unfold State.branch
  dsimp only
  split
  · exact past_only s i
  · split
    · exact raiseExc_only _ _ _ _ _ _ _ _
    · split
      · exact updCtx_only _ _ _ _
      · exact ((bump_shows s _ _ _).onlyTile _).trans (updCtx_only _ _ _ _)

/-! ## Reads of descriptor operations -/

theorem foldl_fixed {α β : Type} (f : β → α → β) (b : β) (l : List α) (h : ∀ a ∈ l, f b a = b) : l.foldl f b = b := by
  induction l with
  | nil => rfl
  | cons a l ih =>
    rw [List.foldl_cons, h a (List.mem_cons_self ..)]
    exact ih (fun c hc => h c (List.mem_cons_of_mem _ hc))

/-- A read of scratchpad lines that all carry the CRC of their data changes nothing. -/
theorem checkExtent_sound (s : State) (n : Nat) (glob : Bool) (a len : Nat) (h : (s.tile n).scratchDiff = []) :
    s.checkExtent n glob a len = s := by
  unfold State.checkExtent
  split
  · rfl
  · rw [h]; rfl

/-- Nor does the check of a pass's operands. -/
theorem mxCheck_sound (s : State) (n : Nat) (d : MxDesc) (h : (s.tile n).scratchDiff = []) : s.mxCheck n d = s := by
  unfold State.mxCheck
  refine foldl_fixed _ s _ (fun e _ => ?_)
  split
  · rfl
  · exact foldl_fixed _ s _ (fun r _ => checkExtent_sound s n _ _ _ h)

end Sys2Proof.Machine
end

