-- ==== Sys2Proof/WellFormed.lean ====
section
/-! DEFINITION. Which commands a sender can send: operand ranges that the spec gives and the operand types do not hold
already. The machine answers every command; a command that is not well formed names a page, a flue or a width that does
not exist. -/
namespace Sys2Proof.WellFormed

/-- A flue port page of a tile, or a lower flue page (spec/02 R72, spec/10 R388). -/
def fluePageOk (page : Nat) : Bool := decide (page < 160) || (decide (256 ≤ page) && decide (page < 272))

/-- A flue of a bundle of a page (spec/10 R365, R388). -/
def flueOk (page bundle flue : Nat) : Bool :=
  fluePageOk page && decide (bundle < if page < 256 then 162 else 195) && decide (flue < 68)

/-- A counter page (spec/02 R72). -/
def counterPageOk (n : Nat) : Bool :=
  (decide (0x100 ≤ n) && decide (n < 0x100 + 160)) || (decide (0x200 ≤ n) && decide (n < 0x200 + 160)) ||
  (decide (0x300 ≤ n) && decide (n < 0x300 + 144)) || (decide (0x400 ≤ n) && decide (n < 0x403))

/-- An access of 32 or 64 bits at its natural alignment (spec/02 R55). -/
def alignedOk (a : Access) (wide : Bool) : Bool := a.off.toNat % (if wide then 8 else 4) == 0

/-- A request lies in one row, a write covers bytes of its extent only, and its flues exist (spec/09 R327, spec/10 R388). -/
def requestOk (r : HearthReq) : Bool :=
  r.len != 0 && decide (r.addr.toNat % 512 + r.len ≤ 512) &&
  (!r.write || r.mask != 0) &&
  (List.range 512).all (fun k => !r.mask.getLsbD k ||
    (decide (r.addr.toNat % 512 ≤ k) && decide (k < r.addr.toNat % 512 + r.len))) &&
  r.flues.all (fun u => flueOk u.page u.bundle u.flue)

/-- A command with its operands in range. -/
def wf : Instr → Bool
  | .remapWindow found => found.all (fun e => flueOk e.1 e.2.1 e.2.2)
  | .hearthRequest r => requestOk r
  | .linkCrcRetry _ _ addr len => addr % 64 == 0 && len != 0
  | .guaranteeWindowEnd _ _ _ obs => obs.all (fun o => decide (o.cls < 5))
  | .tc0WaitMiss _ _ _ taken _ _ => decide (taken.length ≤ 5)
  | .laneCountMax page bundle flue => flueOk page bundle flue
  | .fluSweep page => fluePageOk page
  | .sqTailDoorbell _ _ entries _ => entries.all (fun e => e.length == 8)
  | .hostMemWrite _ off _ _ _ => off.toNat % 64 == 0
  | .biResponse addr _ => addr.toNat % 64 == 0
  | .monitorSample l => l.all (fun e => decide (e.1.val < 2) || decide (e.2.1.val < 32))
  | .getReport _ nonce => nonce.length == 32
  | .i3cAddressAssign static _ => static != some 0
  | .recBegin payload _ _ => payload.length == 4
  | .smkCounterClr page => counterPageOk page.toNat
  | .registerWrite a wide _ => alignedOk a wide
  | .rocRead a wide => alignedOk a wide
  | .pairLoRead a => alignedOk a false
  | .pairLoWrite a _ => alignedOk a false
  | .pairHiWrite a _ => alignedOk a false
  | .badWidthAccess a bytes _ => !((bytes == 4 || bytes == 8) && a.off.toNat % bytes == 0)
  | .fluFlip page _ => fluePageOk page.toNat
  | .stokeEvent _ | .stokeSyncInEdge _ | .syncWinExpiry | .syncLoss | .workDeadline | .boundaryWriteback
  | .commitPoint | .digestFold | .digestCompare | .replayDecision | .latchPoint | .digestSend | .tableSwitch
  | .mirrorReplayCutoff | .workListPrefetch | .crackMeasure _ | .stkStart | .stkStop | .stkQuench _ | .stkResume
  | .stkPeriodWrite _ | .launchIssue _ _ | .waitIssue _ _ | .markIssue _ _ | .workListEnd _ _ | .entryDeadline _ _
  | .add _ | .sub _ | .mul _ | .mulhi _ | .fma _ | .min _ | .max _ | .and _ | .or _ | .xor _ | .shl _ | .shr _
  | .cmp _ | .vecSel _ | .cvt _ | .vecDiv _ | .vecSqrt _ | .vecPack _ | .vecUnpk _ | .mov _ | .abs _ | .neg _
  | .vecFn _ | .popc _ | .clz _ | .sclFlags _ | .sclCyc _ | .vecVote _ | .vecBcast _ | .vecShfl _ | .vecPerm _
  | .vecRed _ | .vecScan _ | .movK _ | .ld _ | .st _ | .atomAdd _ | .atomMin _ | .atomMax _ | .atomAnd _ | .atomOr _
  | .atomXor _ | .atomXchg _ | .atomCas _ | .hredAdd _ | .hredMin _ | .hredMax _ | .hredAnd _ | .hredOr _
  | .hredXor _ | .hredAddOrd _ | .lockAcq _ | .lockRel _ | .lockPoll _ _ _ _ | .bra _ | .brx _ | .mxfLd _ | .mxfSt _
  | .mxfMma _ | .mxfRel _ | .mxdMma _ | .cpy _ | .vecEpi _ | .nop _ | .exit _ | .barG _ | .barL _ | .fenceT _
  | .fenceH _ | .fenceX _ | .evtSet _ | .evtWait _ | .evtTest _ | .tokWait _ | .tokTest _ | .embGen _ | .embGen64 _
  | .l1FillReturn _ _ _ | .dirtyLineCleaner _ | .hearthFillReturn _ _ _ | .reductionAccept _ | .reductionApply _
  | .ordResend _ | .victimWriteback _ | .writebackAck _ | .correctionWriteback _ | .repairCopyDone _
  | .ceBucketLimit _ | .bankUeRetire _ _ | .channelUeFence _ | .nearWipeDone | .pinDrainDone _ | .farCompletion _ _ _
  | .farTimeout _ | .farLinkDown _ | .bellowsLevelChange _ _ _ | .refx2Change _ _ | .mxaPassRelease _ _ _
  | .mxaRetryStart _ | .substitutionDone _ | .mxfMmaRelease _ _ | .epiStart _ | .epiDone _ _ | .cpyDone _ _ _
  | .laneCountDecay | .stoke | .record | .cqHeadDoorbell _ _ | .queueEnable _ _ | .planLoad | .planStaged _ _
  | .planWithdraw | .planQuery | .plannedDmaIssue _ _ | .plannedDmaDone _ _ _ | .checkpointCopyEnd _
  | .ingestPerform _ _ _ | .ingestDescriptorDone _ _ _ _ | .egressPerform _ _ _ | .hostMemRead _ _ _ | .hostSnoop _
  | .configRequest _ | .cxpLinkUp _ _ _ _ _ _ | .cxpLinkDown _ | .cxpRetrain _ | .cxpFlitReceive _ _ _ _
  | .cxpFlip _ _ | .kenkaLinkUp _ _ _ | .kenkaFlitReceive _ _ _ | .kenkaRetrainDone | .kenkaLinkLoss | .knkRetrain
  | .knkHandoff | .knkKeep | .knkResyncTx _ | .digest _ | .replay _ | .heartbeat _ | .recordMsg _ _ | .handoff _
  | .splitMsg _ | .ckpt _ | .readyMsg _ | .ingest _ _ | .rsRows _ _ | .rsZero _ | .rsAck _ | .rsEnd _ _
  | .invalidMessage | .hbTransmit | .hbPulseReceive _ | .hbPathLoss _ | .dualLitDetect | .resyncHoldExpiry
  | .telemetryPoll _ _ _ | .powerCapEval | .damperChange | .hobTargetReached | .pwrWarnAssert | .pwrWarnRelease _
  | .rideExpiry | .droopWarn _ _ _ | .droopRecover _ _ | .droopTrip _ _ _ | .sliceFail _ _ | .hobWakeKindle _
  | .hobWakeUp _ _ _ _ | .diodeSample _ | .thermalStepTimer | .plausEval _ | .farRescan _ | .farSanitize _
  | .powerGoodRise _ _ | .powerGoodFall | .resetNAssert | .resetNRelease _ | .perst0NAssert | .perst0NRelease _
  | .cxp0HotReset _ | .watchdogExpiry _ | .thermtripAssert | .diodeTrip _ _ | .thmTripClear | .kindlingStage _ _
  | .hobUpCheck _ _ _ _ _ _ | .microcodePacket _ _ _ _ | .microcodeRound | .channelTrained _ _ _ _ _ _ _
  | .stepLimitExpiry | .ready _ _ | .trainingRecordSave | .trecDiscard | .fastNextWrite _ | .trngHealthFail
  | .getCerts _ | .getLog _ _ | .fwWrite _ _ _ _ | .fwCommit _ _ | .lcNonce _ _ | .lcToken _ _ _ | .cdatRead
  | .farSanitizeDone _ _ _ _ | .eventRead _ _ | .legacyRead _ _ | .recData _ _ | .recCommit _ _ | .tapBypass
  | .tapIdcode | .tapSamplePreload _ _ | .tapExtest | .tapClamp | .tapHighz | .smkFlush | .smkGroupDeliver | .scrub
  | .scrubEnd _ _ | .intAck _ | .intRouteWrite _ _ | .intCtrlWrite _ | .msixUnmask _ | .unmappedAccess _ _ _
  | .fencedPageAccess _ _ _ | .darkPageAccess _ _ _ | .legacyPageWrite _ _ | .mxaFlip _ _ | .tlmFlip _ _
  | .hrtFlip _ _ | .gdcFlip _ _ | .knkFlip _ => true

end Sys2Proof.WellFormed
end

