-- ==== Sys2Proof/Tests/Slice0.lean ====
section
/-! SUPPORT. Tests: the checks of WellFormed, one-step runs on small states with results from the spec, and for every
statement with hypotheses a state and operands that meet them. -/
open Sys2Proof Sys2Proof.Machine
namespace Sys2Proof.Tests
set_option Elab.async false

/-! ## Small states -/

/-- A small module: every register at its reset value but for those a test writes. -/
def base : State := { State.reset with regs := [] }

/-- The state after a command. -/
def after (c : Instr) (s : State) : State :=
  match exec c s with
  | .next t => t
  | _ => s

def region (id kind attr base len : Nat) : Region :=
  { id := id, kind := kind, attr := attr, base := base, len := len, ck := 0, rsv := 0 }

/-- A plan with code at the start of the near window and data behind it and in the hearth. -/
def plan0 : Plan :=
  { flags := 2, imageLen := 0, nphase := 1, tiles := 144, slices := 0, treeId := 0, period := 940000, wlStride := 0, seed := 77,
    fill := 0, pmapId := 0, cmapId := 0, cxp1Req := 0, svcMap := 0, share := 0, guar := 0, ucodeHash := [], planHash := List.replicate 48 0,
    imageHash := [], tileMap := 0, slowTiles := 0, slowChan := 0, slowSvc := 0, narrowChan := 0,
    regions := [region 1 1 7 (2 ^ 39) 65536, region 2 1 3 (2 ^ 39 + 65536) 65536, region 3 0 3 0 65536],
    pins := [], wldir := [], dmadir := [], phases := [], rtab := [], hframe := [], cframe := [], hloads := [], starts := [] }

def planned : State := { base with plans := { base.plans with active := some plan0 } }

open Sys2Proof.WellFormed

/-! ## WellFormed refuses an ill-formed command for each of its checks -/

def acc (off : Nat) : Access := { tender := false, bar2 := false, off := BitVec.ofNat 32 off }
def flue (page bundle flue : Nat) : FlueUpset := { page := page, bundle := bundle, flue := flue, second := false, word := 0, bit := 0 }
def hreq (len : Nat) (flues : List FlueUpset) : HearthReq :=
  { tile := none, tc := 0, late := false, addr := 2 ^ 39, len := len, write := false, mask := 0, hint := 0, slots := 1, cells := [],
    flues := flues, failed := false }

theorem test_wf_flues : wf (.remapWindow [(160, 0, 0)]) = false ∧ wf (.remapWindow [(0, 162, 0)]) = false ∧
    wf (.remapWindow [(0, 0, 68)]) = false ∧ wf (.laneCountMax 272 0 0) = false ∧ wf (.fluSweep 160) = false ∧
    wf (.fluFlip 160 0) = false ∧ wf (.remapWindow [(159, 161, 67), (256, 194, 0)]) = true := by decide

theorem test_wf_requests : wf (.hearthRequest (hreq 0 [])) = false ∧ wf (.hearthRequest (hreq 8 [flue 160 0 0])) = false ∧
    wf (.hearthRequest (hreq 8 [flue 0 0 68])) = false ∧ wf (.hearthRequest (hreq 513 [])) = false ∧
    wf (.hearthRequest { hreq 8 [] with write := true }) = false ∧ wf (.hearthRequest { hreq 8 [] with mask := 2 ^ 8 }) = false ∧
    wf (.hearthRequest { hreq 8 [flue 271 194 67] with write := true, mask := 2 ^ 7 }) = true ∧
    wf (.linkCrcRetry 0 0 32 64) = false ∧ wf (.linkCrcRetry 0 0 64 0) = false ∧ wf (.linkCrcRetry 0 0 64 64) = true := by decide +kernel

theorem test_wf_traffic : wf (.guaranteeWindowEnd 0 0 0 [{ cls := 5, free := 0, granted := 0, taken := [] }]) = false ∧
    wf (.tc0WaitMiss 0 0 0 [0, 0, 0, 0, 0, 0] 0 0) = false ∧ wf (.smkCounterClr 0x403) = false ∧
    wf (.smkCounterClr 0x402) = true := by decide

theorem test_wf_host : wf (.sqTailDoorbell 0 1 [[0, 0]] true) = false ∧ wf (.sqTailDoorbell 0 1 [List.replicate 8 0] true) = true ∧
    wf (.hostMemWrite true 8 0 0 0) = false ∧ wf (.biResponse 8 none) = false ∧ wf (.biResponse 64 none) = true := by decide

theorem test_wf_board : wf (.monitorSample [(2, 32, 0, true)]) = false ∧ wf (.monitorSample [(2, 31, 0, true)]) = true ∧
    wf (.getReport 0 [1, 2]) = false ∧ wf (.getReport 0 (List.replicate 32 0)) = true ∧
    wf (.i3cAddressAssign (some 0) 9) = false ∧ wf (.i3cAddressAssign (some 0x4C) 9) = true ∧
    wf (.recBegin [0, 0, 0] 0 []) = false ∧ wf (.recBegin [0, 0, 0, 0] 0 []) = true := by decide

theorem test_wf_accesses : wf (.registerWrite (acc 2) false 0) = false ∧ wf (.registerWrite (acc 4) true 0) = false ∧
    wf (.rocRead (acc 4) true) = false ∧ wf (.pairLoRead (acc 1)) = false ∧ wf (.pairLoWrite (acc 2) 0) = false ∧
    wf (.pairHiWrite (acc 3) 0) = false ∧ wf (.badWidthAccess (acc 4) 4 true) = false ∧ wf (.badWidthAccess (acc 4) 2 true) = true ∧
    wf (.registerWrite (acc 8) true 0) = true ∧ wf (.rocRead (acc 4) false) = true := by decide


/-! ## Yalzu register instructions: a ready subgroup of tile 5, context 2 -/

/-- An issue of format R by lane 0 of context 2 on tile 5: TYPE, predicate, MOD, destination, sources A, B, C, and the bits
below them. -/
def iss (type pq mod dst a b c low : Nat) : Issue :=
  { tile := 5, ctx := 2, lane := 0, cyc := 9, residue := 0, parity := false, ups := [],
    word := BitVec.ofNat 64 (type * 2 ^ 48 + pq * 2 ^ 44 + mod * 2 ^ 40 + dst * 2 ^ 33 + a * 2 ^ 26 + b * 2 ^ 19 + c * 2 ^ 12 + low) }
/-- The issue with its FMT and OP, written as 256 × FMT + OP (R137, R138, R149). -/
def coded (k : Nat) (i : Issue) : Issue := { i with word := i.word ||| BitVec.ofNat 64 (k * 2 ^ 52) }

def yU : Sub := { pc := 2 ^ 39, mask := 0xFFFFFFFF, epoch := 0, wait := .ready }
/-- v1 holds 0xFFFFFFFF in lane 31 and 7 in lane 0, v2 holds 2 in both; s0 points at data, s1 at code. -/
def yX : Ctx :=
  { entry := 1, group := 0, live := 0xFFFFFFFF, subs := [yU], stack := [],
    v := [(32, 7), (63, 0xFFFFFFFF), (64, 2), (95, 2)], vp := [], s := [(0, 128), (1, 2 ^ 39 + 64)], sp := [],
    q := [(1, 0x80000000), (2, 0)], flags := 0, locks := [], frag := false, reds := 0 }
def yTile (x : Ctx) : Tile := { Tile.empty with ctxs := [(2, x)] }
def yOf (x : Ctx) : State := { planned with tiles := [(5, yTile x)] }
def yS : State := yOf yX

theorem y_issues (i : Issue) (h1 : i.tile = 5) (h2 : i.ctx = 2) (h3 : i.lane = 0) : Issues yS i yX yU := by
  constructor
  · rw [h1]; decide +kernel
  · rw [h1, h2]; decide +kernel
  · rw [h3]; decide +kernel
  · decide
  · decide +kernel
  · rw [h1]; decide +kernel

/-- A legal issue for every form of `arithForms`, in its order, its word with the OP of R149. -/
def arithIssues : List Issue :=
  ([1, 2, 3, 4].map (fun k => coded k (iss 1 0 0 3 1 2 0 0))) ++ [coded 5 (iss 1 0 0 3 1 2 1 0)] ++
    ([6, 7, 8, 9, 0xA, 0xB, 0xC, 0x15, 0x16, 0x18, 0x19].map (fun k => coded k (iss 1 0 0 3 1 2 0 0))) ++
    ([0x10, 0x11].map (fun k => coded k (iss 5 0 0 3 1 2 0 0))) ++
    [coded 0x14 (iss 1 0 0 3 1 0 0 0), coded 0x17 (iss 5 0 5 3 1 0 0 0), coded 0xF (iss 1 0 5 3 1 0 0 0)]

/-- Every arithmetic instruction has a legal issue with lanes enabled, whose word spells it. -/
theorem witness_ArithmeticGivesEveryLane :
    ∀ k, k < 21 → ∃ i ∈ arithIssues, Issues yS i yX yU ∧ enabledMask yX yU i ≠ 0 ∧
      ∃ e, (arithForms i)[k]? = some e ∧ e.2.2 = true ∧ regOperandsOk e.2.1 i = true ∧ i.spells e.1 = true := by
  intro k hk
  have h : ∀ k, k < 21 → (arithIssues.any (fun i => i.tile == 5 && i.ctx == 2 && i.lane == 0 && enabledMask yX yU i != 0 &&
    match (arithForms i)[k]? with | some e => e.2.2 && regOperandsOk e.2.1 i && i.spells e.1 | none => false)) = true := by decide +kernel
  obtain ⟨i, hi, h⟩ := List.any_eq_true.mp (h k hk)
  refine ⟨i, hi, ?_⟩
  revert h
  cases (arithForms i)[k]? with
  | none => simp
  | some e =>
    intro h
    simp only [Bool.and_eq_true, beq_iff_eq, bne_iff_ne] at h
    exact ⟨y_issues i h.1.1.1.1 h.1.1.1.2 h.1.1.2, h.1.2, e, rfl, h.2.1.1, h.2.1.2, h.2.2⟩


/-- The issue of a raw instruction word. -/
def raw (w : Nat) : Issue := { iss 0 0 0 0 0 0 0 0 with word := BitVec.ofNat 64 w }

/-- Lane 31, the last, is enabled; unsigned and saturating forms, with the OP of each instruction. -/
theorem witness_WordArithmeticWraps :
    (∀ k ∈ [1, 2, 3, 4, 5, 6, 7, 8, 9, 0xA, 0xB, 0xC, 0x18, 0x19, 0x16, 0x14], let i := coded k (iss 1 0 0 3 1 2 1 0)
     Issues yS i yX yU ∧ (enabledMask yX yU i).getLsbD 31 = true ∧ i.imm = false ∧ i.mod = 0 ∧ i.rnd = 0 ∧ i.resvR = 0 ∧
      isScalar i.dst = false ∧ i.type = 1 ∧ i.sat = false ∧
      [Instr.add i, .sub i, .mul i, .mulhi i, .fma i, .min i, .max i, .and i, .or i, .xor i, .shl i, .shr i, .popc i, .clz i, .neg i,
        .mov i].any (fun c => i.spells c) = true) ∧
    (∀ k ∈ [1, 2], let i := coded k (iss 0 0 0 3 1 2 1 512)
     Issues yS i yX yU ∧ (enabledMask yX yU i).getLsbD 31 = true ∧ i.imm = false ∧ i.mod = 0 ∧ i.rnd = 0 ∧ i.resvR = 0 ∧
      isScalar i.dst = false ∧ i.type = 0 ∧ i.sat = true ∧ [Instr.add i, .sub i].any (fun c => i.spells c) = true) :=
  ⟨fun k hk => ⟨y_issues _ rfl rfl rfl, by revert k; decide +kernel⟩, fun k hk => ⟨y_issues _ rfl rfl rfl, by revert k; decide +kernel⟩⟩

theorem witness_CompareSelectAndPack :
    (let i := coded 0xD (iss 1 0 0 7 1 2 0 0)
     Issues yS i yX yU ∧ enabledMask yX yU i ≠ 0 ∧ cmpLegal i = true ∧ i.spells (.cmp i) = true) ∧
    (let i := coded 0xE (iss 1 0 9 3 1 2 0 0)
     i.imm = false ∧ i.resvR = 0 ∧ isScalar i.dst = false ∧ i.rnd = 0 ∧ i.sat = false ∧ types8.contains i.type = true ∧
       pairOk i.type i.dst = true ∧ pairOk i.type i.srcA = true ∧ pairOk i.type i.srcB = true ∧ i.spells (.vecSel i) = true) ∧
    (let i := coded 0x12 (iss 15 0 1 3 1 2 0 0)
     i.imm = false ∧ i.resvR = 0 ∧ isScalar i.dst = false ∧ [8, 9, 15].contains i.type = true ∧ i.mod ≤ 1 ∧
       i.spells (.vecPack i) = true) ∧
    (let i := coded 0x13 (iss 15 0 3 3 1 0 0 0)
     i.imm = false ∧ i.resvR = 0 ∧ isScalar i.dst = false ∧ i.rnd = 0 ∧ i.sat = false ∧ i.mod ≤ 3 ∧ i.type = 15 ∧
       i.spells (.vecUnpk i) = true) ∧
    (let i := coded 0x13 (iss 9 0 3 3 1 0 0 0)
     i.imm = false ∧ i.resvR = 0 ∧ isScalar i.dst = false ∧ i.rnd = 0 ∧ i.sat = false ∧ i.mod ≤ 3 ∧ (i.type = 8 ∨ i.type = 9) ∧
       i.spells (.vecUnpk i) = true) :=
  ⟨⟨y_issues _ rfl rfl rfl, by decide +kernel⟩, by decide +kernel⟩

/-- SCL.FLAGS with MOD 1, SCL.CYC, MOV.K with and without HI into s0, and into v3; EMB.GEN64 into a pair. -/
theorem witness_FlagsCycleConstantsAndEmbers :
    (let i := coded 0x1A (iss 3 0 1 64 0 0 0 0)
     Issues yS i yX yU ∧ enabledMask yX yU i ≠ 0 ∧ i.imm = false ∧ isScalar i.dst = true ∧ i.type = 3 ∧ i.rnd = 0 ∧ i.sat = false ∧
       i.resvR = 0 ∧ i.mod ≤ 1 ∧ i.spells (.sclFlags i) = true) ∧
    (let i := coded 0x1B (iss 3 0 0 64 0 0 0 0)
     i.imm = false ∧ isScalar i.dst = true ∧ i.type = 3 ∧ i.mod = 0 ∧ i.spells (.sclCyc i) = true) ∧
    (∀ w ∈ [2 ^ 48 + 64 * 2 ^ 37 + 5, 2 * 2 ^ 48 + 64 * 2 ^ 37 + 2 ^ 32 + 5, 2 ^ 48 + 3 * 2 ^ 37 + 5], let i := coded 0x701 (raw w)
     movKLegal i = true ∧ enabledMask yX yU i ≠ 0 ∧ i.spells (.movK i) = true) ∧
    (let i := coded 0x60D (iss 0 0 0 4 1 0 0 0); sysOk i = true ∧ isScalar i.dst = false ∧ i.spells (.embGen i) = true) ∧
    (let i := coded 0x60E (iss 0 0 0 4 1 0 0 0); sysOk i = true ∧ isScalar i.dst = false ∧ i.dst % 2 = 0 ∧ i.spells (.embGen64 i) = true) :=
  ⟨⟨y_issues _ rfl rfl rfl, by decide +kernel⟩, by decide +kernel⟩

/-- ANY, ALL and BALLOT; BCAST by a scalar, SHFL.UP, PERM. -/
theorem witness_VotesAndPermutations :
    Issues yS (coded 0x20 (iss 1 0 2 64 1 0 0 0)) yX yU ∧
    (∀ i ∈ [coded 0x20 (iss 1 0 0 7 1 0 0 0), coded 0x20 (iss 1 0 1 7 1 0 0 0), coded 0x20 (iss 1 0 2 64 1 0 0 0)],
      voteLegal i = true ∧ i.spells (.vecVote i) = true) ∧
    (let i := coded 0x21 (iss 1 0 0 3 1 64 0 0)
     permLegal i = true ∧ enabledMask yX yU i ≠ 0 ∧ i.mod = 0 ∧ isScalar i.srcB = true ∧ i.spells (.vecBcast i) = true) ∧
    (let i := coded 0x22 (iss 1 0 2 3 1 64 0 0)
     permLegal i = true ∧ enabledMask yX yU i ≠ 0 ∧ i.mod ≤ 2 ∧ i.spells (.vecShfl i) = true) ∧
    (let i := coded 0x23 (iss 3 0 0 4 2 6 0 0)
     permLegal i = true ∧ enabledMask yX yU i ≠ 0 ∧ i.mod = 0 ∧ i.imm = false ∧ i.spells (.vecPerm i) = true) :=
  ⟨y_issues _ rfl rfl rfl, by decide +kernel⟩

/-- VEC.RED of all lanes and, under an empty predicate, of none; VEC.SCAN of all and of none. -/
theorem witness_ReductionsFollowTheTree :
    (let i := coded 0x24 (iss 1 0 0 64 1 0 0 0)
     Issues yS i yX yU ∧ redLegal i = true ∧ redOperands i = true ∧ enabledMask yX yU i ≠ 0 ∧ i.spells (.vecRed i) = true) ∧
    (let i := coded 0x24 (iss 1 2 0 64 1 0 0 0)
     redLegal i = true ∧ redOperands i = true ∧ enabledMask yX yU i = 0 ∧ i.spells (.vecRed i) = true) ∧
    (let i := coded 0x25 (iss 1 0 0 3 1 0 0 0)
     redLegal i = true ∧ isScalar i.dst = false ∧ pairOk i.type i.dst = true ∧ enabledMask yX yU i ≠ 0 ∧ i.spells (.vecScan i) = true) ∧
    (let i := coded 0x25 (iss 1 2 0 3 1 0 0 0)
     redLegal i = true ∧ isScalar i.dst = false ∧ pairOk i.type i.dst = true ∧ enabledMask yX yU i = 0) :=
  ⟨⟨y_issues _ rfl rfl rfl, by decide +kernel⟩, by decide +kernel⟩

theorem witness_NoEnabledLaneWritesNothing :
    let i := iss 1 2 0 3 1 2 0 0
    Issues yS i yX yU ∧ (∀ k ∈ [1, 0xD, 0x22, 0x23, 0x25, 0x60D, 0x701], enabledMask yX yU (coded k i) = 0) ∧
    (cmpLegal (coded 0xD i) = true ∧ (coded 0xD i).spells (.cmp i) = true) ∧
    (permLegal (coded 0x22 i) = true ∧ i.mod ≤ 2 ∧ (coded 0x22 i).spells (.vecShfl i) = true) ∧
    (permLegal (coded 0x23 i) = true ∧ i.mod = 0 ∧ (coded 0x23 i).spells (.vecPerm i) = true) ∧
    (redLegal (coded 0x25 i) = true ∧ (coded 0x25 i).spells (.vecScan i) = true) ∧
    (let k := coded 0x60D (iss 0 2 0 3 1 0 0 0); sysOk k = true ∧ enabledMask yX yU k = 0 ∧ k.spells (.embGen k) = true) ∧
    (let k := coded 0x701 (raw (2 ^ 48 + 2 * 2 ^ 44 + 3 * 2 ^ 37 + 5)); movKLegal k = true ∧ enabledMask yX yU k = 0 ∧ k.spells (.movK k) = true) ∧
    (arithForms (coded 1 i)).any (fun e => e.2.2 && regOperandsOk e.2.1 i && (coded 1 i).spells e.1) = true :=
  ⟨y_issues _ rfl rfl rfl, by decide +kernel⟩

/-- A register instruction gives a next state. -/
theorem witness_RegisterInstructionsTouchNoMemory :
    Instr.add (coded 1 (iss 1 0 0 3 1 2 0 0)) ∈ registerInstrs (coded 1 (iss 1 0 0 3 1 2 0 0)) ∧
    ∃ t, exec (.add (coded 1 (iss 1 0 0 3 1 2 0 0))) yS = .next t :=
  ⟨List.Mem.head _, _, rfl⟩

/-- One subgroup stands at address 64, outside the code region; another at a poisoned word, in RUN. -/
def outX : Ctx := { yX with subs := [{ yU with pc := 64 }] }
def badS : State := { yS.wr pgStk Reg.stkState 1 with memBad := [(2 ^ 36, true)] }

theorem witness_FetchChecksTheRegionAndPoison :
    let i := coded 1 (iss 1 0 0 3 1 2 0 0)
    i.spells (.add i) = true ∧ Instr.add i ∈ registerInstrs i ++ memoryInstrs i ∧
    (((yOf outX).tile i.tile).stop = none ∧ (yOf outX).ctx i.tile i.ctx = some outX ∧ outX.subOf i.lane = some { yU with pc := 64 } ∧
      ((yOf outX).tile i.tile).overrun = false ∧ (yOf outX).inCode 64 8 = false) ∧
    ((badS.tile i.tile).stop = none ∧ badS.ctx i.tile i.ctx = some yX ∧ yX.subOf i.lane = some yU ∧ (badS.tile i.tile).overrun = false ∧
      badS.inCode yU.pc 8 = true ∧ badS.fetchBad i.tile yU.pc = true ∧ badS.running = true ∧
      badS.stoke.phase.rank ≤ Phase.writeback.rank) := by
  decide +kernel

/-- Words of no form and of no OP, one that spells another instruction, and one issue that no table allows in any of the forms. -/
theorem witness_IllegalEncodingsRaiseIllegal :
    let i := iss 15 0 15 127 1 2 0 1
    (∀ k ∈ [0x000, 0x01C, 0x105, 0x800, 0xFFF], Issues yS (coded k i) yX yU ∧ enabledMask yX yU (coded k i) ≠ 0 ∧ (coded k i).listed = false) ∧
    (yS.tile i.tile).overrun = false ∧ ((coded 2 i).listed = true ∧ (coded 2 i).spells (.add i) = false) ∧
    (arithForms (coded 1 i)).all (fun e => !e.2.2) = true ∧ (coded 1 i).spells (.add i) = true ∧
    cmpLegal (coded 0xD i) = false ∧ voteLegal (coded 0x20 i) = false ∧ (redLegal (coded 0x24 i) && redOperands (coded 0x24 i)) = false ∧
    sysOk (coded 0x601 i) = false ∧ testLegal (coded 0x60A i) = false ∧ barLegal (coded 0x603 i) = false ∧
    branchLegal (coded 0x301 i) = false ∧ lockLegal (coded 0x220 i) = false ∧
    movKLegal (coded 0x701 (raw (15 * 2 ^ 48 + 15 * 2 ^ 33))) = false :=
  ⟨fun k hk => ⟨y_issues _ rfl rfl rfl, by revert k; decide +kernel⟩, by decide +kernel⟩


/-! ## Memory instructions, locks and control -/

/-- An issue of format M: TYPE, predicate, DATA, base, index, HINT, global, NOIDX, offset. -/
def mem (type pq data b idx hint glob noidx off : Nat) : Issue :=
  raw (type * 2 ^ 48 + pq * 2 ^ 44 + data * 2 ^ 37 + b * 2 ^ 31 + idx * 2 ^ 24 + hint * 2 ^ 22 + glob * 2 ^ 21 + noidx * 2 ^ 20 + off)

def dataAt : Nat := 2 ^ 39 + 65536
/-- s0 points at scratchpad 128, s1 at code, s2 at data, s3 at 4 bytes before the end of a region. -/
def mX : Ctx := { yX with s := [(0, 128), (1, 2 ^ 39 + 64), (2, BitVec.ofNat 64 dataAt), (3, BitVec.ofNat 64 (dataAt + 65532))] }
def line0 : L1Line :=
  { addr := dataAt, valid := BitVec.allOnes 64, dirty := 0xF, poison := 0, data := 0x1234567890ABCDEF, age := 0, keep := false, hint := 0,
    hash := 0, crcDiff := 0 }
/-- The tile with one dirty line of data in its L1 and the scratchpad bytes given, split 1. -/
def mTile (x : Ctx) (scr : SMap Byte) : Tile := { yTile x with l1 := [(32 * setOf dataAt, line0)], scratch := scr }
def mBase : State := (planned.wr (pgTlm 5) Reg.tlmStateSplit 1).wr (pgTil 5) Reg.tilLogicalLtile 0
def mOf (t : Tile) : State := { mBase with tiles := [(5, t)] }
def mS : State := mOf (mTile mX [(128, 0x2A)])
/-- The same at the dirty-line limit. -/
def fullS : State := mS.wr (pgTlm 5) Reg.tlmCleanDirtyMax 1

theorem mem_issues (x : Ctx) (scr : SMap Byte) (i : Issue) (h : x.subOf 0 = some yU) (h1 : i.tile = 5) (h2 : i.ctx = 2) (h3 : i.lane = 0) :
    Issues (mOf (mTile x scr)) i x yU := by
  constructor
  · rw [h1]; rfl
  · rw [h1, h2]; rfl
  · rw [h3]; exact h
  · decide
  · have h : State.inCode mBase yU.pc 8 = true := by decide +kernel
    have e : (mOf (mTile x scr)).plans = mBase.plans := by unfold mOf; dsimp only
    simpa [State.inCode, State.regions, e] using h
  · rw [h1]
    have h : State.badAt mBase yU.pc = false := by decide +kernel
    have e : (mOf (mTile x scr)).memBad = mBase.memBad := by unfold mOf; dsimp only
    have c : (((mOf (mTile x scr)).tile 5).icFind yU.pc) = none := rfl
    have h5 : ((5 : Fin 160) : Nat) = 5 := rfl
    simpa [State.fetchBad, h5, c, State.badAt, e] using h

theorem m_issues (i : Issue) (h1 : i.tile = 5) (h2 : i.ctx = 2) (h3 : i.lane = 0) : Issues mS i mX yU :=
  mem_issues mX _ i (by decide +kernel) h1 h2 h3

theorem m_noFlips (x : Ctx) (scr : SMap Byte) : NoFlips (mOf (mTile x scr)) 5 := ⟨by rfl, rfl, fun e h => by
  rcases List.mem_singleton.mp h with rfl; rfl⟩

/-- LD.S of all lanes at one address, LD.G that hits, LD.G that misses, at the last word of its region. -/
theorem witness_LoadsDeliverMemory :
    (let i := coded 0x201 (mem 2 0 3 0 0 0 0 1 0)
     i.spells (.ld i) = true ∧ Issues mS i mX yU ∧ enabledMask mX yU i ≠ 0 ∧ ldLegal i = true ∧ i.ups = [] ∧ NoFlips mS i.tile ∧
       AccessOk mS i mX (enabledMask mX yU i) false false (2 ^ i.type) ∧ i.mGlob = false) ∧
    (let i := coded 0x201 (mem 3 0 64 2 0 0 1 1 0)
     i.spells (.ld i) = true ∧ Issues mS i mX yU ∧ i.ups = [] ∧ ldLegal i = true ∧ AccessOk mS i mX (enabledMask mX yU i) false false (2 ^ i.type) ∧ i.mGlob = true ∧
       accessLanes i (enabledMask mX yU i) = [0] ∧ (mS.tile i.tile).l1Hit (mAddr i false mX 0) 8 = some (32 * setOf dataAt, line0)) ∧
    (let i := coded 0x201 (mem 2 0 3 3 0 0 1 1 0)
     i.spells (.ld i) = true ∧ Issues mS i mX yU ∧ i.ups = [] ∧ ldLegal i = true ∧ AccessOk mS i mX (enabledMask mX yU i) false false (2 ^ i.type) ∧ i.mGlob = true ∧
       ∀ j ∈ accessLanes i (enabledMask mX yU i), (mS.tile i.tile).l1Hit (mAddr i false mX j) 4 = none) := by
  refine ⟨⟨by decide +kernel, m_issues _ rfl rfl rfl, by decide +kernel, by decide +kernel, rfl, m_noFlips _ _, ?_, by decide +kernel⟩,
    ⟨by decide +kernel, m_issues _ rfl rfl rfl, rfl, by decide +kernel, ?_, by decide +kernel, by decide +kernel, by decide +kernel⟩,
    ⟨by decide +kernel, m_issues _ rfl rfl rfl, rfl, by decide +kernel, ?_, by decide +kernel, by decide +kernel⟩⟩ <;> (unfold AccessOk; decide +kernel)

/-- ST.S of all lanes, ST.G of one word at the limit, and ST.G of one word to a line that the L1 does not hold. -/
theorem witness_StoresReachTileMemory :
    (let i := coded 0x202 (mem 2 0 3 0 0 0 0 1 0)
     i.spells (.st i) = true ∧ Issues mS i mX yU ∧ enabledMask mX yU i ≠ 0 ∧ stLegal i = true ∧ i.ups = [] ∧ NoFlips mS i.tile ∧
       AccessOk mS i mX (enabledMask mX yU i) false true (2 ^ i.type) ∧ i.mGlob = false) ∧
    (let i := coded 0x202 (mem 2 0 64 2 0 0 1 1 64)
     i.spells (.st i) = true ∧ Issues fullS i mX yU ∧ stLegal i = true ∧ NoFlips fullS i.tile ∧ AccessOk fullS i mX (enabledMask mX yU i) false true (2 ^ i.type) ∧
       i.mGlob = true ∧ fullS.split i.tile < 4 ∧
       fullS.dirtyWait i.tile ((accessLanes i (enabledMask mX yU i)).map (mAddr i false mX)) = true) ∧
    (let i := coded 0x202 (mem 2 0 64 2 0 0 1 1 64)
     i.spells (.st i) = true ∧ Issues mS i mX yU ∧ stLegal i = true ∧ NoFlips mS i.tile ∧ AccessOk mS i mX (enabledMask mX yU i) false true (2 ^ i.type) ∧
       i.mGlob = true ∧ accessLanes i (enabledMask mX yU i) = [0] ∧
       mS.dirtyWait i.tile ((accessLanes i (enabledMask mX yU i)).map (mAddr i false mX)) = false ∧
       (mS.l1Take i.tile (setOf (mAddr i false mX 0))).1.isSome = true) := by
  refine ⟨⟨by decide +kernel, m_issues _ rfl rfl rfl, by decide +kernel, by decide +kernel, rfl, m_noFlips _ _, ?_, by decide +kernel⟩,
    ⟨by decide +kernel, ⟨rfl, rfl, by decide +kernel, by decide, by decide +kernel, by decide +kernel⟩, by decide +kernel, ⟨by decide +kernel, by decide +kernel, by decide +kernel⟩, ?_, by decide +kernel, by decide +kernel, by decide +kernel⟩,
    ⟨by decide +kernel, m_issues _ rfl rfl rfl, by decide +kernel, m_noFlips _ _, ?_, by decide +kernel, by decide +kernel, by decide +kernel, by decide +kernel⟩⟩ <;> (unfold AccessOk; decide +kernel)

/-- One byte past alignment, for a load, a store, the atomics, the reductions and an ordered HRED. -/
theorem witness_MisalignedAccessesRaiseMisalign :
    let off := fun (i : Issue) (ord : Bool) (n : Nat) => (accessLanes i (enabledMask mX yU i)).filter (fun j => decide (mAddr i ord mX j % n ≠ 0))
    (mS.tile 5).overrun = false ∧
    (∀ k ∈ [0x201, 0x202], let i := coded k (mem 2 0 3 0 0 0 0 1 1)
     Issues mS i mX yU ∧ enabledMask mX yU i ≠ 0 ∧ (k = 0x201 → ldLegal i = true ∧ i.spells (.ld i) = true) ∧
       (k = 0x202 → stLegal i = true ∧ i.spells (.st i) = true) ∧ off i false 4 ≠ []) ∧
    (∀ k, k < 8 → let i := coded (0x203 + k) (mem 1 0 3 0 0 0 0 1 1)
     Issues mS i mX yU ∧ enabledMask mX yU i ≠ 0 ∧ off i false (atomSize i.type) ≠ [] ∧
       (atomForms i).any (fun e => e.2.1 == 3 + k && e.2.2 && i.spells e.1) = true) ∧
    (∀ k ∈ [0x10, 0x11, 0x12, 0x14, 0x15, 0x16], let i := coded (0x200 + k) (mem 1 0 3 2 0 0 1 1 1)
     Issues mS i mX yU ∧ enabledMask mX yU i ≠ 0 ∧ off i false (atomSize i.type) ≠ [] ∧
       (hredForms i).any (fun e => e.2.1 == k && e.2.2 && i.spells e.1) = true) ∧
    (let i := coded 0x213 (mem 5 0 3 2 0 0 1 0 1)
     Issues mS i mX yU ∧ enabledMask mX yU i ≠ 0 ∧ (hredForms i).any (fun e => e.2.2 && e.2.1 == 0x13 && i.spells e.1) = true ∧
       off i true (atomSize i.type) ≠ []) :=
  ⟨by decide +kernel, fun k hk => ⟨m_issues _ rfl rfl rfl, by revert k; decide +kernel⟩,
    fun k hk => ⟨m_issues _ rfl rfl rfl, by revert k; decide +kernel⟩, fun k hk => ⟨m_issues _ rfl rfl rfl, by revert k; decide +kernel⟩,
    m_issues _ rfl rfl rfl, by decide +kernel⟩

/-- One word of scratchpad by a scalar register: every ATOM is legal on it. -/
theorem witness_ScratchAtomicsReadModifyWrite : ∀ k, k < 8 →
    let i := coded (0x203 + k) (mem 1 0 64 0 0 0 0 1 0)
    Issues mS i mX yU ∧ i.ups = [] ∧ NoFlips mS i.tile ∧ AccessOk mS i mX (enabledMask mX yU i) false true (tyWidth i.type / 8) ∧
    accessLanes i (enabledMask mX yU i) = [0] ∧ i.mGlob = false ∧
    (atomForms i).any (fun e => e.2.1 == 3 + k && e.2.2 && i.spells e.1) = true :=
  fun k hk => ⟨m_issues _ rfl rfl rfl, rfl, m_noFlips _ _, by unfold AccessOk; revert k; decide +kernel, by revert k; decide +kernel⟩

/-- Global atomics and reductions of all lanes on the last word of a region; an ordered add. -/
theorem witness_PartitionOperationsAreSent :
    (∀ k ∈ [3, 4, 5, 6, 7, 8, 9, 0xA, 0x10, 0x11, 0x12, 0x14, 0x15, 0x16], let i := coded (0x200 + k) (mem 1 0 3 3 0 0 1 1 0)
     Issues mS i mX yU ∧ AccessOk mS i mX (enabledMask mX yU i) false true (atomSize i.type) ∧
       (∀ j ∈ accessLanes i (enabledMask mX yU i), isFar (mAddr i false mX j) = false) ∧ enabledMask mX yU i ≠ 0 ∧ i.mGlob = true ∧
       atomLegal i 5 = true ∧ (k = 0xA → casLegal i = true) ∧ i.type ≤ 3 ∧
       (atomForms i ++ hredForms i).any (fun e => e.2.1 == k && i.spells e.1) = true) ∧
    (let i := coded 0x213 (mem 5 0 3 2 0 0 1 0 0)
     Issues mS i mX yU ∧ AccessOk mS i mX (enabledMask mX yU i) true true (atomSize i.type) ∧
       (∀ j ∈ accessLanes i (enabledMask mX yU i), isFar (mAddr i true mX j) = false) ∧ i.mGlob = true ∧ atomLegal i 5 = true ∧
       4 ≤ i.type ∧ i.mNoidx = false ∧ i.mScale = 0 ∧ i.spells (.hredAddOrd i) = true) :=
  ⟨fun k hk => ⟨m_issues _ rfl rfl rfl, by unfold AccessOk; revert k; decide +kernel, by revert k; decide +kernel⟩,
    m_issues _ rfl rfl rfl, by unfold AccessOk; decide +kernel, by decide +kernel⟩

/-- An acquire of a free word with 7 locks held; a release by lane 31; a parked lane and a hearth word free and held. -/
def lockX : Ctx := { mX with locks := List.replicate 7 (9, false, 512) }
def heldX : Ctx := { mX with locks := [(31, false, 132)] }
def parkX : Ctx := { mX with subs := [{ yU with wait := .park true dataAt }] }

/-- A hearth word that no lane holds; one that lane 31 holds, of a tile with an empty L1. -/
def wordS (x : Ctx) (v : Nat) (l1 : SMap L1Line) : State :=
  { mOf { mTile x [] with l1 := l1 } with mem := (leBytes 4 v).zipIdx.filterMap (fun e => if e.1 = 0 then none else some (dataAt + 128 + e.2, e.1)) }
def hearthLockX : Ctx := { mX with locks := [(31, true, dataAt + 128)] }

theorem witness_LocksAreGrantedAndReleased :
    (let i := coded 0x220 (mem 0 0 0 0 0 0 0 1 4)
     let s := mOf (mTile lockX [])
     i.spells (.lockAcq i) = true ∧ Issues s i lockX yU ∧ i.ups = [] ∧ NoFlips s i.tile ∧ lockLegal i = true ∧ i.mGlob = false ∧
       lanesOf (enabledMask lockX yU i) = 0 :: (List.range 31).map (· + 1) ∧
       (∀ k ∈ lanesOf (enabledMask lockX yU i), mAddr i false lockX k = 132) ∧
       s.lockAddrBad i.tile false 132 = false ∧ s.lockWord i.tile false 132 = 0 ∧ lockX.locks.length < 8 ∧ (s.tile i.tile).won = []) ∧
    (let i := coded 0x220 (mem 0 0 0 2 0 0 1 1 128)
     let s := wordS mX 0 [(32 * setOf dataAt, line0)]
     i.spells (.lockAcq i) = true ∧ Issues s i mX yU ∧ lockLegal i = true ∧ i.mGlob = true ∧
       lanesOf (enabledMask mX yU i) = 0 :: (List.range 31).map (· + 1) ∧
       (∀ k ∈ lanesOf (enabledMask mX yU i), mAddr i false mX k = dataAt + 128) ∧ s.lockAddrBad i.tile true (dataAt + 128) = false ∧
       s.lockWord i.tile true (dataAt + 128) = 0 ∧ (s.tile i.tile).l1Find (dataAt + 128) = none) ∧
    (let i := coded 0x221 (mem 0 1 0 0 0 0 0 1 4)
     let s := mOf (mTile heldX [(132, 96)])
     i.spells (.lockRel i) = true ∧ Issues s i heldX yU ∧ i.ups = [] ∧ NoFlips s i.tile ∧ lockLegal i = true ∧ i.mGlob = false ∧
       lanesOf (enabledMask heldX yU i) = [31] ∧ mAddr i false heldX 31 = 132 ∧
       s.lockAddrBad i.tile false 132 = false ∧ s.lockWord i.tile false 132 = s.lockValue i.tile i.ctx 31 ∧
       (s.tile i.tile).parkedOn false 132 = []) ∧
    (let i := coded 0x221 (mem 0 1 0 2 0 0 1 1 128)
     let s := wordS hearthLockX 96 []
     i.spells (.lockRel i) = true ∧ Issues s i hearthLockX yU ∧ lockLegal i = true ∧ i.mGlob = true ∧
       lanesOf (enabledMask hearthLockX yU i) = [31] ∧ mAddr i false hearthLockX 31 = dataAt + 128 ∧
       s.lockAddrBad i.tile true (dataAt + 128) = false ∧ s.lockWord i.tile true (dataAt + 128) = s.lockValue i.tile i.ctx 31 ∧
       (s.tile i.tile).parkedOn true (dataAt + 128) = [] ∧ (s.tile i.tile).l1 = [] ∧ hearthLockX.reds = 0) ∧
    (let s := mOf (mTile parkX [])
     s.ctx 5 2 = some parkX ∧ parkX.subOf 31 = some { yU with wait := .park true dataAt } ∧ (s.tile 5).won = [] ∧ s.natAt dataAt 4 = 0 ∧
       parkX.locks.length < 8 ∧ State.natAt { s with mem := [(dataAt + 3, 1)] } dataAt 4 ≠ 0) := by
  refine ⟨⟨by decide +kernel, mem_issues _ _ _ (by decide +kernel) rfl rfl rfl, rfl, m_noFlips _ _, by decide +kernel⟩,
    ⟨by decide +kernel, ⟨by decide +kernel, by decide +kernel, by decide +kernel, by decide, by decide +kernel, by decide +kernel⟩, by decide +kernel⟩,
    ⟨by decide +kernel, mem_issues _ _ _ (by decide +kernel) rfl rfl rfl, rfl, m_noFlips _ _, by decide +kernel⟩,
    ⟨by decide +kernel, ⟨by decide +kernel, by decide +kernel, by decide +kernel, by decide, by decide +kernel, by decide +kernel⟩, by decide +kernel⟩,
    by decide +kernel⟩

/-- BRA two instructions on by all lanes, and by lane 31 alone with 15 entries on the split stack; BRX to s1. -/
def deepX : Ctx := { mX with stack := List.replicate 15 (2 ^ 39, 1) }

theorem witness_BranchesMoveTheSubgroup :
    (let i := coded 0x301 (raw (2 * 2 ^ 24))
     i.spells (.bra i) = true ∧ Issues mS i mX yU ∧ enabledMask mX yU i ≠ 0 ∧ branchLegal i = true ∧
       yU.mask &&& mX.live &&& ~~~(enabledMask mX yU i) = 0 ∧
       (ofInt 64 (yU.pc + 8 * toSigned 20 (i.bitsOf 24 20))) % 8 = 0 ∧
       mS.inCode (ofInt 64 (yU.pc + 8 * toSigned 20 (i.bitsOf 24 20))) 8 = true) ∧
    (let i := coded 0x301 (raw (2 ^ 44 + 2 * 2 ^ 24))
     i.spells (.bra i) = true ∧ Issues (mOf (mTile deepX [])) i deepX yU ∧ enabledMask deepX yU i ≠ 0 ∧ branchLegal i = true ∧
       yU.mask &&& deepX.live &&& ~~~(enabledMask deepX yU i) ≠ 0 ∧ deepX.stack.length < 16) ∧
    (let i := coded 0x302 (raw (2 ^ 38))
     i.spells (.brx i) = true ∧ Issues mS i mX yU ∧ branchLegal i = true ∧ i.bitsOf 24 14 = 0 ∧ mX.sreg (i.bitsOf 38 6) % 8 = 0 ∧
       mS.inCode (mX.sreg (i.bitsOf 38 6)) 8 = true ∧ yU.mask &&& mX.live &&& ~~~(enabledMask mX yU i) = 0) :=
  ⟨⟨by decide +kernel, m_issues _ rfl rfl rfl, by decide +kernel⟩,
    ⟨by decide +kernel, mem_issues _ _ _ (by decide +kernel) rfl rfl rfl, by decide +kernel⟩,
    by decide +kernel, m_issues _ rfl rfl rfl, by decide +kernel⟩

/-- Half of the lanes at the instruction, half elsewhere. -/
def lowU : Sub := { yU with mask := 0xFFFF }
def halfX : Ctx := { mX with subs := [lowU, { yU with pc := 2 ^ 39 + 8, mask := 0xFFFF0000 }] }
def halfS : State := mOf (mTile halfX [])
/-- Flag 15 is set and an operation is on token 15. -/
def evtS : State := (mOf { mTile mX [] with ops := [(3, 15)] }).setEvent 5 15

theorem witness_BarriersEventsAndExits :
    (∀ k ∈ [0x601, 0x602, 0x603, 0x605, 0x608, 0x609, 0x60B], let i := coded k (raw (15 * 2 ^ 40))
     Issues mS i mX yU ∧ sysOk i = true ∧ enabledMask mX yU i ≠ 0 ∧ mX.locks = [] ∧ mX.live &&& ~~~(enabledMask mX yU i) = 0 ∧
       (k = 0x603 → barLegal i = true) ∧ (∀ v ∈ mX.subs, v.wait = .ready) ∧ mX.subs = [yU] ∧ yU.mask = mX.live ∧ mX.stack = [] ∧
       mS.evtFlag i.tile (imm4 i) = false ∧ (mS.tile i.tile).ops = [] ∧
       [Instr.nop i, .exit i, .barG i, .fenceT i, .evtSet i, .evtWait i, .tokWait i].any (fun c => i.spells c) = true) ∧
    (let i := coded 0x602 (raw (2 ^ 44)); sysOk i = true ∧ enabledMask mX yU i ≠ 0 ∧ mX.live &&& ~~~(enabledMask mX yU i) ≠ 0 ∧
      i.spells (.exit i) = true) ∧
    (∀ k ∈ [0x603, 0x604], let i := coded k (raw (15 * 2 ^ 40))
     Issues halfS i halfX lowU ∧ enabledMask halfX lowU i ≠ 0 ∧ (∀ v ∈ halfX.subs, v.wait = .ready) ∧ halfX.locks = [] ∧ sysOk i = true ∧
       barLegal i = true ∧ halfX.live &&& ~~~((halfX.pastWait i.lane (.bar false 15)).atBar false) ≠ 0 ∧
       (halfS.tile i.tile).pendingBar halfX true = none ∧
       halfX.live &&& ~~~((halfX.pastWait i.lane (.bar true 15)).atBar true) ≠ 0 ∧
       [Instr.barG i, .barL i].any (fun c => i.spells c) = true) ∧
    (∀ k ∈ [0x609, 0x60B], let i := coded k (raw (15 * 2 ^ 40))
     Issues evtS i mX yU ∧ sysOk i = true ∧ enabledMask mX yU i ≠ 0 ∧ evtS.evtFlag i.tile (imm4 i) = true ∧
       ((evtS.tile i.tile).ops.filter (fun e => e.2 = imm4 i)).map (fun e => e.1) ≠ [] ∧
       [Instr.evtWait i, .tokWait i].any (fun c => i.spells c) = true) ∧
    (∀ k ∈ [0x60A, 0x60C], let i := coded k (raw (15 * 2 ^ 40 + 7 * 2 ^ 33))
     sysOk i = true ∧ enabledMask mX yU i ≠ 0 ∧ 1 ≤ i.dst ∧ i.dst ≤ 7 ∧ [Instr.evtTest i, .tokTest i].any (fun c => i.spells c) = true) := by
  refine ⟨fun k hk => ⟨m_issues _ rfl rfl rfl, by revert k; decide +kernel⟩, by decide +kernel,
    fun k hk => ⟨⟨rfl, ?_, ?_, by decide, ?_, ?_⟩, by revert k; decide +kernel⟩,
    fun k hk => ⟨⟨rfl, ?_, ?_, by decide, ?_, ?_⟩, by revert k; decide +kernel⟩, by decide +kernel⟩ <;> (revert k; decide +kernel)

/-- A context waits for a line; a tile has as many dirty lines as its cleaner starts at, and one fewer. -/
def fillX : Ctx := { mX with subs := [{ yU with wait := .fill [{ reg := 3, lane := 0, size := 4, addr := dataAt + 60 }] 0 }] }
def fillS : State := mOf (mTile fillX [])
def redX : Ctx := { mX with reds := 1 }

theorem witness_FencesAndFillsServeTheL1 :
    (∀ k ∈ [0x606, 0x607], let i := coded k (raw 0)
      Issues mS i mX yU ∧ sysOk i = true ∧ enabledMask mX yU i ≠ 0 ∧ (∀ e ∈ (mS.tile 5).l1, isFar e.2.addr = false) ∧
      mX.reds = 0 ∧ (mS.tile 5).farWrites = 0 ∧ [Instr.fenceH i, .fenceX i].any (fun c => i.spells c) = true) ∧
    (∀ k ∈ [0x606, 0x607], Issues (mOf (mTile redX [])) (coded k (raw 0)) redX yU ∧ redX.reds ≠ 0) ∧
    (isFar (BitVec.ofNat 64 dataAt).toNat = false ∧ fillS.hub.wiping = false ∧
      ((fillS.tile 5).waitsFor (lineOf (BitVec.ofNat 64 dataAt).toNat)).isSome = true) ∧
    (mS.tile 5).dirtyCount < mS.rd (pgTlm 5) Reg.tlmCleanCleanAt ∧
    ((mS.wr (pgTlm 5) Reg.tlmCleanCleanAt 1).rd (pgTlm 5) Reg.tlmCleanCleanAt ≤ (mS.tile 5).dirtyCount ∧
      (mS.tile 5).l1 = [(32 * setOf dataAt, line0)] ∧ line0.dirty ≠ 0 ∧ line0.crcDiff = 0 ∧ isFar line0.addr = false) :=
  ⟨fun k hk => ⟨m_issues _ rfl rfl rfl, by revert k; decide +kernel⟩,
    fun k hk => ⟨mem_issues _ _ _ (by decide +kernel) rfl rfl rfl, by decide⟩, by decide +kernel⟩

/-- An accepted and a sent request of one addition, and a refused contribution; a host that may hold the line of the request. -/
def redR : RedReq :=
  { id := 4, part := 159, tile := 5, ctx := 2, serial := 0, op := 0x10, type := 5, hint := 0,
    ops := [{ lane := 0, addr := dataAt, val := 0x3F800000, new := 0, bad := false, reg := 0, rank := 0, count := 0 }] }
def redS : State := { mS with hub := { mS.hub with redSent := [redR], redAcc := [redR], ordWait := [redR] } }
def heldLineS : State := { redS with feed := { redS.feed with filter := [lineOf redR.addr] } }

theorem witness_PartitionsPerformReductions :
    redS.hub.redSent.find? (fun q => q.id = 4) = some redR ∧ redS.hostHolds redR.addr 8 = false ∧ redS.blocked redR.addr 2 = false ∧
    heldLineS.hub.redSent.find? (fun q => q.id = 4) = some redR ∧ heldLineS.hostHolds redR.addr 8 = true ∧
    redS.hub.redAcc.find? (fun q => q.part = (159 : Fin 160).val && redS.redFilled q) = some redR ∧ redS.hub.bankErr = [] ∧
    redR.ops.length = 1 ∧ redR.op ≠ 0x13 ∧ redR.type ≤ 5 ∧
    redS.hub.ordWait.find? (fun q => q.id = 4) = some redR := by decide +kernel


/-! ## Matrix arrays, epilogues and copies -/

/-- s4 holds a row stride of 128 bytes; the array takes instructions. -/
def fX : Ctx := { mX with s := [(0, 128), (4, 128)] }
def fBase : State := mBase.wr (pgMxa 5) Reg.ctrlEnable 1
def fOf (t : Tile) : State := { fBase with tiles := [(5, t)] }
def fS : State := fOf (mTile fX [])
def fHalf : State := fOf (mTile { fX with subs := [lowU] } [])

/-- MXF.LD and MXF.ST of type 7 into v8 from s0 by rows of s4, MXF.MMA into v24, MXF.REL, and half a group. -/
theorem witness_FragmentInstructions :
    (∀ k ∈ [0x401, 0x402], let i := coded k (raw (7 * 2 ^ 48 + 8 * 2 ^ 38 + 4 * 2 ^ 26))
     Issues fS i fX yU ∧ NoFlips fS i.tile ∧ fS.mxfOk i = true ∧ i.ups = [] ∧ enabledMask fX yU i = BitVec.allOnes 32 ∧
       mxfMemLegal i = true ∧ i.xGlob = false ∧ fS.mxfFault i false fX = none ∧ fS.mxfFault i true fX = none ∧
       (fragAccs i.type i.xFD (fX.sreg i.xFA) (fX.sreg i.xFB)).Pairwise (fun a b => a.addr + a.size ≤ b.addr ∨ b.addr + b.size ≤ a.addr) ∧
       [Instr.mxfLd i, .mxfSt i].any (fun c => i.spells c) = true) ∧
    (∀ k ∈ [0x403, 0x404], let i := coded k (raw (5 * 2 ^ 48 + 24 * 2 ^ 38 + 8 * 2 ^ 32 + 16 * 2 ^ 26 + 24 * 2 ^ 20))
     Issues fS i fX yU ∧ NoFlips fS i.tile ∧ fS.mxfOk i = true ∧ i.ups = [] ∧ enabledMask fX yU i = BitVec.allOnes 32 ∧
       mmaLegal i = true ∧ mxfRelLegal i = true ∧ [Instr.mxfMma i, .mxfRel i].any (fun c => i.spells c) = true) ∧
    (∀ k ∈ [0x403, 0x404], let i := coded k (raw (5 * 2 ^ 48 + 24 * 2 ^ 38 + 8 * 2 ^ 32 + 16 * 2 ^ 26 + 24 * 2 ^ 20))
     let x := { fX with subs := [lowU] }
     Issues fHalf i x lowU ∧ NoFlips fHalf i.tile ∧ fHalf.mxfOk i = true ∧ i.ups = [] ∧ enabledMask x lowU i ≠ 0 ∧
       enabledMask x lowU i ≠ BitVec.allOnes 32 ∧ (fHalf.tile i.tile).overrun = false ∧ mmaLegal i = true ∧ mxfRelLegal i = true ∧
       [Instr.mxfMma i, .mxfRel i].any (fun c => i.spells c) = true) := by
  refine ⟨fun k hk => ⟨⟨rfl, rfl, ?_, by decide, ?_, ?_⟩, ⟨?_, ?_, ?_⟩, ?_⟩, fun k hk => ⟨⟨rfl, rfl, ?_, by decide, ?_, ?_⟩, ⟨?_, ?_, ?_⟩, ?_⟩,
    fun k hk => ⟨⟨rfl, rfl, ?_, by decide, ?_, ?_⟩, ⟨?_, ?_, ?_⟩, ?_⟩⟩ <;> (revert k; decide +kernel)

/-- Scratchpad bytes of descriptor words at 128. -/
def descAt (ws : List Nat) : SMap Byte :=
  ((ws.flatMap (leBytes 8)).zipIdx.filter (fun e => e.1 != 0)).map (fun e => (128 + e.2, e.1))
/-- A matrix product from scratchpad 256 and 512; a copy of one row of 64 bytes; an epilogue that only consumes. -/
def mxWords : List Nat := [2 ^ 60 + 15 * 2 ^ 17, 256, 512, 0, 0, 0, 0, 0]
def cpWords : List Nat := [2 * 2 ^ 60, 256, 512, 64 + 64 * 2 ^ 32, 64 + 2 ^ 32, 0, 0, 0]
def epWords : List Nat := [3 * 2 ^ 60, 0, 0, 0, 0, 0, 0, 0]
def dOf (ws : List Nat) : State := fOf (mTile fX (descAt ws))
def anEpi (k : Nat) (tile : List FtqEntry) : Epi := { words := epWords, type := 5, token := 3, op := k, ctx := 2, serial := 0, tile := tile }
def aDesc (ws : List Nat) : MxDesc := { words := ws, type := 5, token := 3, op := 3, ctx := 2, serial := 0, pass := 0, flags := 0 }
/-- Token 3 has an operation pending; the queue holds 7 and 8 descriptors. -/
def busyS : State := fOf { mTile fX (descAt mxWords) with ops := [(1, 3)] }
def roomS (n : Nat) : State :=
  fOf { mTile fX (descAt mxWords) with mx := { (mTile fX []).mx with descs := List.replicate n (aDesc mxWords) } }
/-- An F64 tile of 64 columns is in the queue; an epilogue with it. -/
def f64S : State :=
  fOf { mTile fX (descAt epWords) with mx := { MxArray.idle with ftq := [{ token := 3, mti := 0, nti := 0, out := 1, half := 0, last := true, lines := [] }] } }

theorem witness_DescriptorInstructionsStartOnTheirToken :
    (∀ s ∈ [roomS 7, busyS, roomS 8], let i := coded 0x501 (raw (5 * 2 ^ 48 + 3 * 2 ^ 34))
     Issues s i fX yU ∧ NoFlips s i.tile ∧ enabledMask fX yU i ≠ 0 ∧ i.bitsOf 0 34 = 0 ∧ i.ups = [] ∧ 4 ≤ i.type ∧ s.mxUp i.tile = true ∧
       i.spells (.mxdMma i) = true) ∧
    (let i := coded 0x501 (raw (5 * 2 ^ 48 + 3 * 2 ^ 34))
     let s := roomS 7
     let ws := s.descWords i.tile (fX.sreg (sdesc i))
     (s.tile i.tile).tokBusy (tokenOf i) = false ∧ fX.sreg (sdesc i) % 64 = 0 ∧ s.reachable i.tile false (fX.sreg (sdesc i)) 64 false = true ∧
       (s.tile i.tile).mxPending < 8 ∧ mxValid i.type ws = true ∧ (mxExtents i.type ws).all (s.extentOk i.tile) = true ∧
       (busyS.tile i.tile).tokBusy (tokenOf i) = true ∧ 8 ≤ ((roomS 8).tile i.tile).mxPending) ∧
    (let i := coded 0x502 (raw (3 * 2 ^ 34))
     let s := dOf cpWords
     let ws := s.descWords i.tile (fX.sreg (sdesc i))
     Issues s i fX yU ∧ NoFlips s i.tile ∧ enabledMask fX yU i ≠ 0 ∧ i.bitsOf 0 34 = 0 ∧ i.ups = [] ∧ i.spells (.cpy i) = true ∧ i.type = 0 ∧
       (s.tile i.tile).tokBusy (tokenOf i) = false ∧ s.reachable i.tile false (fX.sreg (sdesc i)) 64 false = true ∧ cpValid ws = true ∧
       cpZero ws = false ∧ [cpSrc ws, cpDst ws].all (s.extentOk i.tile) = true) ∧
    (∀ s ∈ [dOf epWords, f64S], let i := coded 0x503 (raw (7 * 2 ^ 48 + 3 * 2 ^ 34))
     let ws := s.descWords i.tile (fX.sreg (sdesc i))
     let w := (s.tile i.tile).epiBytes
     Issues s i fX yU ∧ NoFlips s i.tile ∧ enabledMask fX yU i ≠ 0 ∧ i.bitsOf 0 34 = 0 ∧ i.ups = [] ∧ i.spells (.vecEpi i) = true ∧
       4 ≤ i.type ∧ i.type ≤ 7 ∧ (s.tile i.tile).tokBusy (tokenOf i) = false ∧ s.reachable i.tile false (fX.sreg (sdesc i)) 64 false = true ∧
       (s.tile i.tile).epiPending < 8 ∧ epiValid i.type w ws = true ∧ (epiExtents i.type w ws).all (s.extentOk i.tile) = true) := by
  refine ⟨fun s hs => ⟨⟨?_, ?_, ?_, by decide, ?_, ?_⟩, ⟨?_, ?_, ?_⟩, ?_⟩, ?_, ⟨⟨?_, ?_, ?_, by decide, ?_, ?_⟩, ⟨?_, ?_, ?_⟩, ?_⟩,
    fun s hs => ⟨⟨?_, ?_, ?_, by decide, ?_, ?_⟩, ⟨?_, ?_, ?_⟩, ?_⟩⟩ <;> first | decide +kernel | (revert s; decide +kernel)


/-! ## Releases -/

def noUps : MxUpsets := { cells := [], drains := [], feeds := [], lines := [] }
/-- A product of one pass over an empty K; of type 5 its checks hold, and with a drain adder of physical row 63 at fault they do not. -/
def onePass : MxDesc := aDesc [2 ^ 60]
def twoPass : MxDesc := aDesc [2 ^ 60 + 2 ^ 33]
def aFrag : MxFrag := { id := 8, ctx := 2, serial := 0, type := 5, slices := 0, fd := 48, a := [], b := [], c := [], spoilt := false }
def entry0 : FtqEntry := { token := 3, mti := 0, nti := 0, out := 0, half := 0, last := true, lines := [] }
/-- An array with a descriptor, a fragment product, seven entries of its queue full, and an epilogue. -/
def aS (d : MxDesc) (run : MxRun) : State :=
  fOf { mTile fX [] with
    mx := { MxArray.idle with descs := [d], frags := [aFrag], ftq := List.replicate 7 entry0, run := run, faulty := 64 }
    epis := [anEpi 4 []], copies := [{ words := cpWords, token := 3, op := 6 }] }
/-- The attempt of a release, as the state stands then. -/
def attemptOf (d : MxDesc) (ups : MxUpsets) : MxAttempt :=
  ((((aS d .fresh).farHeard []).upsets 5 ups.lines).mxCheck 5 d).mxAttempt 5 [] ups d
theorem attemptOf_eq (d : MxDesc) (ups : MxUpsets) (h : ups.lines = []) : attemptOf d ups = (aS d .fresh).mxAttempt 5 [] ups d := by
  have e : ((aS d .fresh).farHeard []).upsets 5 ups.lines = aS d .fresh := by rw [h]; rfl
  unfold attemptOf
  rw [e, mxCheck_sound _ _ _ rfl]

/-- The row of a feeder without entries. -/
def emptyRow : OpRow := { opds := [], bad := false, lost := false, exp := unitExp 5 }
def feedsOf (d : MxDesc) : Feeds := (aS d .fresh).mxFeeds 5 [] d
/-- The attempt of a pass whose feeders are empty, from the grid of its cells. -/
theorem attempt_empty (d : MxDesc) (ups : MxUpsets) (ht : d.type = 5) (hf : ups.feeds = [])
    (hb : badCycles (stepCycles 5 ((aS d .fresh).mxSlices 5 d)) (feedsOf d) = [])
    (hr : (List.range 64).map (fun r => feedRow 5 ((aS d .fresh).mxSlices 5 d) (SMap.getD (feedsOf d) ((aS d .fresh).physRow 5 r) [])) =
      List.replicate 64 emptyRow)
    (hc : (List.range 64).map (fun c => feedRow 5 ((aS d .fresh).mxSlices 5 d) (SMap.getD (feedsOf d) (66 + c) [])) = List.replicate 64 emptyRow)
    (hw : (SMap.getD (feedsOf d) ((aS d .fresh).physRow 5 64) [] ++ SMap.getD (feedsOf d) 130 []).any (fun e => e.poison) = false) :
    ∃ vals flags, (aS d .fresh).mxAttempt 5 [] ups d = .checked
      (((aS d .fresh).mxFaults 5 (descKind 5) 5 ups (descGrid 5 (List.replicate 64 emptyRow) (List.replicate 64 emptyRow))).verdict (descKind 5)
        (descRule 5 (mxK d.words)) 5 ((aS d .fresh).mxDrains 5 ups)) vals flags false := by
  unfold State.mxAttempt
  unfold feedsOf at hb hr hc hw
  simp only [ht, hf, List.foldl_nil, hb, hr, hc, hw]
  exact ⟨_, _, rfl⟩
theorem onePass_holds : ∃ v vals flags, attemptOf onePass noUps = .checked v vals flags false ∧ v.ok = true := by
  obtain ⟨vals, flags, h⟩ := attempt_empty onePass noUps rfl rfl (by decide +kernel) (by decide +kernel) (by decide +kernel) (by decide +kernel)
  exact ⟨_, vals, flags, (attemptOf_eq _ _ rfl).trans h, by decide +kernel⟩
theorem twoPass_holds : ∃ v vals flags, attemptOf twoPass noUps = .checked v vals flags false ∧ v.ok = true := by
  obtain ⟨vals, flags, h⟩ := attempt_empty twoPass noUps rfl rfl (by decide +kernel) (by decide +kernel) (by decide +kernel) (by decide +kernel)
  exact ⟨_, vals, flags, (attemptOf_eq _ _ rfl).trans h, by decide +kernel⟩
theorem onePass_fails : ∃ v vals flags, attemptOf onePass { noUps with drains := [63] } = .checked v vals flags false ∧ v.ok = false := by
  obtain ⟨vals, flags, h⟩ := attempt_empty onePass { noUps with drains := [63] } rfl rfl (by decide +kernel) (by decide +kernel) (by decide +kernel)
    (by decide +kernel)
  exact ⟨_, vals, flags, (attemptOf_eq _ _ rfl).trans h, by decide +kernel⟩

/-- An entry that has lost its CRC aborts the attempt. -/
theorem attempt_aborts (s : State) (n : Nat) (far : FarBytes) (ups : MxUpsets) (d : MxDesc) (q : Nat × List FeedEntry)
    (hq : q ∈ ups.feeds.foldl flipFeed (s.mxFeeds n far d)) (e : FeedEntry) (he : e ∈ q.2) (hs : e.sound = false) :
    ∃ k left, s.mxAttempt n far ups d = .aborted k left := by
  unfold State.mxAttempt
  dsimp only
  split
  · exact ⟨_, _, rfl⟩
  · next h =>
    exfalso
    unfold badCycles at h
    have h1 := List.flatMap_eq_nil_iff.mp h q hq
    have h2 := List.filterMap_eq_nil_iff.mp h1
    obtain ⟨k, hk, rfl⟩ := List.mem_iff_getElem.mp he
    have := h2 (q.2[k], k) (List.mem_iff_getElem.mpr ⟨k, by simpa using hk, by simp⟩)
    simp [hs] at this

/-- The checksum feeder of the columns, in a pass of 16 steps of K, with its first bit inverted on the way. -/
def feedUps : MxUpsets := { noUps with feeds := [(130, 0, 0)] }
theorem feedUps_aborts (s : State) (n : Nat) (d : MxDesc) (e : FeedEntry) (h : sumEntries d.type (s.tile n).mx.passNo (mxK d.words) = [e])
    (hs : (flipEntry e 0).sound = false) : ∃ k left, s.mxAttempt n [] feedUps d = .aborted k left := by
  refine attempt_aborts s n [] feedUps d (130, [flipEntry e 0]) ?_ (flipEntry e 0) (List.mem_singleton.mpr rfl) hs
  show (130, [flipEntry e 0]) ∈ flipFeed (s.mxFeeds n [] d) (130, 0, 0)
  unfold flipFeed State.mxFeeds
  dsimp only
  refine List.mem_map.mpr ⟨(130, [e]), List.mem_append_right _ (by rw [h]; exact List.mem_singleton.mpr rfl), ?_⟩
  rfl

theorem a_aborts : ∃ k left, attemptOf (aDesc mxWords) feedUps = .aborted k left := by
  rw [attemptOf_eq _ _ rfl]
  exact feedUps_aborts _ _ _ ⟨0, 0, feedCrc 0 0, 5, 0, true, false⟩ (by decide +kernel) (by decide +kernel)

/-- The product of fragments of zeros. -/
def zeroRow : OpRow := { opds := List.replicate 16 ⟨codeVal 5 0, [unitsOf (unitExp 5) (codeVal 5 0)]⟩, bad := false, lost := false, exp := unitExp 5 }
theorem frag_rows : aFrag.rows = List.replicate 16 zeroRow := by decide +kernel
theorem frag_cols : aFrag.cols = List.replicate 16 zeroRow := by decide +kernel
def zeroOpd : Opd := ⟨codeVal 5 0, [unitsOf (unitExp 5) (codeVal 5 0)]⟩
def zeroCell : Cell := Cell.zero.addMul zeroOpd zeroOpd
theorem zero_at : ∀ r, r < 16 → ∀ k, k < 16 →
    (((List.replicate 16 zeroRow).map (fun x => x.opds)).getD r []).getD k ⟨.num false 0 0, []⟩ = zeroOpd := by decide +kernel
def sumRow : List SumCell := List.replicate 64 ⟨0, 0⟩
theorem frag_grid : fragGrid (List.replicate 16 zeroRow) (List.replicate 16 zeroRow) =
    { cells := List.replicate 64 (List.replicate 64 zeroCell), row := sumRow, col := sumRow, corner := ⟨0, 0⟩ } := by
  have r : (fragGrid (List.replicate 16 zeroRow) (List.replicate 16 zeroRow)).row = sumRow := by decide +kernel
  have c : (fragGrid (List.replicate 16 zeroRow) (List.replicate 16 zeroRow)).col = sumRow := by decide +kernel
  have k : (fragGrid (List.replicate 16 zeroRow) (List.replicate 16 zeroRow)).corner = ⟨0, 0⟩ := by decide +kernel
  have cells : (fragGrid (List.replicate 16 zeroRow) (List.replicate 16 zeroRow)).cells = List.replicate 64 (List.replicate 64 zeroCell) := by
    unfold fragGrid
    dsimp only
    refine List.eq_replicate_iff.mpr ⟨by simp only [List.length_map, List.length_range], fun l hl => ?_⟩
    obtain ⟨p, hp, rfl⟩ := List.mem_map.mp hl
    refine List.eq_replicate_iff.mpr ⟨by simp only [List.length_map, List.length_range], fun c hc => ?_⟩
    obtain ⟨q, hq, rfl⟩ := List.mem_map.mp hc
    have hp := List.mem_range.mp hp
    have hq := List.mem_range.mp hq
    rw [zero_at _ (by omega) _ (by omega), zero_at _ (by omega) _ (by omega)]
    rfl
  generalize fragGrid (List.replicate 16 zeroRow) (List.replicate 16 zeroRow) = g at r c k cells
  obtain ⟨a, b, d, e⟩ := g
  simp only at r c k cells
  subst r c k cells
  rfl
theorem frag_holds : ((aS onePass .fresh).fragAttempt 5 noUps aFrag).1.ok = true := by
  unfold State.fragAttempt
  simp only [frag_rows, frag_cols, show aFrag.type = 5 from rfl, frag_grid]
  decide +kernel

theorem witness_ArraysReleaseRetryAndSubstitute :
    (∀ d ∈ [onePass, twoPass, aDesc mxWords], let mx := ((aS d .fresh).tile 5).mx
     mx.descs = [d] ∧ mx.held = none ∧ mx.retired = false ∧ mx.run = .fresh ∧ mx.run.lets false = true ∧ mx.ftq.length + d.needs ≤ 8) ∧
    onePass.lastPass = true ∧ twoPass.lastPass = false ∧
    (∃ v vals flags, attemptOf onePass noUps = .checked v vals flags false ∧ v.ok = true) ∧
    (∃ v vals flags, attemptOf twoPass noUps = .checked v vals flags false ∧ v.ok = true) ∧
    (∃ v vals flags, attemptOf onePass { noUps with drains := [63] } = .checked v vals flags false ∧ v.ok = false) ∧
    (∃ k left, attemptOf (aDesc mxWords) feedUps = .aborted k left) ∧
    (let s := aS onePass .fresh
     (s.tile 5).mx.frags = [aFrag] ∧ (s.tile 5).mx.run.lets true = true ∧ (s.fragAttempt 5 noUps aFrag).1.ok = true ∧ aFrag.fd + 8 ≤ 64 ∧
       (s.ctx 5 2).isSome = true ∧ s.sameGroup 5 2 0 = true ∧ (s.tile 5).epis = [anEpi 4 []] ∧ (s.tile 5).mx.headTile = some [entry0]) ∧
    ((aS onePass { MxRun.fresh with phase := .substWait }).tile 5).mx.run.phase = .substWait ∧
    ((aS onePass { MxRun.fresh with phase := .substWait }).tile 5).mx.faulty ≤ 64 ∧
    ((aS onePass { MxRun.fresh with phase := .retryWait }).tile 5).mx.run.phase = .retryWait ∧
    ((aS onePass .fresh).tile 5).mx.run.phase ≠ .retryWait :=
  ⟨by decide +kernel, by decide +kernel, by decide +kernel, onePass_holds, twoPass_holds, onePass_fails, a_aborts,
    ⟨by decide +kernel, by decide +kernel, frag_holds, by decide +kernel⟩, by decide +kernel, by decide +kernel, by decide +kernel,
    by decide +kernel⟩

/-- An epilogue that has started; a copy; a copy from clean hearth bytes to scratchpad 512. -/
def hearthCopy : List Nat := [2 * 2 ^ 60 + 2 ^ 55, 256, 512, 64 + 64 * 2 ^ 32, 64 + 2 ^ 32, 0, 0, 0]
def cS : State := fOf { mTile fX [] with copies := [{ words := hearthCopy, token := 3, op := 6 }], epis := [anEpi 4 [entry0]] }

theorem witness_EpiloguesAndCopiesCompleteTheirTokens :
    ((cS.tile 5).epis = [anEpi 4 [entry0]] ∧ (anEpi 4 [entry0]).tile ≠ [] ∧ ((cS.tile 5).copies.find? (fun c => c.op = 6)).isSome = true) ∧
    ((cS.tile 5).copies = [{ words := hearthCopy, token := 3, op := 6 }] ∧ NoFlips cS 5 ∧ cpMode hearthCopy = 0 ∧
      cpZero hearthCopy = false ∧ cpRows hearthCopy = 1 ∧ cpLen hearthCopy = 64 ∧ dfld hearthCopy 0 55 1 = 1 ∧
      dfld hearthCopy 0 54 1 = 0 ∧ dfld hearthCopy 1 0 64 + 64 ≤ hearthEnd ∧ (∀ b, cS.badAt b = false) ∧
      (cS.tile 5).lostIn = [] ∧ (cS.tile 5).opWrites = []) := by
  refine ⟨by decide +kernel, by decide +kernel, ⟨?_, ?_, ?_⟩, ?_, ?_, ?_, ?_, ?_, ?_, ?_, fun b => ?_, ?_⟩
  all_goals first | decide +kernel | skip
  have e : cS.memBad = [] := by decide +kernel
  simp [State.badAt, e, SMap.getD, SMap.find]


/-! ## The stoke unit and the boundary -/

/-- A ready module in a state of the stoke unit and a phase, with a plan in force that is replayable. -/
def upS (st : Nat) (p : Phase) : State :=
  let s := (planned.wr pgDev Reg.devStateReady 1).wr pgStk Reg.stkState st
  { s with stoke := { s.stoke with phase := p, working := decide (st = 1 ∨ st = 2) } }
def fails (s : State) : State := { s with stoke := { s.stoke with fails := [1] } }
def staged (stage : Nat) (s : State) : State :=
  { s with plans := { s.plans with staging := some { tag := none, addr := 0, len := 768, swapAt := 0, stage := stage, code := 0, detail := 0, plan := none } } }

/-- RUN at B+1,088 and one phase on; HELD; a cutoff before a stoke that is quenched. -/
theorem witness_QuenchesFailThisStokeOrTheNext :
    ((upS 1 .writeback).running = true ∧ (upS 2 .writeback).stoke.phase.rank ≤ Phase.writeback.rank ∧ (upS 2 .work).stoke.fails = []) ∧
    ((upS 2 .committed).running = true ∧ Phase.writeback.rank < (upS 2 .committed).stoke.phase.rank) ∧
    (upS 3 .work).running = false ∧ (upS 0 .work).running = false ∧
    (let s := { upS 1 .cutoff with stoke := { (upS 1 .cutoff).stoke with quenchNext := true, failsNext := [3] } }
     s.inPhase .cutoff = true ∧ s.running = true ∧ s.stoke.quenchNext = true) := by decide +kernel

/-- A follower's stoke before its first edge, after one at cycle 0, and with a full counter. -/
theorem witness_SyncEdgesCountOnce :
    let s := base.wr pgStk Reg.stkCtrlSyncMode 1
    (s.rd pgStk Reg.stkCtrlSyncMode = 1 ∧ s.stoke.edge = none) ∧
    (let t := { s.wr pgStk Reg.stkSyncMissExtra 65535 with stoke := { s.stoke with edge := some 0 } }
     t.rd pgStk Reg.stkCtrlSyncMode = 1 ∧ t.stoke.edge.isSome = true) := by decide +kernel

/-- RUN, IDLE with and without a staged plan (staged and one check short of it), a follower's stokes without an edge. -/
theorem witness_StokeCommandsWaitForTheDecision :
    ((upS 1 .work).rd pgStk Reg.stkState ≠ 0 ∧ (staged 4 (upS 0 .work)).stagedOk = true) ∧
    ((upS 0 .work).rd pgStk Reg.stkState = 0 ∧ (upS 0 .work).stagedOk = false ∧ (staged 3 (upS 0 .work)).stagedOk = false ∧
      (upS 0 .work).rd pgStk Reg.errValid = 0 ∧ ((upS 0 .work).wr pgStk Reg.errValid 1).rd pgStk Reg.errValid = 1) ∧
    ((upS 1 .work).pairEn = false ∧ ((upS 1 .work).wrs pgKnk [(Reg.knkCtrlPairEn, 1), (Reg.knkStatePstate, 4)]).pstate ≠ 3) ∧
    (let s := (upS 1 .work).wr pgStk Reg.stkCtrlSyncMode 1
     s.follower = true ∧ s.stoke.edge = none ∧ s.stoke.ownStart = false ∧
     (let t := { s.wr pgStk Reg.stkSyncCfgLossN 1 with stoke := { s.stoke with noEdge := 1 } }
      t.follower = true ∧ t.rd pgStk Reg.stkSyncCfgLossN ≤ t.stoke.noEdge ∧ 1 ≤ t.stoke.noEdge ∧
        t.rd pgStk Reg.stkStateSyncLost = 0)) := by decide +kernel

theorem witness_BoundaryClearsTheTiles :
    (upS 1 .work).inPhase .work = true ∧ (upS 2 .drain).inPhase .drain = true ∧ (upS 3 .writeback).inPhase .writeback = true ∧
      (upS 0 .committed).inPhase .committed = true := by decide +kernel

/-- The premises of every clause at the replay decision. -/
def AtDecision (s : State) : Prop :=
  s.inPhase .committed = true ∧ s.pair.readyCount = none ∧ s.noticeDue (s.rd pgStk Reg.stkWork) = false
def noCommand (s : State) : Prop := s.stoke.startCmd = false ∧ s.stoke.stopCmd = false ∧ s.stoke.resumeCmd = false
def mayReplay (st cnt : Nat) : State :=
  fails ((upS st .committed).wrs pgStk [(Reg.stkCtrlReplayEn, 1), (Reg.stkCtrlReplayMax, 2), (Reg.stkStateReplayCnt, cnt)])
def commanded (start stop resume : Bool) (s : State) : State :=
  { s with stoke := { s.stoke with startCmd := start, stopCmd := stop, resumeCmd := resume } }

theorem witness_ReplayDecisionFollowsTheStateTable :
    (AtDecision (upS 1 .committed) ∧ noCommand (upS 1 .committed) ∧ (upS 1 .committed).stoke.fails = [] ∧
      (upS 2 .committed).rd pgStk Reg.stkState = 2) ∧
    (AtDecision (mayReplay 1 0) ∧ noCommand (mayReplay 1 0) ∧ (mayReplay 1 0).stoke.working = true ∧ (mayReplay 1 0).stoke.fails ≠ [] ∧
      (mayReplay 1 0).replayAllowed = true ∧ (mayReplay 2 1).replayAllowed = true) ∧
    (AtDecision (mayReplay 2 2) ∧ noCommand (mayReplay 2 2) ∧ (mayReplay 2 2).stoke.fails ≠ [] ∧ (mayReplay 2 2).replayAllowed = false) ∧
    (AtDecision (commanded false true false (upS 2 .committed)) ∧ AtDecision (commanded false true false (mayReplay 2 1)) ∧
      (commanded false true false (mayReplay 2 1)).rd pgStk Reg.stkState = 2) ∧
    (AtDecision (commanded true false false (staged 4 (upS 0 .committed))) ∧ (staged 4 (upS 0 .committed)).stagedOk = true) ∧
    AtDecision (commanded false false true (upS 3 .committed)) ∧
    (AtDecision (upS 3 .committed) ∧ noCommand (upS 3 .committed) ∧ AtDecision (upS 0 .committed)) ∧
    ((mayReplay 1 0).wr pgStk Reg.stkCtrlReplayEn 0).rd pgStk Reg.stkCtrlReplayEn = 0 ∧
    (mayReplay 1 2).rd pgStk Reg.stkCtrlReplayMax ≤ (mayReplay 1 2).rd pgStk Reg.stkStateReplayCnt := by
  unfold AtDecision noCommand; decide +kernel

def dig (chain v : Nat) : DigRec :=
  { chain := chain, work := 0, dg := [v, 0, 0, 0], run := 0, isVoid := false, crc := 5, faults := 0, devStk := 0, hashes := [] }
/-- PAIRED at the first boundary of a chain, after the last work stoke number before it wraps; the own record holds v. -/
def pairedS (v : Nat) : State :=
  let s := (upS 1 .committed).wrs pgKnk [(Reg.knkCtrlPairEn, 1), (Reg.knkStatePstate, 1), (Reg.knkConfWork, 2 ^ 64 - 1)]
  { s with pair := { s.pair with chainNo := 3, chainOn := true, fresh := [dig 0 7], journal := [dig 3 v] } }

theorem witness_LatchPointToStokeEvent :
    ((upS 0 .decided).inPhase .decided = true ∧
      (({ upS 1 .decided with shadow := [(regKey pgStk Reg.stkPeriod, 16384)] } : State).inPhase .decided = true)) ∧
    ((upS 2 .latched).inPhase .latched = true ∧ (upS 2 .latched).stoke.working = true) ∧
    (let s := { upS 2 .tabled with stoke := { (upS 2 .tabled).stoke with stopAtCutoff := true } }
     s.inPhase .tabled = true ∧ s.stoke.stopAtCutoff = true) ∧
    (upS 3 .cutoff).inPhase .cutoff = true ∧
    ((upS 3 .committed).inPhase .committed = true ∧ (upS 3 .committed).pairEn = false) ∧
    ((pairedS 8).inPhase .committed = true ∧ (pairedS 8).pairEn = true ∧ (pairedS 8).pstate = 1 ∧ (pairedS 8).pair.fresh = [dig 0 7] ∧
      (dig 0 7).isVoid = false ∧ (pairedS 8).ownRecs 0 ≠ [] ∧ ((pairedS 8).ownRecs 0).all (dig 0 7).same = false) ∧
    (((pairedS 7).ownRecs 0).all (dig 0 7).same = true ∧ (pairedS 7).pair.awaited = [] ∧ (pairedS 7).pair.chainOn = true ∧
      (pairedS 7).pair.confirmed = [] ∧ (dig 0 7).work = ((pairedS 7).knk Reg.knkConfWork + 1) % 2 ^ 64 ∧
      (pairedS 7).lag ≤ (pairedS 7).knk Reg.knkCtrlLagMax ∧ -((pairedS 7).knk Reg.knkCtrlLagMax : Int) ≤ (pairedS 7).lag) := by
  decide +kernel


/-! ## Work lists, the hearth, channels, the far tier, flues and traffic -/

/-- Words in memory from an address, as the canonical form lists them. -/
def wordsAt (a : Nat) (ws : List Nat) : List Host.Cell :=
  ((ws.flatMap (leBytes 8)).zipIdx.filter (fun e => e.1 != 0)).map (fun e => (a + e.2, e.1))
/-- Tile 5 runs a list at 4,096 whose stride holds so many entries, at an index, its contexts and resident launches given. -/
def wlS (words : List Nat) (entries k : Nat) (t : Tile) : State :=
  let s := (upS 1 .work).wrs (pgTil 5) [(Reg.ctrlEnable, 1), (Reg.tilState, 1), (Reg.tilStateEntry, k), (Reg.tilLogicalLtile, 0)]
  let s := s.wr (pgTlm 5) Reg.tlmStateSplit 1
  { s with plans := { s.plans with active := some { plan0 with wldir := [4096], wlStride := 32 * entries } },
           mem := wordsAt 4096 words, tiles := [(5, t)] }
/-- LAUNCH of 2 groups, the last of 1 lane, on sequencer 7, split 1; WAIT; MARK 9; END. -/
def lw0 : Nat := 2 ^ 60 + 2 ^ 57 + 2 ^ 55 + 2 ^ 43 + 2 ^ 32
def lwords : List Nat := [lw0, 0, 2 ^ 39, 77, 2 * 2 ^ 60, 0, 0, 0, 3 * 2 ^ 60, 9 * 2 ^ 16, 0, 0, 0, 0, 0, 0]
def theEntry (words : List Nat) (k : Nat) : WlEntry :=
  { w0 := words.getD (4 * k) 0, w1 := words.getD (4 * k + 1) 0, pc := words.getD (4 * k + 2) 0, arg := words.getD (4 * k + 3) 0, bad := false }
def idle5 : Tile := Tile.empty
def lS (k : Nat) : State := wlS lwords 4 k idle5
/-- LAUNCH under split 2; a WAIT that starts at cycle 9; a launch 3 resident until cycle 500. -/
def w2 : List Nat := [lw0 + 2 ^ 57, 0, 2 ^ 39, 77]
def w9 : List Nat := [2 * 2 ^ 60 + 9, 0, 0, 0]
def lateS : State := wlS lwords 4 3 { idle5 with resident := [(3, 500)] }

theorem witness_WorkListsIssueTheirEntries :
    (AtEntry (lS 0) 5 0 1 (theEntry lwords 0) ∧ placeGroups ((lS 0).tile 5) (theEntry lwords 0) = some [28, 29] ∧
      (theEntry lwords 0).split = (lS 0).split 5) ∧
    (AtEntry (wlS w2 1 0 idle5) 5 0 1 (theEntry w2 0) ∧ (theEntry w2 0).split ≠ (wlS w2 1 0 idle5).split 5 ∧
      ((wlS w2 1 0 idle5).tile 5).ctxs = []) ∧
    AtEntry (lS 1) 5 0 2 (theEntry lwords 1) ∧ AtEntry (lS 2) 5 0 3 (theEntry lwords 2) ∧ AtEntry (wlS w9 1 0 idle5) 5 9 2 (theEntry w9 0) ∧
    (let s := wlS w9 1 0 idle5
     s.coreRuns 5 = true ∧ s.entryAt 5 0 = some (theEntry w9 0) ∧ (theEntry w9 0).valid s.cycleB = true ∧
       s.entryReady 5 8 (theEntry w9 0) = false) ∧
    ((lS 3).coreRuns 5 = true ∧ (lS 3).entryAt 5 3 = some (theEntry lwords 3) ∧ (theEntry lwords 3).valid (lS 3).cycleB = true ∧ (theEntry lwords 3).kind = 0 ∧
      (lS 4).coreRuns 5 = true ∧ (lS 4).entryAt 5 4 = none) ∧
    (lateS.coreRuns 5 = true ∧ (lateS.tile 5).overrun = false ∧
      (lateS.unissued 5).all (fun e => 500 < e.2.deadline lateS.cycleB) = true ∧ (lateS.tile 5).resident = [(3, 500)] ∧
      (lateS.tile 5).resident.all (fun r => 499 < r.2) = true ∧ (lateS.tile 5).stalledBar 3 = none) := by
  refine ⟨⟨⟨?_, ?_, ?_, ?_, ?_, ?_, ?_, ?_, ?_⟩, ?_, ?_⟩, ⟨⟨?_, ?_, ?_, ?_, ?_, ?_, ?_, ?_, ?_⟩, ?_, ?_⟩, ⟨?_, ?_, ?_, ?_, ?_, ?_, ?_, ?_, ?_⟩,
    ⟨?_, ?_, ?_, ?_, ?_, ?_, ?_, ?_, ?_⟩, ⟨?_, ?_, ?_, ?_, ?_, ?_, ?_, ?_, ?_⟩, ?_, ?_, ?_⟩ <;> decide +kernel

/-- A request of len bytes at an address, a write of all of them. -/
def hr (a len : Nat) (w late : Bool) : HearthReq :=
  { tile := none, tc := 1, late := late, addr := BitVec.ofNat 64 a, len := len, write := w, mask := if w then rowMask a len else 0, hint := 0,
    slots := 1, cells := [], flues := [], failed := false }
def aRow : Nat := nearBase + 512 * 7
def aKey : Nat := cacheKey (base.partOf aRow) 0 3
def aLine : CLine := { row := 7, valid := 0x80, dirty := 0, age := 2, rp := 0, tc := 1, want := 1 }
def cacheS : State := { base.wr pgTrf Reg.trfCtrlLateEn 1 with hub := { base.hub with cache := [(aKey, aLine)] } }
def aVb (sent : Bool) : VbLine := { row := 7, valid := 0xFF, dirty := 1, rp := 0, want := 0, sent := sent, tc := 1 }
def vbS (sent : Bool) : State := { base with hub := { base.hub with vbuf := [(159, [aVb sent])] } }
def vbAt (a : Nat) : State := { base with hub := { base.hub with vbuf := [(base.partOf a, [aVb false])] } }

/-- No flue of any page is armed in a state whose only register out of reset is TRF_CTRL. -/
theorem no_flue_armed (h : Memory) (page : Nat) : ({ base.wr pgTrf Reg.trfCtrlLateEn 1 with hub := h } : State).flag (pgFlu page) Reg.fluFlipArm = false := by
  have ne : regKey (pgFlu page) Reg.fluFlipArm ≠ regKey pgTrf Reg.trfCtrlLateEn := by
    have b : Reg.fluFlipArm.bit < 32768 ∧ Reg.trfCtrlLateEn.bit < 32768 := by decide
    have k : Reg.kindIndex (pgFlu page).kind < 64 ∧ Reg.kindIndex pgTrf.kind < 64 ∧ Reg.kindIndex (pgFlu page).kind ≠ Reg.kindIndex pgTrf.kind := by
      refine ⟨?_, ?_, ?_⟩ <;> exact of_decide_eq_true rfl
    unfold regKey
    omega
  have e : ({ base.wr pgTrf Reg.trfCtrlLateEn 1 with hub := h } : State).rd (pgFlu page) Reg.fluFlipArm = base.rd (pgFlu page) Reg.fluFlipArm :=
    rd_wr_ne base pgTrf (pgFlu page) _ _ 1 ne
  unfold State.flag
  rw [e]
  rfl

theorem clean (r : HearthReq) (h1 : isNear r.addr.toNat = true) (h2 : r.cells = []) (h3 : r.flues = []) (h4 : r.failed = false)
    (h5 : 0 < r.slots) (h6 : r.tile = none) : CleanRequest cacheS r :=
  ⟨h1, ⟨h2, rfl, rfl⟩, ⟨h3, no_flue_armed _⟩, ⟨h4, rfl⟩, ⟨rfl, rfl⟩, h5, fun n h => absurd (h6.symm.trans h) (by simp), rfl⟩

theorem witness_HearthServesNearMemory :
    (let r := hr (aRow + 504) 8 false true
     CleanRequest cacheS r ∧ cacheS.lineAt (cacheS.partOf (aRow + 504)) (rowOf (aRow + 504)) = some (aKey, aLine) ∧
      sectorMask (aRow + 504) 8 &&& ~~~(aLine.valid ||| 0) = 0 ∧ lateMark cacheS r = true) ∧
    (let r := hr aRow 64 true false
     CleanRequest cacheS r ∧ cacheS.lineAt (cacheS.partOf aRow) (rowOf aRow) = some (aKey, aLine) ∧
      touched r.mask &&& ~~~(aLine.valid ||| covered r.mask) = 0) ∧
    (let s : State := { cacheS with hub := base.hub }
     CleanRequest s (hr aRow 4 true false) ∧ s.hub.cache = [] ∧ SMap.getD s.hub.ghost (s.partOf aRow) [] = [] ∧
       (s.cacheWays (s.partOf aRow)).length = 24) ∧
    (isNear (BitVec.ofNat 64 aRow).toNat = true ∧ SoundCells cacheS ∧ (∀ page, cacheS.flag (pgFlu page) Reg.fluFlipArm = false) ∧
      SMap.getD cacheS.hub.vbuf (cacheS.partOf aRow) [] = [] ∧ aLine.want ≠ 0) ∧
    (SoundCells (vbAt aRow) ∧ (∀ page, (vbAt aRow).flag (pgFlu page) Reg.fluFlipArm = false) ∧
      SMap.getD (vbAt aRow).hub.vbuf ((vbAt aRow).partOf aRow) [] = [aVb false] ∧ (aVb false).row = rowOf aRow) ∧
    (SMap.getD (vbS false).hub.vbuf (159 : Fin 160) [] = [aVb false] ∧ (aVb false).want = 0 ∧ SMap.getD (vbS true).hub.vbuf (159 : Fin 160) [] = [aVb true] ∧
      SMap.getD (vbS true).hub.waiting (159 : Fin 160) [] = []) ∧
    (let s : State := { base with hub := { base.hub with corrections := [511] } }
     (4088 : BitVec 64).toNat / 8 ∈ s.hub.corrections ∧ s.flag (pgHrt (s.partOf 4088)) Reg.hrtFlipArm = false ∧
       s.flag (pgGdc (s.chanOf 4088)) Reg.gdcFlipArm = false ∧ SMap.find s.hub.bankErr 511 = none ∧ (4096 : BitVec 64).toNat / 8 ∉ s.hub.corrections) ∧
    (let s := base.wr (pgHrtx 159) (Reg.hrtBankUe 23) 4
     max 1 (s.rd (pgHrt 159) Reg.hrtCtrlBankUeMax) ≤ s.rd (pgHrtx 159) (Reg.hrtBankUe 23) ∧ 24 * 159 + 23 ∉ s.hub.retireBanks ∧
       s.rd (pgHrtx 159) (Reg.hrtBankRole 23) = 0) := by
  refine ⟨⟨clean _ (by decide +kernel) rfl rfl rfl (by decide) rfl, by decide +kernel⟩, ⟨clean _ (by decide +kernel) rfl rfl rfl (by decide) rfl, by decide +kernel⟩,
    ⟨⟨by decide +kernel, ⟨rfl, rfl, rfl⟩, ⟨rfl, no_flue_armed _⟩, ⟨rfl, rfl⟩, ⟨rfl, rfl⟩, by decide, fun n h => absurd h (by simp [hr]), rfl⟩, by decide +kernel⟩,
    ⟨by decide +kernel, ⟨rfl, rfl⟩, no_flue_armed _, by decide +kernel⟩, ⟨⟨rfl, rfl⟩, fun _ => rfl, by decide +kernel⟩, by decide +kernel⟩

def farReq (w : Bool) (o : FarOwner) : FarReq := { id := 4, slot := 7, addr := 2 ^ 40, len := 64, write := w, owner := o }
def farS (q : FarReq) : State := { base with hub := { base.hub with farReqs := [q] } }
def farDev (cap : Nat) : FarDev :=
  { slot := 0, isPresent := true, type3 := true, direct := true, ver := 0, pmem := false, mediaReady := true, committed := true, cap := BitVec.ofNat 64 cap }

theorem witness_ChannelsAndTheFarTier :
    ((3 : Fin 8).val < 4 ∧ 4 ≤ (4 : Fin 8).val) ∧
    (let s : State := { base with hub := { base.hub with repairing := [(143, 5, 6)] } }
     SMap.find s.hub.repairing (143 : Fin 144) = some (5, 6) ∧ s.hub.repairDue = []) ∧
    (let s := base.wrs (pgGdc 0) [(Reg.gdcBucketLimit, 1), (Reg.gdcBucketLevel, 64), (Reg.gdcCtrlUeFence, 1)]
     s.rd (pgGdc 0) Reg.gdcBucketLimit ≠ 0 ∧ 64 * s.rd (pgGdc 0) Reg.gdcBucketLimit ≤ s.rd (pgGdc 0) Reg.gdcBucketLevel ∧
       SMap.getD s.hub.disarmed (0 : Fin 144) false = false ∧ s.rd (pgGdc 0) Reg.gdcCtrlUeFence ≠ 0 ∧
       s.rd (pgGdc 0) Reg.gdcCtrlUeFence ≤ SMap.getD { s with hub := { s.hub with chanUe := [(0, 1)] } }.hub.chanUe (0 : Fin 144) 0 ∧
       (0 : Nat) ∉ s.hub.fenceChans ∧ s.flag (pgGdc 0) Reg.gdcStateRefx2 ≠ true) ∧
    ((farS (farReq false (.fill 5))).hub.farReqs.find? (fun r => r.id = 4) = some (farReq false (.fill 5)) ∧
      (farS (farReq true (.store 5))).hub.farReqs.find? (fun r => r.id = 4) = some (farReq true (.store 5))) ∧
    (let d := farDev 128000000000
     base.rd pgStk Reg.stkState = 0 ∧ base.rd (pgFar d.slot) Reg.farState = 0 ∧ farPlaced d = true ∧ base.farWhy d = 0 ∧
       base.farWhy (farDev 127999999999) ≠ 0 ∧ { d with isPresent := false }.isPresent = false ∧
       (upS 3 .work).rd pgStk Reg.stkState = 3 ∧ farPlaced { d with slot := 1 } = false ∧
       (let s := (upS 1 .work).wr (pgFar d.slot) Reg.farState 1; s.rd (pgFar d.slot) Reg.farState = 1 ∧ s.farWhy d = 0)) ∧
    (let s := base.wrs (pgFar 0) [(Reg.farState, 2), (Reg.farStateDirect, 1)]
     s.farDirect (0 : Fin 8) = true ∧ s.rd pgStk Reg.stkState = 0 ∧ base.farDirect (7 : Fin 8) = false) := by decide +kernel

def flueS (n : Nat) : State :=
  { base.wrs (pgFlu 271) [(Reg.fluCtrlLaneErrMax, 2)] with flues := { base.flues with counts := [(laneKey 271 194 67, n)] } }
def obs (free granted : Nat) : GuarObs := { cls := 4, free := free, granted := granted, taken := [0, 0, 0, 0, 0] }
def trafS : State := base.wr pgTrf Reg.trfMonTol 1

theorem witness_FluesAndTraffic :
    (max 1 ((flueS 2).rd (pgFlu 271) Reg.fluCtrlLaneErrMax) ≤ SMap.getD (flueS 2).flues.counts (laneKey 271 194 67) 0 ∧
      bitAt ((flueS 2).fluMask 271 194) 67 = false ∧ (271, 194, 67) ∉ (flueS 2).flues.declared ∧ 194 < fluBundles 271) ∧
    SMap.getD (flueS 1).flues.counts (laneKey 271 194 67) 0 < max 1 ((flueS 1).rd (pgFlu 271) Reg.fluCtrlLaneErrMax) ∧
    fluPages.contains 271 = true ∧ fluPages.contains 0 = true ∧ (flueS 1).flues.counts = [(laneKey 271 194 67, 1)] ∧
    (base.flag pgDev Reg.devStateReady = false ∧ (upS 1 .work).stoke.phase ≠ .decided) ∧
    (let s : State := { upS 1 .decided with flues := { base.flues with declared := [(159, 161, 67)] } }
     s.inPhase .decided = true ∧ s.flues.declared = [(159, 161, 67)] ∧ s.flues.sweeps = []) ∧
    (trafS.rd pgTrf Reg.trfMonTol < trafS.owed 4 1024 - (trafS.owed 4 1024 - 2) ∧
      trafS.owed 4 1024 - (trafS.owed 4 1024 - 1) ≤ trafS.rd pgTrf Reg.trfMonTol) ∧
    (let m := base.blwFall 1 0 (base.blwRise 1 0 (base.rd pgTrf (Reg.trfBlwLevel 1)))
     m < 4 ∧ base.rd pgTrf (Reg.trfBlwLevel 0) < 4) := by decide +kernel


/-! ## Registers and interrupts -/

def intS : State := { base.wrs pgStk [(Reg.intRaw, 2 ^ 7), (Reg.intEn, 2 ^ 7)] with msixOn := true }.wr pgInt Reg.intCtrlEn 1

/-- With its rails on. -/
def onS : State := { base with mod := { base.mod with pwrGood := true } }

theorem witness_RegisterAccessesFollowTheirCodes :
    Opens onS (acc 0x58) pgDev 0x058 ∧ Opens onS (acc (0x01000000 + 159 * 0x10000 + 0x40)) (pgTil 159) 0x040 ∧
    Opens onS (acc 0x10) pgDev 0x010 ∧ Opens onS (acc (0x03900000 + 15 * 0x1000 + 0x10)) (pgHob 15) 0x010 ∧
    (let s := onS.wr (pgCxp 0) Reg.ctrlLock 1
     Opens s (acc (0x03800000 + Reg.regOff Reg.cxpIngBase + 4)) (pgCxp 0) (Reg.regOff Reg.cxpIngBase + 4) ∧ s.flag (pgCxp 0) Reg.ctrlLock = true) ∧
    Opens onS (acc 0x1020) pgStk 0x020 ∧ Opens onS (acc 0x1054) pgStk 0x054 ∧ Opens onS (acc 0x1058) pgStk 0x058 ∧
    Opens onS (acc 0x1064) pgStk 0x064 ∧ Opens onS (acc 0x1068) pgStk 0x068 := by
  refine ⟨⟨?_, ?_, ?_, ?_, ?_⟩, ⟨?_, ?_, ?_, ?_, ?_⟩, ⟨?_, ?_, ?_, ?_, ?_⟩, ⟨?_, ?_, ?_, ?_, ?_⟩, ⟨⟨?_, ?_, ?_, ?_, ?_⟩, ?_⟩, ⟨?_, ?_, ?_, ?_, ?_⟩, ⟨?_, ?_, ?_, ?_, ?_⟩,
    ⟨?_, ?_, ?_, ?_, ?_⟩, ⟨?_, ?_, ?_, ?_, ?_⟩, ⟨?_, ?_, ?_, ?_, ?_⟩⟩ <;> decide +kernel

theorem witness_BadAccessesAreCaptured :
    (onS.mod.pwrGood = true ∧ (acc 6).bar2 = false ∧ widthOk (acc 6).off.toNat 4 = false ∧ widthOk (acc 4).off.toNat 8 = false ∧ widthOk (acc 4).off.toNat 2 = false) ∧
    ((acc 0x00FFFFFC).off.toNat % 4 = 0 ∧ targetAt false (acc 0x00FFFFFC).off.toNat = .unassigned ∧
      targetAt false (acc 0x0000C000).off.toNat = .unassigned) ∧
    (let s := onS.wrs (pgTil 3) [(Reg.statFenced, 1), (Reg.statDark, 1)]
     let a := acc (0x01000000 + 3 * 0x10000 + 4)
     a.off.toNat % 4 = 0 ∧ targetAt false a.off.toNat = .page (pgTil 3) 4 ∧ s.closed (pgTil 3) = true ∧
       s.darkPage (pgTil 3) = true ∧ s.mod.pwrGood = true ∧ s.flag pgDev Reg.errValid = false) ∧
    (0xFFC : BitVec 12).toNat % 4 = 0 := by decide +kernel

/-- Every source of vector 1 quiet; the stoke unit's line asserted on its vector; vector 63's entry as the reset leaves it. -/
theorem witness_InterruptRegistersRouteAndRearm :
    (∀ n, n < 80 → base.rd pgInt (Reg.intRouteVector n) = 1 → base.sourceLine n = false) ∧
    (intS.sourceLine 1 = true ∧ intS.deliverable = true ∧ intS.rd pgInt (Reg.intRouteVector 1) = 1 ∧
      { intS with msixTable := [(7, 0)] }.vecMasked 1 = false ∧ { intS with msixTable := [(7, 0)] }.sourceLine 1 = true) ∧
    (bitsAt (0x002F30FF : BitVec 32).toNat 0 6 = 63 ∧ bitsAt (0x002F30FF : BitVec 32).toNat 8 6 = 48 ∧ bitsAt (0x002F30FF : BitVec 32).toNat 16 6 = 47) ∧
    (let s : State := { base with msixPend := [(63, true)], msixOn := true }; s.msixOn = true ∧ s.msixMask = false ∧ s.msixPend = [((63 : Fin 64).val, true)]) := by
  decide +kernel

theorem witness_FlipRegistersTaintAndLog :
    (base.wr (pgMxa 159) Reg.statFenced 1).closed (pgMxa 159) = true ∧ base.closed (pgFlu 271) = false ∧ fluPages.contains 271 = true ∧
    (0x7FFFFFFF : BitVec 32).getLsbD 31 = false ∧ (0x80000000 : BitVec 32).getLsbD 31 = true ∧
    { base.sec with log := List.replicate 100 0 }.log.length + 20 ≤ 65536 := by decide +kernel
/-- A log with 19 bytes free. -/
def fullLog : List Byte := List.replicate 65517 0
theorem fullLog_length : fullLog.length = 65517 := by unfold fullLog; exact List.length_replicate
def fullLogS : State := { base with sec := { base.sec with log := fullLog } }
theorem fullLogS_log : fullLogS.sec.log = fullLog := by unfold fullLogS; rfl
theorem witness_FlipRegistersTaintAndLog_full : 65536 < fullLogS.sec.log.length + 20 := by
  rw [fullLogS_log, fullLog_length]
  decide


/-! ## Plans, feed queues, transfers and host accesses -/

/-- One command in front of FQ0, whose rings hold 16 entries with 15 places free, or one. -/
def cmdE (opc tag : Nat) (ws : List Nat) : SqEntry := { slot := 0, words := (opc * 2 ^ 56 + tag * 2 ^ 40) :: ws }
def frontS (e : SqEntry) (tail : Nat) : State :=
  let s := base.wrs (pgFq 0) [(Reg.fqStateEn, 1), (Reg.fqSizeSqLog, 4), (Reg.fqSizeCqLog, 4), (Reg.fqStateCqTail, tail)]
  { s with feed := { s.feed with queues := [(0, { Queue.empty with cmds := [e] })] } }
def smallPlan : Plan :=
  let b := base
  { plan0 with
    nphase := 0, tiles := b.liveTiles.length, treeId := 0x100 + b.liveTiles.length, tileMap := maskOf b.liveTiles
    cmapId := b.cmapId, pmapId := b.pmapId, svcMap := b.svcMap, ucodeHash := b.record.ucodeHash
    regions := [region 1 0 4 (159 * 2 ^ 24 + 23 * 2 ^ 19) 524288], pins := [{ part := 159, first := 23, count := 1, region := 1, rsv := 0 }] }
def drainedG : Staging :=
  { tag := some 9, addr := 0, len := 768, swapAt := 0, stage := 2, code := 0, detail := 0, plan := some smallPlan }
def drained : State := { base with plans := { base.plans with staging := some drainedG } }

theorem witness_PlanCommandsLoadStageAndWithdraw :
    (let s := frontS (cmdE 1 5 [64, 768, 0]) 0
     Front s 1 (cmdE 1 5 [64, 768, 0]) ∧ s.plans.staging = none ∧ Room (staged 1 s) 0 ∧ (staged 1 s).plans.staging ≠ none ∧
       Front (frontS (cmdE 1 5 [0, 2 ^ 32, 0]) 14) 1 (cmdE 1 5 [0, 2 ^ 32, 0]) ∧ Room (frontS (cmdE 1 5 [64, 767]) 14) 0 ∧
       ¬ (63 % 64 = 0 ∧ 768 ≤ 767 ∧ 2 ^ 32 + 1 ≤ 2 ^ 32)) ∧
    (let s := frontS (cmdE 3 5 [1]) 14
     Front s 3 (cmdE 3 5 [1]) ∧ Room s 0 ∧ Front (frontS (cmdE 3 5 [0]) 0) 3 (cmdE 3 5 [0])) ∧
    (let s := frontS (cmdE 2 5 []) 14
     Front s 2 (cmdE 2 5 []) ∧ s.plans.staging = none ∧ Room s 0 ∧ (staged 4 s).plans.staging ≠ none) ∧
    ((∃ g, (staged 1 base).plans.staging = some g ∧ g.plan = none) ∧ base.checkImage [] 768 false = some (0x20, 0xFFFF)) := by
  refine ⟨?_, ?_, ?_, ⟨_, rfl, rfl⟩, ?_⟩
  all_goals (try unfold Front Room)
  all_goals decide +kernel

theorem maps_of_plans (q : Plans) : State.cmapId { base with plans := q } = base.cmapId ∧ State.pmapId { base with plans := q } = base.pmapId :=
  ⟨rfl, rfl⟩
theorem drained_maps : smallPlan.cmapId = drained.cmapId ∧ smallPlan.pmapId = drained.pmapId :=
  ⟨(maps_of_plans _).1.symm, (maps_of_plans _).2.symm⟩
theorem drained_tiles : (smallPlan.ucodeHash == drained.record.ucodeHash) = true ∧ smallPlan.tiles = drained.liveTiles.length ∧
    smallPlan.treeId = 0x100 + smallPlan.tiles ∧ lowestDiff 160 smallPlan.tileMap (maskOf drained.liveTiles) = none ∧
    lowestDiff 16 smallPlan.svcMap drained.svcMap = none := by decide +kernel
theorem drained_shape : drained.slowPort smallPlan = none ∧ drained.narrowPort smallPlan = none ∧ drained.cxp1Ok smallPlan = true ∧
    drained.checkPins smallPlan = none ∧ drained.checkBanks smallPlan = none ∧ drained.checkHload smallPlan = none ∧
    drained.checkRegions smallPlan = none ∧ drained.checkFar smallPlan = none ∧ checkRouters smallPlan = none ∧
    drained.checkFrames smallPlan = none := by decide +kernel

/-- A plan of one pinned bank, drained, that passes every check of its shape and its lists. -/
theorem witness_PlanCommandsLoadStageAndWithdraw_drained :
    (∃ g, drained.plans.staging = some g ∧ g.plan = some smallPlan ∧ g.stage = 2) ∧ drained.plans.draining = [] ∧
    drained.checkShape smallPlan false = none ∧ (drained.writeHloads smallPlan).checkLists smallPlan = none := by
  refine ⟨⟨drainedG, rfl, rfl, rfl⟩, rfl, ?_, by decide +kernel⟩
  obtain ⟨c1, c2⟩ := drained_maps
  obtain ⟨t1, t2, t3, t4, t5⟩ := drained_tiles
  obtain ⟨p1, p2, p3, p4, p5, p6, p7, p8, p9, p10⟩ := drained_shape
  simp only [State.checkShape, State.shapeSteps, t1, decide_eq_true t2, decide_eq_true t3, decide_eq_true c1, decide_eq_true c2, t4, t5,
    p1, p2, p3, p4, p5, p6, p7, p8, p9, p10, List.findSome?_cons, List.findSome?_nil, Option.map_none, Bool.and_true, if_true, reduceIte,
    Bool.false_eq_true]

/-- Partition 159 with a descriptor at 4,096 that starts at cycle 16, of 64 bytes; one of length 0; past its last one. -/
def dmaS (len : Nat) (last : Bool) : State :=
  let s := upS 1 .work
  { s with plans := { s.plans with active := some { plan0 with dmadir := List.replicate 159 0 ++ [4096] }, dmaLast := [(159, last)] },
           mem := wordsAt 4096 [16 * 2 ^ 32 + len, 8192, 16384, 255 * 2 ^ 56] }
def aRun : DmaRun := { part := 159, index := 4, src := farBase - 8, dst := 0, len := 8, flagTile := 0, flag := 15 }
def aCopy (v : Bool) : CkptCopy := { work := 9, gen := 1, todo := [(1, 0)], isVoid := v, finished := false, regions := [], planHash := [] }

theorem witness_PlannedDmaAndCheckpointCopies :
    (let s := dmaS 64 false
     s.stoke.working = true ∧ s.stoke.quenched = false ∧ s.stoke.phase = .work ∧ s.nextDma 159 = some 4096 ∧ s.natAt 4096 4 ≠ 0 ∧
       s.natAt 4100 4 ≤ 16 ∧ 16 < s.cycleB ∧ (dmaS 0 false).nextDma 159 = some 4096 ∧ (dmaS 0 false).natAt 4096 4 = 0 ∧
       (dmaS 64 true).nextDma 159 = none ∧ ¬ (upS 0 .work).stoke.working = true) ∧
    (let s : State := { base with plans := { base.plans with dmaRun := [aRun] } }
     SoundCells s ∧ s.plans.dmaRun.find? (fun x => x.part = (159 : Fin 160).val && x.index = 4) = some aRun ∧ aRun.len = 8 ∧ aRun.src < farBase ∧
       aRun.part = (159 : Fin 160).val ∧ aRun.index = 4 ∧ aRun.dst < farBase ∧ aRun.flag < 16 ∧ aRun.flagTile < s.liveTiles.length) ∧
    (let s := fun v => ({ base with plans := { base.plans with ckpt := some (aCopy v) } } : State)
     SoundCells (s false) ∧ (s false).plans.ckpt = some (aCopy false) ∧ (aCopy false).isVoid = false ∧ (aCopy false).finished = false ∧ (aCopy false).gen < 2 ∧ (aCopy false).todo.length ≤ 1 ∧
       (s true).plans.ckpt = some (aCopy true) ∧ (aCopy true).isVoid = true ∧ (aCopy true).finished = false ∧ (aCopy true).gen < 2) := by unfold SoundCells; decide +kernel

def scrubE (w a n sum : Nat) : SqEntry := cmdE 0x30 5 [w, a, n, sum]
def aScrub : Scrub := { tag := 7, cmdTag := 3, mode := 0, start := 0, len := 512, sumAddr := 64, begun := some 3 }
def scrubbing (l : List Scrub) (s : State) : State := { s with feed := { s.feed with scrubs := l } }

theorem witness_FeedQueuesOfferRunAndComplete :
    (base.flag (pgFq 4) Reg.fqStateEn = false ∧
      (let s := frontS (cmdE 2 5 []) 0
       s.queueOn 0 = true ∧ s.sqSize 0 = 16 ∧ s.cqSize 0 = 16 ∧ (s.queue 0).unread = [] ∧ s.flag (pgFq 0) Reg.fqStateEn = true ∧
         (15 : Nat) < s.sqSize 0 ∧ s.sqSize 0 ≤ 16)) ∧
    (Room (frontS (cmdE 0x10 5 [2]) 14) 0 ∧ Front (frontS (cmdE 0x10 5 [2]) 14) 0x10 (cmdE 0x10 5 [2]) ∧ 2 % 16 = 2) ∧
    (Front (frontS (cmdE 0x20 5 [64]) 0) 0x20 (cmdE 0x20 5 [64]) ∧ Room (frontS (cmdE 0x20 5 [64]) 0) 0) ∧
    (let s := frontS (scrubE 0 1 512 64) 0
     Front s 0x30 (scrubE 0 1 512 64) ∧ Room s 0 ∧ s.scrubOk 0 1 512 64 = false) ∧
    (let e := scrubE (2 ^ 46) 0 0 0
     let s := frontS e 0
     Front s 0x30 e ∧ s.scrubOk (2 ^ 46) 0 0 0 = true ∧ s.feed.scrubs.length < 5 ∧ s.feed.scrubs = [] ∧
       (scrubbing (List.replicate 4 aScrub) s).feed.scrubs.length < 5) ∧
    (let s := scrubbing [aScrub] (frontS (cmdE 2 5 []) 0)
     s.feed.scrubs = [aScrub] ∧ s.hub.wiping = false ∧ Room s 0) := by
  unfold Front Room; decide +kernel

/-- A fixed descriptor of 16 bytes, a pull or a push, at its start; issued; of queue 3. -/
def aXfer (push issued : Bool) : Xfer :=
  { slot := 2, words := [5, 64, farBase - 16, 100 * 2 ^ 32 + 16, 255 * 2 ^ 56 + (if push then 2 ^ 49 else 0)], fixed := true, issued := issued,
    done := false }
def outXfer : Xfer := { aXfer false false with words := [5, 2 ^ 39, 2 ^ 32, 100 * 2 ^ 32 + 16, 255 * 2 ^ 56] }
def xferS (q : Nat) (x : Xfer) (role : Nat) : State :=
  let s := ((upS 1 .work).wr (pgCxp 0) Reg.cxpLinkMode 1).wr pgKnk Reg.knkStateRole role
  { s with feed := { s.feed with queues := [(q, { Queue.empty with xfers := [x] })] } }

theorem witness_TransfersMoveTheirSet :
    (let s := xferS 2 (aXfer true false) 1
     SoundCells s ∧ (s.queue ((1 : Fin 2).val + 1)).xfers = [aXfer true false] ∧ s.nextXfer 2 2 100 = some (aXfer true false) ∧
       (aXfer true false).push = true ∧ (aXfer true false).dst + (aXfer true false).len ≤ farBase) ∧
    (let s := xferS 1 (aXfer false false) 1
     SoundCells s ∧ s.blwFull 0 = false ∧ (s.queue ((0 : Fin 2).val + 1)).xfers = [aXfer false false] ∧ s.nextXfer 1 2 100 = some (aXfer false false) ∧
       (aXfer false false).push = false ∧ s.rd (pgCxp 0) Reg.cxpLinkMode ≠ 0) ∧
    (let s := xferS 1 (aXfer false true) 1
     let x := aXfer false true
     SoundCells s ∧ (s.queue ((0 : Fin 2).val + 1)).xfers = [x] ∧ x.fixed = true ∧ x.issued = true ∧ x.done = false ∧ x.slot = 2 ∧ x.push = false ∧
       s.stoke.phase = .work ∧ s.stoke.quenched = false ∧ x.len ≤ 8 * [0, 1].length ∧ x.dst + x.len ≤ farBase) ∧
    SoundCells (xferS 3 outXfer 1) ∧ SoundCells (xferS 3 outXfer 0) ∧ ((xferS 3 outXfer 1).queue 3).xfers = [outXfer] ∧ (xferS 3 outXfer 1).nextXfer 3 2 100 = some outXfer ∧
      (xferS 3 outXfer 1).lit = true ∧ (xferS 3 outXfer 1).rd (pgCxp 0) Reg.cxpLinkMode ≠ 0 ∧ outXfer.src + outXfer.len ≤ farBase ∧
      (xferS 3 outXfer 0).nextXfer 3 2 100 = some outXfer ∧ (xferS 3 outXfer 0).lit = false := by
  unfold SoundCells; decide +kernel

def hostS : State := (upS 0 .work).wr (pgCxp 0) Reg.cxpLinkMode 1

/-- The last line of the push window and the first byte after it; the first line of the module's memory. -/
theorem witness_HostReachesNearMemory :
    (hostS.hostOpen = true ∧ SoundCells hostS ∧ NoneWaits hostS ∧ hostS.hostAddr true (2 ^ 26 - 8) 8 = some (hostS.pushBase + (2 ^ 26 - 8)) ∧ hostS.hostAddr true (2 ^ 26 - 8) 9 = none ∧
      hostS.hostAddr true (2 ^ 26 - 64) 64 = some (hostS.pushBase + (2 ^ 26 - 64)) ∧ hostS.hostAddr true (2 ^ 26) 64 = none) ∧
    isNear (2 ^ 39) = true ∧ (base.ready = false ∧ hostS.ready = true) ∧
    (hostS.linkFenced (1 : Fin 2) = false ∧ (6 : Fin 7).val ≠ 0 ∧ hostS.booting 11 = false ∧ hostS.flag (pgCxp 1) Reg.errValid = false ∧
      hostS.flag (pgCxp 1) Reg.cxpFlipArm = false) :=
  ⟨⟨by decide +kernel, ⟨rfl, rfl⟩, fun _ => rfl, by decide +kernel⟩, by decide +kernel⟩


/-! ## The pair -/

/-- A pair in a state of its logic, with a role, a link of a width, and a state of the stoke unit. -/
def pairS (pst role width stk : Nat) : State :=
  let s := (upS stk .work).wrs pgKnk [(Reg.knkCtrlPairEn, 1), (Reg.knkStatePstate, pst), (Reg.knkStateRole, role),
    (Reg.knkStateLinkUp, 1), (Reg.knkStateWidth, width)]
  { s with pair := { s.pair with linkLive := true, pinLive := true } }
/-- A data flit of class 0, sequence 0 and null words, with its CRC-64, and with another. -/
def nullFlit (crc : Nat) : BitVec 2048 := BitVec.ofNat 2048 (2 ^ 62 + 2 ^ 1984 * crc)
def flitCrc : Nat := 15630394687402791917

def crcBits (l : List Byte) : List Bool := l.flatMap (fun b => (List.range 8).map (fun i => b.getLsbD (7 - i)))
def flitBytes (f : BitVec 2048) : List Byte := (List.range 248).map (fun i => f.extractLsb' (8 * i) 8)
def zeros60 : List Byte := List.replicate 60 0
/-- The CRC-64 of the flit's 248 bytes, 60 at a time. -/
theorem crc_nullFlit (c : Nat) (h : flitBytes (nullFlit c) = [0, 0, 0, 0, 0, 0, 0, 0x40] ++ zeros60 ++ zeros60 ++ zeros60 ++ zeros60) :
    Hash.crc64 (flitBytes (nullFlit c)) = flitCrc := by
  have h0 : (crcBits [0, 0, 0, 0, 0, 0, 0, 0x40]).foldl Hash.crc64Bit (2 ^ 64 - 1) = 2785965277255141565 := by decide +kernel
  have h1 : (crcBits zeros60).foldl Hash.crc64Bit 2785965277255141565 = 12573118821555035814 := by decide +kernel
  have h2 : (crcBits zeros60).foldl Hash.crc64Bit 12573118821555035814 = 3631136775101914399 := by decide +kernel
  have h3 : (crcBits zeros60).foldl Hash.crc64Bit 3631136775101914399 = 18021533662511695045 := by decide +kernel
  have h4 : (crcBits zeros60).foldl Hash.crc64Bit 18021533662511695045 = 2816349386306759698 := by decide +kernel
  have e : ∀ l, Hash.crc64 l = (crcBits l).foldl Hash.crc64Bit (2 ^ 64 - 1) ^^^ (2 ^ 64 - 1) := fun _ => rfl
  have ap : ∀ a b, crcBits (a ++ b) = crcBits a ++ crcBits b := fun _ _ => List.flatMap_append
  rw [h, e, ap, ap, ap, ap, List.foldl_append, List.foldl_append, List.foldl_append, List.foldl_append, h0, h1, h2, h3, h4]
  decide +kernel

theorem witness_KenkaLinkTrainsAndResends :
    (base.linkFenced 2 = false ∧ base.booting 11 = false ∧ (laneChoice 0xFFFF).1 = 16 ∧ (laneChoice 0x0010).1 = 0 ∧ (laneChoice 0xF000).1 = 4 ∧
      (let s := (pairS 0 1 16 1).wr pgKnk Reg.knkCtrlMinWidth 0
       s.pairEn = true ∧ s.minWidth ≤ (laneChoice 0xF000).1 ∧ s.pstate ≠ 2)) ∧
    ((pairS 1 1 16 1).pairEn = true ∧ (pairS 1 1 16 1).pstate = 1 ∧ (pairS 1 1 16 1).pair.pinLive = true ∧ base.pairEn = false) ∧
    (base.flag pgKnk Reg.errValid = false ∧ base.pair.retraining = false ∧
      (let s : State := { base with pair := { base.pair with retraining := true } }; s.pair.retraining = true ∧ s.pair.held = [])) ∧
    (base.flag pgKnk Reg.knkStateLinkUp = false ∧ (pairS 1 1 16 1).flag pgKnk Reg.knkStateLinkUp = true ∧
      (pairS 1 1 16 1).pair.retraining = false) ∧
    (¬ Hash.crc64 (flitBytes (nullFlit 0)) = ((nullFlit 0).extractLsb' 1984 64).toNat ∧ (pairS 1 1 16 1).pair.rxWait = false ∧
     Hash.crc64 (flitBytes (nullFlit flitCrc)) = ((nullFlit flitCrc).extractLsb' 1984 64).toNat ∧
     (let h := ((nullFlit flitCrc).extractLsb' 0 64).toNat
      flitValid h = true ∧ bitsAt h 62 2 = 1 ∧ bitsAt h 49 10 = (pairS 1 1 16 1).pair.rxSeq ∧ SMap.getD (pairS 1 1 16 1).pair.rx (bitsAt h 59 3) [] = []) ∧
     (∀ i, i < 30 → (nullFlit flitCrc).extractLsb' (64 * (i + 1)) 64 = 0) ∧ (pairS 1 1 16 1).pair.held = []) := by
  rw [crc_nullFlit 0 (by decide +kernel), crc_nullFlit flitCrc (by decide +kernel)]
  decide +kernel

def splitWords (faults : Nat) : List (BitVec 64) := [7, BitVec.ofNat 64 faults]
def splitS (faults : Nat) : State :=
  let s := (pairS 3 1 16 3).wr pgKnk Reg.knkSplitOutcome 0
  { s with pair := { s.pair with ownSplit := some { work := 7, faults := faults, hashes := [] } } }
/-- A common generation 1 in the records of both. -/
def ckS : State :=
  let s := (pairS 3 1 16 3).wr pgKnk Reg.knkSplitOutcome 3
  let r : CkptRec := { work := 9, state := 1, planHash := s.resumeHash }
  { s with pair := { s.pair with ckRecs := [CkptRec.none, r] } }
def fwdS (work : Nat) : State := (pairS 1 0 16 1).wrs pgKnk [(Reg.knkCtrlFwd, 1)] |>.wr pgStk Reg.stkWork work

theorem witness_PairMessagesActAsNamed :
    (let s := (pairS 1 1 16 1).wr pgStk Reg.stkCtrlPairReplay 1
     s.pairEn = true ∧ s.flag pgStk Reg.stkCtrlPairReplay = true ∧ s.stoke.phase.rank < Phase.latched.rank ∧ s.stoke.replaying = false ∧
       s.rd pgStk Reg.stkWork < 1 ∧ s.rd pgStk Reg.stkWork = 0 ∧ s.stoke.working = true) ∧
    (let s : State := { pairS 0 1 16 0 with pair := { (pairS 0 1 16 0).pair with matched := true } }
     base.pairEn = false ∧ s.pairEn = true ∧ s.pstate = 0 ∧ s.linkGood = true ∧ s.pair.matched = true ∧ s.rd pgStk Reg.stkState = 0 ∧
       b2n (bitAt 16 4) ≠ s.knk Reg.knkCtrlPos) ∧
    ((pairS 2 1 16 1).pairEn = true ∧ recMismatch (pairS 2 1 16 1).detrec [] ≠ 0 ∧ (pairS 2 1 16 1).pstate ≤ 2) ∧
    ((pairS 2 1 16 1).pstate = 2 ∧ (pairS 1 1 16 1).pair.sentHandoff = none ∧ (pairS 1 0 16 1).lit = false ∧ (pairS 1 1 16 1).lit = true) ∧
    ((pairS 3 1 16 3).pair.ownSplit = none ∧
      (splitS 4).pair.ownSplit = some { work := 7, faults := 4, hashes := [] } ∧ (splitS 4).pstate = 3 ∧ (splitS 0).pair.splitDone = false ∧
      (splitS 0).rd pgStk Reg.stkState = 3 ∧ (splitS 0).knk Reg.knkSplitOutcome ≠ 4 ∧
      ((splitWords 0).map BitVec.toNat).getD 1 0 = 0 ∧ ((splitWords 1).map BitVec.toNat).getD 1 0 ≠ 0) ∧
    ((pairS 1 1 16 1).pstate ≠ 3 ∧ ckS.pstate = 3 ∧ ckS.knk Reg.knkSplitOutcome = 3 ∧ ckS.ckCommon [] 0 = false ∧ ckS.ckCommon [] 1 = false ∧
      ckS.ckCommon [CkptRec.none, ckS.ckRec 1] 1 = true) ∧
    (let s : State := { pairS 0 1 16 1 with pair := { (pairS 0 1 16 1).pair with readyOwn := some 5 } }
     s.pstate ≠ 5 ∧ s.pair.readyOwn = some 5 ∧ (pairS 0 1 16 1).pair.readyOwn = none ∧ s.flag pgStk Reg.errValid = false) ∧
    ((pairS 1 1 16 1).fwdBanked = false ∧ (fwdS 4).fwdBanked = true ∧ (fwdS 4).stoke.working = true ∧ (fwdS 4).stoke.quenched = false ∧
      (fwdS 4).stoke.phase = .work ∧ (fwdS 4).rd pgStk Reg.stkWork = 4) := by decide +kernel

/-- The words of the own record: a partner that is as this module is. -/
def ownWords (l : List Byte) : List (BitVec 64) := (List.range 20).map (fun i => BitVec.ofNat 64 (leNat (recPart l (8 * i) 8)))
theorem leBytes_leNat (l : List Byte) : leBytes l.length (leNat l) = l := by
  induction l with
  | nil => rfl
  | cons b l ih =>
    have h : (b.toNat + 256 * leNat l) / 256 = leNat l := by have := b.isLt; omega
    simp only [List.length_cons, leBytes, leNat, h, ih, List.cons.injEq, and_true]
    have := b.isLt
    exact BitVec.eq_of_toNat_eq (by rw [BitVec.toNat_ofNat]; omega)
theorem leBytes_leNat_of (n : Nat) (l : List Byte) (h : l.length = n) : leBytes n (leNat l) = l := h ▸ leBytes_leNat l
theorem ownWords_bytes (l : List Byte) (h : l.length = 160) : (ownWords l).flatMap (fun w => leBytes 8 w.toNat) = l := by
  have step : ∀ k, k ≤ 20 → ((List.range k).map (fun i => BitVec.ofNat 64 (leNat (recPart l (8 * i) 8)))).flatMap
      (fun w => leBytes 8 w.toNat) = l.take (8 * k) := by
    intro k hk
    induction k with
    | zero => rfl
    | succ k ih =>
      have e : (recPart l (8 * k) 8).length = 8 := by simp [recPart, h]; omega
      have v : leNat (recPart l (8 * k) 8) % 2 ^ 64 = leNat (recPart l (8 * k) 8) := by
        have := leNat_leBytes 8 (leNat (recPart l (8 * k) 8))
        rw [leBytes_leNat_of 8 _ e] at this
        rw [show (2 : Nat) ^ 64 = 256 ^ 8 from by decide]; exact this.symm
      rw [List.range_succ, List.map_append, List.flatMap_append, ih (by omega)]
      simp only [List.map_cons, List.map_nil, List.flatMap_cons, List.flatMap_nil, List.append_nil, BitVec.toNat_ofNat, v]
      rw [leBytes_leNat_of 8 _ e]
      unfold recPart
      rw [show 8 * (k + 1) = 8 * k + 8 from by omega, List.take_add]
  have := step 20 (by omega)
  rwa [List.take_of_length_le (by omega)] at this
theorem recMismatch_self (l : List Byte) : recMismatch l l = 0 := by
  have h : recFields.filter (fun f => decide (recPart l f.2.1 f.2.2 ≠ recPart l f.2.1 f.2.2)) = [] := by simp
  unfold recMismatch
  simp only [h, List.map_nil, if_true]
  rfl

theorem witness_PairMessagesActAsNamed_record :
    let s := pairS 1 1 16 1
    s.pairEn = true ∧ s.pstate = 1 ∧ recMismatch s.detrec ((ownWords s.detrec).flatMap (fun w => leBytes 8 w.toNat)) = 0 := by
  refine ⟨by decide +kernel, by decide +kernel, ?_⟩
  rw [ownWords_bytes _ (by decide +kernel)]
  exact recMismatch_self _
theorem witness_PairMessagesActAsNamed_ckpt :
    let r := ckS.ckRec 1
    let part := r.planHash
    let head := leBytes 8 r.work ++ leBytes 4 1
    let bytes := List.replicate 64 0 ++ head ++ leBytes 4 (Hash.crc32c (part ++ head)) ++ part
    ckS.ckCommon [ckptRecOf (recPart bytes 0 64), ckptRecOf (recPart bytes 64 64)] 0 = false ∧
      ckS.ckCommon [ckptRecOf (recPart bytes 0 64), ckptRecOf (recPart bytes 64 64)] 1 = true := by decide +kernel

def keepS : State := (pairS 3 1 16 3).wr pgKnk Reg.knkSplitOutcome 4

theorem witness_HeartbeatsAndHandOffs :
    (let s := pairS 1 1 16 1
     s.flag pgKnk Reg.knkStateLinkUp = true ∧ s.pair.retraining = false ∧ s.pair.held = [] ∧ 1 ≤ s.pair.credits.getD 0 0 ∧
       s.pair.unacked.length < 512) ∧
    (pulseCode 7499 = 0 ∧ pulseCode 7500 = 1 ∧ pulseCode 15000 = 2 ∧ pulseCode 50000 = 3 ∧ pulseCode 50001 = 0 ∧
      (pairS 2 1 16 1).pstate = 2) ∧
    (let s : State := { pairS 1 0 16 1 with pair := { (pairS 1 0 16 1).pair with linkLive := false, pinLive := false } }
     (pairS 1 1 16 1).pair.linkLive = true ∧ s.pair.linkLive = false ∧ s.pairEn = true ∧ s.pstate = 1 ∧ s.lit = false) ∧
    (let s : State := { pairS 1 1 16 1 with pair := { (pairS 1 1 16 1).pair with partnerLit := true, rolePair := some true } }
     s.pairEn = true ∧ s.codedLit = true ∧ s.pair.partnerLit = true ∧ s.pstate ≤ 2 ∧ s.flag pgKnk Reg.knkCtrlPos = false ∧
       (s.wr pgKnk Reg.knkCtrlPos 1).flag pgKnk Reg.knkCtrlPos = true) ∧
    ((pairS 2 1 16 1).pairEn = true ∧ base.pairEn = false) ∧
    (keepS.pairEn = true ∧ keepS.pstate = 3 ∧ keepS.knk Reg.knkSplitOutcome = 4 ∧ keepS.rd pgStk Reg.stkState = 3 ∧
      (pairS 3 1 16 3).knk Reg.knkSplitOutcome ≠ 4 ∧ (pairS 3 1 16 3).flag pgKnk Reg.errValid = false) := by decide +kernel

/-- A receiver that takes rows, with a near window of one row that holds one byte. -/
def rxS : State :=
  let s := ((pairS 5 0 16 3).wr pgKnk Reg.knkStateDir 1).wrs (pgGdc 0) [(Reg.gdcStateLidx, 0), (Reg.gdcRowsUsable, 1)]
  { s with mem := [(nearBase + 511, 7)], pair := { s.pair with resync := some { step := .copy, rows := 65535, acked := 0, paused := false } } }
def noLink : State := pairS 3 1 0 3

theorem witness_ResynchronisationCopiesTheSet :
    (let s := pairS 0 1 16 1
     s.pairEn = true ∧ s.pstate = 0 ∧ s.lit = true ∧ s.plans.active.isSome = true ∧ s.linkGood = true ∧ s.pair.partnerState = 0 ∧
       (pairS 0 1 16 3).rd pgStk Reg.stkState = 3 ∧ base.pairEn = false ∧ base.flag pgKnk Reg.errValid = false) ∧
    (base.receiving = false ∧ rxS.receiving = true ∧ rxS.pair.resync.isSome = true ∧ (2 ^ 40 - 512) % 8 = 0 ∧
      farBase - 512 + 8 * 64 ≤ farBase ∧ farBase - 512 + 512 * 1 ≤ farBase) ∧
    (SoundCells rxS ∧ (BitVec.ofNat 64 (rxS.resyncHash [])).toNat = rxS.resyncHash [] ∧ (0 : BitVec 64).toNat ≠ rxS.resyncHash []) ∧
    (base.pairEn = false ∧ (pairS 1 1 16 1).linkGood = true ∧ noLink.pairEn = true ∧ noLink.linkGood = false ∧ noLink.pstate = 3 ∧
      (pairS 5 1 0 3).linkGood = false ∧ (pairS 5 1 0 3).pstate = 5 ∧ (pairS 5 1 0 3).flag pgKnk Reg.knkStateDir = false) := by
  unfold SoundCells; decide +kernel


/-! ## Power, temperature and bring-up -/

def powerS (l : List Nat) : State := { base.wrs pgPwr [(Reg.pwrCapCapW, 2400), (Reg.pwrCapWin, 2)] with power := { base.power with pins := l } }
def damperS (now step : Nat) : State := ((upS 1 .work).wr pgStk Reg.stkStateDamper now).wr pgThm Reg.thmStateStep step

theorem witness_PowerFloorsAndTheDamper :
    (let e : PmPage := { page := 5, vout := 0, iout := 0, status := 1 }; e.page < base.pmPages ∧ e.status ≠ 0) ∧
    (let s : State := { base.wr pgPwr Reg.pwrStatePmLinkOk 1 with power := { base.power with pmFails := 2 } }
     2 ≤ s.power.pmFails ∧ s.flag pgPwr Reg.pwrStatePmLinkOk = true ∧ base.power.pmFails < 2) ∧
    (let l := fun (s : State) => s.power.pins.drop (s.power.pins.length - max 1 (s.rd pgPwr Reg.pwrCapWin))
     l (powerS [9, 2400, 2401]) = [2400, 2401] ∧ (powerS []).capW * 2 < 2400 + 2401 ∧ 10 * (2160 + 2159) < 9 * (powerS []).capW * 2 ∧
       l (powerS [2400]) ≠ [] ∧ l (powerS []) = []) ∧
    (base.flag pgPwr Reg.pwrStateWarn = false ∧ (base.wr pgPwr Reg.pwrStateWarn 1).flag pgPwr Reg.pwrStateWarn = true ∧
      (upS 1 .writeback).running = true ∧ (upS 1 .writeback).stoke.phase.rank ≤ Phase.writeback.rank) ∧
    ((damperS 2 2).wantedDamper = (damperS 2 2).rd pgStk Reg.stkStateDamper ∧ (damperS 2 2).power.target = none ∧
      (damperS 2 3).rd pgStk Reg.stkStateDamper < (damperS 2 3).wantedDamper ∧ (damperS 2 3).wantedDamper ≤ 3 ∧
      (damperS 1 0).wantedDamper < (damperS 1 0).rd pgStk Reg.stkStateDamper) ∧
    (let s : State := { base with power := { base.power with target := some 3 } }; s.power.target = some 3 ∧ (3 : Nat) ≤ 3) := by decide +kernel

/-- Hob 1 of a running module at 750 mV, whose neighbour has work, beside the field values given. -/
def hobS (l : List (Fld × Nat)) : State :=
  let s := (lS 0).wrs (pgHob 1) ((Reg.hobVtgtMv, 750) :: l)
  { s with plans := { s.plans with active := some { plan0 with starts := [[true]] } } }
def resting (r : Rest) (s : State) : State := { s with power := { s.power with rests := [(1, r)] } }

theorem witness_HobsDroopCrackAndWake :
    ((hobS [(Reg.hobCtrlDroopWarn, 40)]).belowBy 1 709 40 = true ∧ (hobS []).belowBy 1 710 40 = false ∧
      SMap.getD (hobS []).power.stretch (1 : Fin 16) false = false ∧
      (hobS [(Reg.hobCtrlDroopTrip, 80)]).belowBy 1 669 ((hobS [(Reg.hobCtrlDroopTrip, 80)]).rd (pgHob 1) Reg.hobCtrlDroopTrip) = true ∧
      (hobS []).running = true ∧ (hobS []).stoke.phase.rank ≤ Phase.writeback.rank ∧ (hobS []).flag (pgHob 1) Reg.hobVminValid = false) ∧
    SMap.getD { (hobS []).power with stretch := [(1, true)] }.stretch (1 : Fin 16) false = true ∧
    (bitAt ((hobS [(Reg.hobSlicesFailed, 2 ^ 23)]).rd (pgHob 1) Reg.hobSlicesFailed) 23 = true ∧
      bitAt ((hobS [(Reg.hobSlicesFailed, 3)]).rd (pgHob 1) Reg.hobSlicesFailed) 23 = false ∧ popCount 24 (3 ||| 2 ^ 23) = 3 ∧
      3 < popCount 24 (7 ||| 2 ^ 23) ∧ (hobS []).rd (pgHob 1) Reg.hobState ≠ 4) ∧
    (let s := hobS [(Reg.hobState, 1), (Reg.hobResBase, 100), (Reg.hobCtrlCrackWarn, 3), (Reg.hobCtrlCrackTrip, 6)]
     s.rd (pgHob 1) Reg.hobState = 1 ∧ max 1 (s.rd (pgHob 1) Reg.hobCtrlCrackTrip) * 100 < 10 * (161 - 100) ∧
       ¬ max 1 (s.rd (pgHob 1) Reg.hobCtrlCrackTrip) * 100 < 10 * (160 - 100) ∧
       max 1 (s.rd (pgHob 1) Reg.hobCtrlCrackWarn) * 100 < 10 * (131 - 100)) ∧
    (SMap.find (resting (.waking 8) (hobS [])).power.rests (1 : Fin 16) = some (.waking 8) ∧ (hobS []).kindlingSlot (1 : Fin 16) = false ∧
      base.kindlingSlot (1 : Fin 16) = true ∧ SMap.find (resting (.waking 7) base).power.rests (1 : Fin 16) = some (.waking 7)) ∧
    (SMap.find (resting (.kindling true) (hobS [])).power.rests (1 : Fin 16) = some (.kindling true) ∧ (hobS []).regulated 1 775 = true ∧
      (hobS []).regulated 1 724 = false ∧ popCount 24 7 ≤ 3 ∧ 3 < popCount 24 15) := by decide +kernel

def aMon : Mon := { raw := 16, offset := 32, broken := false, apart := 0, trips := 1 }
def thermS (l : List (Fld × Nat)) (f : Thermal → Thermal) : State :=
  let s := base.wrs pgThm l
  { s with therm := f s.therm }
def trip0 : TripRec := { die := 1, source := 2, mon := 3, reading := 4, stk := 5 }

theorem witness_ThermalStepsAndTrips :
    (let s := thermS [(Reg.thmThrTrip 0, 100)] (fun t => { t with mons := [(monKey 0 159, aMon)] })
     s.mon (0 : Fin 3) (159 : Fin 160) = some aMon ∧ deg (s.thrTrip (0 : Fin 3)) ≤ (1568 : BitVec 16).toInt + aMon.offset ∧ 1 ≤ aMon.trips ∧
       s.mod.tripped = false ∧ s.therm.trip = none ∧ (1567 : BitVec 16).toInt + aMon.offset < deg (s.thrTrip (0 : Fin 3))) ∧
    (inRange (-640) = true ∧ inRange 2401 = false ∧ inRange (BitVec.ofInt 16 (-640)).toInt = true ∧
      SMap.getD base.therm.diodeBad (2 : Fin 3) false = false) ∧
    (let s := thermS [(Reg.thmThrTrip 1, 100), (Reg.thmPlausLeakDelta, 8)] (fun t => { t with mons := [(monKey 1 0, aMon)] })
     s.hearthOwn = some 48 ∧ 48 + deg (s.rd pgThm Reg.thmPlausLeakDelta) < (177 : BitVec 16).toInt ∧
       deg (s.thrTrip 1) ≤ (1600 : BitVec 16).toInt ∧ s.mod.tripped = false ∧ s.therm.trip = none) ∧
    (let hot := thermS [(Reg.thmStateStep, 2)] (fun t => { t with hot := [(2, true)] })
     let cool := thermS [(Reg.thmStateStep, 1), (Reg.thmStateDiodeBad, 1)] (fun t => { t with cool := [(0, true), (1, true), (2, true)] })
     (List.range 3).any (fun d => SMap.getD hot.therm.hot d false) = true ∧ hot.rd pgThm Reg.thmStateStep < 3 ∧
       (List.range 3).any (fun d => SMap.getD cool.therm.hot d false) = false ∧
       (List.range 3).all (fun d => SMap.getD cool.therm.cool d false) = true ∧
       (List.range 3).any (fun d => SMap.getD base.therm.hot d false) = false ∧
       (List.range 3).all (fun d => SMap.getD base.therm.cool d false) = false) ∧
    ((thermS [] (fun t => { t with trip := some trip0 })).therm.trip = some trip0 ∧ base.therm.trip = none) ∧
    (let s : State := { base.wr pgThm (Reg.thmThrTrip 2) 95 with mod := { base.mod with pwrGood := true } }
     s.mod.pwrGood = true ∧
     SMap.getD s.therm.diodeBad (2 : Fin 3) false = false ∧ s.mod.tripped = false ∧ deg (s.thrTrip (2 : Fin 3)) ≤ (1520 : BitVec 16).toInt ∧
       (1519 : BitVec 16).toInt < deg (s.thrTrip (2 : Fin 3))) := by decide +kernel

def pins (p r q : Bool) : State := { base with mod := { base.mod with pwrGood := p, resetN := r, perst0N := q } }
def noFindings (hang : Nat) : Findings := { hang := hang, units := [], flues := [], banks := [], diodes := [], monitors := [], broken := [] }

theorem witness_ResetsClearTheModule :
    (pins true true true).mod.pwrGood = true ∧ (pins false true true).mod.pwrGood = false ∧
    ((pins false true true).mod.resetN && (pins false true true).mod.perst0N && !(pins false true true).mod.tripped) = true ∧
    ((pins false true false).mod.resetN && (pins false true false).mod.perst0N && !(pins false true false).mod.tripped) = false ∧
    (pins true true false).mod.resetN = true ∧ (pins true false true).mod.resetN = false ∧
    ((pins true false true).mod.pwrGood && (pins true false true).mod.perst0N && !(pins true false true).mod.tripped) = true ∧
    ((pins true true false).mod.pwrGood && (pins true true false).mod.resetN && !(pins true true false).mod.tripped) = true ∧
    (pins true false true).boot.failed = false ∧ (pins true true false).mod.perst0N = false ∧ (noFindings 3).hang = 3 := by decide +kernel

/-- A bring-up in a step. -/
def bootS (n : Nat) (f : Boot → Boot) : State :=
  let s := base.wr pgTnd Reg.tndBootStep n
  { s with boot := f { s.boot with running := true } }

theorem witness_BringUpStepsEndInOrder :
    (let s := bootS 7 (fun b => { b with stages := (List.range 16).map (fun h => (h, if h % 4 < 3 then 8 else 7)) })
     s.booting 7 = true ∧ (∀ k ∈ (List.range 4).map (fun i => (3 : Fin 4).val + 4 * i), s.stages k = (7 : Fin 8).val) ∧
       (∀ k, k < 16 → k % 4 < (3 : Fin 4).val → s.stages k = 8) ∧ base.booting 7 = false) ∧
    (let s := (bootS 7 (fun b => { b with stages := [(15, 8)] })).wrs (pgHob 15) [(Reg.hobState, 3), (Reg.hobVtgtMv, 750)]
     s.booting 7 = true ∧ s.stages (15 : Fin 16) = 8 ∧ s.rd (pgHob 15) Reg.hobState = 3 ∧ s.regulated (15 : Fin 16) 725 = true ∧
       s.regulated (15 : Fin 16) 776 = false ∧ popCount 24 (s.rd (pgHob 15) Reg.hobSlicesFailed ||| 0) ≤ 3) ∧
    ((bootS 8 id).booting 8 = true ∧ (bootS 8 id).boot.rounds < 3 ∧ (bootS 8 (fun b => { b with rounds := 3 })).booting 8 = true) ∧
    (let s := bootS 9 id
     s.booting 9 = true ∧ s.trainRec = none ∧ SMap.find s.boot.chans (143 : Fin 144) = none ∧ s.rd (pgGdc 143) Reg.gdcStateSpeed = (3 : Fin 4).val ∧
       s.rd (pgGdc 143) Reg.gdcStateDensity = (2 : Fin 4).val ∧ ([false, false, false, true].take 5).idxOf? true = some 3 ∧
       true ∉ [false, false, false, false, false, true].take 5 ∧ ¬ s.rd (pgGdc 143) Reg.gdcStateSpeed = (0 : Fin 4).val) ∧
    (base.boot.running = false ∧ (bootS 7 id).boot.running = true ∧ (bootS 7 id).bootStep < 8 ∧ (bootS 11 id).booting 11 = true ∧
      SMap.find (bootS 11 id).boot.links 2 = none) ∧
    ((bootS 12 id).booting 12 = true ∧
      (SMap.find (bootS 11 (fun b => { b with links := [(0, { fast := false, peer := 0, result := 0 })] })).boot.links 0).isSome = true) ∧
    (let s : State := { upS 0 .work with boot := { base.boot with unsaved := true, discard := true } }
     s.flag pgDev Reg.devStateReady = true ∧ s.boot.unsaved = true ∧ s.boot.discard = true ∧ base.boot.unsaved = false) := by decide +kernel


/-! ## Microcode: a packet whose CRC is right, and receivers complete or not -/

/-- So many runs of 64 zero bytes. -/
def zeroRuns (k : Nat) : List Byte := List.replicate (64 * k) 0
theorem zeroRuns_length (k : Nat) : (zeroRuns k).length = 64 * k := by simp [zeroRuns]
theorem zeroRuns_succ (k : Nat) : zeroRuns (k + 1) = zeroRuns 1 ++ zeroRuns k := by
  unfold zeroRuns; rw [List.replicate_append_replicate, show 64 * 1 + 64 * k = 64 * (k + 1) from by omega]
/-- A function so many times, its value taken each time. -/
def times (f : Nat → Nat) : Nat → Nat → Nat
  | 0, c => c
  | k + 1, c => match f c with
    | 0 => times f k 0
    | n + 1 => times f k (n + 1)
theorem times_succ (f : Nat → Nat) (k c : Nat) : times f (k + 1) c = times f k (f c) := by
  rw [times]
  split
  · next h => rw [h]
  · next h => rw [h]
/-- The CRC register behind so many runs. -/
def crcRuns (k c : Nat) : Nat := times (fun c => (Hash.reflectedBits (zeroRuns 1)).foldl Hash.crcBit c) k c
theorem reflectedBits_append (a b : List Byte) : Hash.reflectedBits (a ++ b) = Hash.reflectedBits a ++ Hash.reflectedBits b :=
  List.flatMap_append
theorem crcRuns_succ (k c : Nat) : crcRuns (k + 1) c = crcRuns k ((Hash.reflectedBits (zeroRuns 1)).foldl Hash.crcBit c) :=
  times_succ _ _ _
theorem zeroRuns_zero : zeroRuns 0 = [] := by unfold zeroRuns; rw [Nat.mul_zero]; rfl
theorem crcRuns_eq (k c : Nat) : crcRuns k c = (Hash.reflectedBits (zeroRuns k)).foldl Hash.crcBit c := by
  induction k generalizing c with
  | zero => rw [zeroRuns_zero]; rfl
  | succ k ih => rw [zeroRuns_succ, reflectedBits_append, List.foldl_append, crcRuns_succ, ih]
/-- Packet 0 of 1, of every class, with a payload of zeros and its CRC-32C. -/
def pktHead : List Byte := leBytes 2 0 ++ leBytes 2 1 ++ [0xFF] ++ List.replicate 55 0
def pktCrc : Nat := 4225093839
def pkt : List Byte := pktHead ++ (leBytes 4 pktCrc ++ zeroRuns 64)
theorem crc_of_runs (h : List Byte) (k c : Nat) (e : (Hash.reflectedBits h).foldl Hash.crcBit 0xFFFFFFFF = c) :
    Hash.crc32c (h ++ zeroRuns k) = crcRuns k c ^^^ 0xFFFFFFFF := by
  unfold Hash.crc32c
  rw [reflectedBits_append, List.foldl_append, e, crcRuns_eq]
theorem pktOk_of (h : List Byte) (crc k : Nat) (hl : h.length = 60) (hk : k = 64) (h1 : pktAt h 0 2 < pktAt h 2 2) (hc : crc < 2 ^ 32)
    (e : Hash.crc32c (h ++ zeroRuns k) = crc) : pktOk (h ++ (leBytes 4 crc ++ zeroRuns k)) = true := by
  have l4 := leBytes_length 4 crc
  have lz := zeroRuns_length k
  have len : (h ++ (leBytes 4 crc ++ zeroRuns k)).length = 4160 := by simp only [List.length_append, hl, l4, lz]; omega
  have head : (h ++ (leBytes 4 crc ++ zeroRuns k)).take 60 = h := by
    rw [List.take_append_of_le_length (by omega), List.take_of_length_le (by omega)]
  have tail : (h ++ (leBytes 4 crc ++ zeroRuns k)).drop 64 = zeroRuns k := by
    rw [← List.append_assoc, List.drop_append_of_le_length (by simp only [List.length_append]; omega), List.drop_of_length_le
      (by simp only [List.length_append]; omega), List.nil_append]
  have at_ : ∀ o, o ≤ 2 → pktAt (h ++ (leBytes 4 crc ++ zeroRuns k)) o 2 = pktAt h o 2 := by
    intro o ho; unfold pktAt
    rw [List.drop_append_of_le_length (by omega), List.take_append_of_le_length (by rw [List.length_drop]; omega)]
  have field : pktAt (h ++ (leBytes 4 crc ++ zeroRuns k)) 60 4 = crc := by
    unfold pktAt
    rw [List.drop_append_of_le_length (by omega), List.drop_of_length_le (by omega), List.nil_append,
      List.take_append_of_le_length (by omega), List.take_of_length_le (by omega), leNat_leBytes]
    exact Nat.mod_eq_of_lt hc
  unfold pktOk
  rw [len, head, tail, at_ 0 (by omega), at_ 2 (by omega), field, e]
  simp [h1]
theorem pkt_ok : pktOk pkt = true := by
  refine pktOk_of _ _ _ (by decide) rfl (by decide) (by decide) ?_
  rw [crc_of_runs pktHead 64 753528358 (by decide +kernel)]
  decide +kernel

theorem find_all_true (l : List Nat) (r : Nat) (h : r ∈ l) : SMap.find (l.map (fun k => (k, true))) r = some true := by
  induction l with
  | nil => cases h
  | cons k l ih =>
    simp only [List.map_cons, SMap.find]
    split
    · rfl
    · next h' => exact ih ((List.mem_cons.mp h).resolve_left h')
def allTrue (n : Nat) : SMap Bool := (List.range n).map (fun k => (k, true))
def doneS (n : Nat) : State := bootS 8 (fun b => { b with complete := allTrue n })
theorem doneS_complete (n : Nat) : (doneS n).boot.complete = allTrue n := rfl

theorem witness_BringUpStepsEndInOrder_packets :
    ((bootS 7 id).booting 8 = false ∧ pktOk [] = false) ∧
    ((bootS 8 id).booting 8 = true ∧ pktOk pkt = true ∧ (bootS 8 id).expected (1749 : Fin 1750) = true ∧
      (bootS 8 id).rxGone (1749 : Fin 1750) = false ∧ bitAt (pktAt pkt 4 1) (rxClass (1749 : Fin 1750)) = true) ∧
    ((doneS 1750).booting 8 = true ∧ (doneS 1750).incomplete = []) ∧ (bootS 8 id).incomplete ≠ [] := by
  refine ⟨by decide +kernel, ⟨by decide +kernel, pkt_ok, by decide +kernel⟩, ⟨by decide +kernel, ?_⟩, ?_⟩
  · unfold State.incomplete
    refine List.filter_eq_nil_iff.mpr (fun r hr => ?_)
    have e : SMap.getD (doneS 1750).boot.complete r false = true := by
      unfold SMap.getD
      rw [doneS_complete, allTrue, find_all_true _ r hr]; rfl
    simp only [e, Bool.not_true, Bool.and_false, Bool.false_and, Bool.false_eq_true, not_false_iff]
  · exact List.ne_nil_of_mem (List.mem_filter.mpr ⟨List.mem_range.mpr (by decide : 1749 < 1750), by decide +kernel⟩)


/-! ## Security, Smoke and the board -/

/-- The public key of the private key 2 on the curve of R686, and the signature of the token with the nonce 1: numbers
computed outside Lean, by the curve's own equations. -/
def pubS : List Byte :=
  Hash.beBytes 48 0x2282bc382a2f4dfcb95c3495d7b4fd590ad520b3eb6be4d6ec2f80c4e0f70df87c4ba74a09b553ebb427b58df9d59fca ++
  Hash.beBytes 48 0xedda83773ac68735768d14a24f37a57ce9bedbc170921ce4d89dd051728fc3eb4b4ea69ab64fc288f1b29502b6e1d30
def sigS : List Byte :=
  Hash.beBytes 48 0x1d1c64f068cf45ffa2a63a81b7c13f6b8847a3e77ef14fe3db7fcafe0cbd10e8e826e03436d646aaef87b2e247d4af1e ++
  Hash.beBytes 48 0x4e72da454da8bf35383151036458df263df21e9e60ab7ce67861630b876c5c0c94704d1277ff198fbf02cc4056af4e41
def keyHash : List Byte :=
  Hash.beBytes 48 0xfb0969ab89c48b592d34408598b9fbe5ff5abf5178d462122df623299a6d745eef21aee902e7a9134b68f97752ea6bc3
/-- A life-cycle token from state 0 to 1 for serial number 0, key slot 0 and a nonce of zeros. -/
def token : List Byte :=
  leBytes 4 0x0C444C43 ++ leBytes 2 1 ++ [0, 1] ++ leBytes 8 ((upS 0 .work).rd pgDev Reg.devSerial) ++ List.replicate 40 0 ++ pubS ++ sigS
/-- A nonce of zeros is out; slot 0 of the far tier is directly attached, or empty; key slot 0 holds the hash of the key above. -/
def tokS (st : Nat) : State :=
  let s := (upS 0 .work).wrs (pgFar 0) [(Reg.farState, st), (Reg.farStateDirect, 1)]
  { s with sec := { s.sec with nonce := some (List.replicate 32 0) }, fuses := { s.fuses with keys := [keyHash] } }
/-- SHA-384 of the public key, as another implementation computes it. -/
theorem test_sha384 : Hash.sha384 pubS = keyHash := by decide +kernel
/-- The signature verifies (R686). -/
theorem test_signature : Keys.verify pubS (token.take 152) sigS = true := by decide +kernel
theorem token_accepted : (tokS 2).tokenStatus token = 0 := by
  have e : (token.drop 56).take 96 = pubS := by decide +kernel
  have g : (token.drop 152).take 96 = sigS := by decide +kernel
  have k : keyOk (tokS 2).fuses (imgAt token 50 2) pubS = true := by
    rw [show imgAt token 50 2 = 0 from by decide +kernel]
    unfold keyOk
    rw [test_sha384]
    decide +kernel
  have a : ¬ (token.length ≠ 248 ∨ imgAt token 0 4 ≠ 0x0C444C43 ∨ imgAt token 4 2 ≠ 1 ∨ 1 < imgAt token 48 2 ∨ imgAt token 52 4 ≠ 0 ∨
      imgAt token 8 8 ≠ (tokS 2).rd pgDev Reg.devSerial) := by decide +kernel
  have b : ¬ (imgAt token 6 1 ≠ (tokS 2).fuses.lcState ∨ (!lcNext (imgAt token 6 1) (imgAt token 7 1)) = true ∨ (tokS 2).rd pgStk Reg.stkState ≠ 0 ∨
      ¬((tokS 2).rd pgKnk Reg.knkStatePstate = 0 ∨ (tokS 2).rd pgKnk Reg.knkStatePstate = 4)) := by decide +kernel
  have c : ¬ (tokS 2).sec.nonce ≠ some ((token.drop 16).take 32) := by decide +kernel
  have d : ¬ (2 < imgAt token 50 2 ∨ bitAt (tokS 2).fuses.revoked (imgAt token 50 2) = true ∨
      (!keyAccepted (tokS 2).fuses.lcState (imgAt token 50 2)) = true) := by decide +kernel
  unfold State.tokenStatus
  simp only [if_neg a, if_neg b, if_neg c, if_neg d, k, e, g, test_signature, Bool.not_true, Bool.false_eq_true, or_self, if_false]

theorem witness_MailboxRequestsAreAnswered :
    (base.ready = false ∧ (tokS 2).ready = true ∧ (tokS 2).sec.wait = none ∧
      { (tokS 2).sec with wait := some (1, token) }.wait.isSome = true) ∧
    ((1 : BitVec 8).toNat ≤ 1 ∧ (2 ^ 24 - 2) + [(0 : Byte), 0].length ≤ 2 ^ 24 ∧ ¬ ((2 ^ 24 - 1) + [(0 : Byte), 0].length ≤ 2 ^ 24) ∧
      (tokS 2).spareSlot 1 < (List.replicate 4 ([] : List Byte)).length) ∧
    (((tokS 2).wr pgSec Reg.secStateTrngOk 1).flag pgSec Reg.secStateTrngOk = true ∧
      ((tokS 2).wr pgSec Reg.secStateTrngOk 0).flag pgSec Reg.secStateTrngOk = false) ∧
    ((tokS 2).tokenStatus [] ≠ 0 ∧ (tokS 2).farDirect 0 = true ∧ (tokS 0).farDirect 0 = false ∧ (tokS 0).rd (pgFar 0) Reg.farState ≠ 3) ∧
    ((tokS 3).rd (pgFar (0 : Fin 8)) Reg.farState = 3 ∧ (tokS 2).rd (pgFar (7 : Fin 8)) Reg.farState ≠ 3) := by decide +kernel

/-- A header slot of a group of two, and its second slot. -/
def slot0 : List Byte := [1, 0, 0, 0, 2] ++ List.replicate 59 0
def slot1 : List Byte := List.replicate 60 0 ++ leBytes 4 3111782271
/-- A ring of 1,024 slots and a trace region of two; the groups, tail and NEXT given. -/
def smkS (dest tail next : Nat) (groups : List (List (List Byte))) : State :=
  let s := (base.wrs pgSmk [(Reg.smkCtrlDest, dest), (Reg.smkRingSizeLog, 10), (Reg.smkRingTail, tail), (Reg.smkHregRegion, 4),
    (Reg.smkHptrNext, next)]).wr (pgCxp 0) Reg.cxpLinkMode 1
  { s with smoke := { s.smoke with groups := groups }, plans := { s.plans with regions := [region 4 0 0 4096 128] },
           mem := ((slot0 ++ slot1).zipIdx.filter (fun e => e.1 != 0)).map (fun e => (4096 + e.2, e.1)) }

def ringRegion : Region := region 4 0 0 4096 128
theorem slots_crc : Hash.crc32c ((slot0 ++ slot1).take 124) = 3111782271 := by
  have e : (slot0 ++ slot1).take 124 = slot0.take 60 ++ zeroRuns 1 := by decide +kernel
  rw [e, crc_of_runs _ 1 3912668052 (by decide +kernel)]
  decide +kernel
theorem one_group : (smkS 2 1021 2 []).regionGroups = [[0, 1]] := by
  have r : (smkS 2 1021 2 []).traceRegion ((smkS 2 1021 2 []).rd pgSmk Reg.smkHregRegion) = some ringRegion := by decide +kernel
  have b : (smkS 2 1021 2 []).bytesAt (ringRegion.base + 64 * 0) 128 = slot0 ++ slot1 := by decide +kernel
  have g : (smkS 2 1021 2 []).groupAt ringRegion 0 = 2 := by
    unfold State.groupAt; simp only [b, slots_crc]; decide +kernel
  have g2 : (smkS 2 1021 2 []).groupAt ringRegion 2 = 0 := by decide +kernel
  have f : (smkS 2 1021 2 []).groupsFrom ringRegion (ringRegion.len / 64) 0 =
      [((smkS 2 1021 2 []).natAt (ringRegion.base + 64 * 0 + 8) 8, (List.range 2).map (0 + ·))] := by
    show (smkS 2 1021 2 []).groupsFrom ringRegion 2 0 = _
    rw [State.groupsFrom]; simp only [g]
    rw [State.groupsFrom]; simp only [Nat.zero_add, g2, State.groupsFrom]
  unfold State.regionGroups
  simp only [r, f]
  decide +kernel

theorem witness_SmokeDeliversWholeGroups :
    (base.smoke.groups = [] ∧ (smkS 1 0 0 [[slot0, slot1]]).smoke.groups = [slot0, slot1] :: []) ∧
    ((smkS 1 1021 0 []).traceDest = 1 ∧ (smkS 1 1021 0 []).hostLinkUp = true ∧ ((smkS 1 0 0 []).wr (pgCxp 0) Reg.cxpLinkMode 0).hostLinkUp = false ∧
      (smkS 1 1021 0 []).ringSlots = 1024 ∧ [slot0, slot1].length ≤ (smkS 1 1021 0 []).ringRoom ∧ (smkS 1 1022 0 []).ringRoom < [slot0, slot1].length ∧
      base.ringSlots = 0) ∧
    (let s := smkS 2 0 0 [[slot0, slot1]]
     s.traceDest = 2 ∧ s.pstate ≠ 5 ∧ s.flag pgSmk Reg.smkStateFlushing = false ∧ s.traceRegion 4 = some (region 4 0 0 4096 128) ∧
       s.rd pgSmk Reg.smkHregRegion = 4 ∧ 4096 % 8 = 0 ∧ s.rd pgSmk Reg.smkHptrNext + 2 ≤ 128 / 64 ∧ (∀ b ∈ [slot0, slot1], b.length = 64) ∧
       (s.wr pgSmk Reg.smkHregRegion 5).traceRegion ((s.wr pgSmk Reg.smkHregRegion 5).rd pgSmk Reg.smkHregRegion) = none) ∧
    (base.regionGroups = [] ∧ ((smkS 2 0 0 []).wr pgSmk Reg.smkStateFlushing 1).flag pgSmk Reg.smkStateFlushing = true) ∧
    (let s := smkS 2 1021 2 []
     s.ringSlots ≠ 0 ∧ s.hostLinkUp = true ∧ [0, 1].length ≤ s.ringRoom ∧ ∀ k ∈ [0, 1], (s.slotBytes k).2 = []) ∧
    (smkcInsts.contains (0x402 : BitVec 12).toNat = true ∧ smkcInsts.contains (0x403 : BitVec 12).toNat = false) := by decide +kernel

def failedBoot (got : Nat) : State :=
  { base with boot := { base.boot with failed := true }, flash := { base.flash with slots := [[], [], [], []] },
              mod := { base.mod with recovery := some { part := 7, len := 3, got := got }, events := [[1, 2, 3]] } }

theorem witness_BoardFramesAndTheTestPort :
    ((failedBoot 0).i3cUp = true ∧ base.i3cUp = false ∧ (upS 0 .work).i3cUp = true ∧ (upS 0 .work).boot.failed = false) ∧
    (frameCrc 0x01 0 [] = (2502091135 : BitVec 32).toNat ∧ frameCrc 0x01 0 [] ≠ (0 : BitVec 32).toNat ∧ (failedBoot 0).mod.events = [1, 2, 3] :: [] ∧
      base.mod.events = []) ∧
    frameCrc 0x02 0 [8, 0] = (2933210224 : BitVec 32).toNat ∧
    (frameCrc 0x10 0 (leBytes 4 (2 ^ 23 + 320)) = (1334819625 : BitVec 32).toNat ∧ leNat (leBytes 4 (2 ^ 23 + 320)) ≤ 2 ^ 23 + 320 ∧
      ∀ k ∈ [(7 : Fin 8)], (5 : Fin 8) ≤ k) ∧
    (frameCrc 0x11 0 (leBytes 4 2 ++ [7]) = (1406893982 : BitVec 32).toNat ∧ (2 : Nat) + [7].length ≤ 3 ∧
      frameCrc 0x11 0 (leBytes 4 3 ++ [7]) = (1808404530 : BitVec 32).toNat ∧ (3 : Nat) ≠ 2 ∧ (failedBoot 2).mod.recovery.isSome = true) ∧
    (frameCrc 0x12 0 [] = (509925755 : BitVec 32).toNat ∧ 0 < (failedBoot 3).flash.slots.length) ∧
    (pins true true true).mod.resetN = true ∧ (pins true false true).mod.resetN = false := by decide +kernel


/-! ## The queue and the memory -/

def queued (l : List Instr) (s : State) : State := { s with pending := l }
theorem witness_CommandsLeaveTheQueueAlone : ∃ t, step (queued [.stkStop, .stkStart] base) = .next t ∧ t.pending = [.stkStart] := ⟨_, rfl, rfl⟩
theorem witness_StepsKeepMemoryCanonical :
    Inv State.reset ∧ Inv (smkS 1 0 0 []) ∧ ∃ t, step (queued [.stkStop] (smkS 1 0 0 [])) = .next t ∧ t.mem ≠ [] := by
  refine ⟨⟨rfl, rfl⟩, ⟨by decide +kernel, by decide +kernel⟩, _, rfl, ?_⟩
  decide +kernel

/-! ## One step, with results worked out by hand from the spec -/

/-- An instruction with its FMT and OP in the word. -/
def spelt (c : Issue → Instr) (i : Issue) : Instr := c (coded ((opCodes (c i)).headD 0) i)
/-- Register v3 in a lane after an instruction. -/
def v3 (c : Issue → Instr) (i : Issue) (j : Nat) (x : Ctx) : Option Nat := ((after (spelt c i) (yOf x)).ctx 5 2).map (fun y => y.vreg 3 j)
/-- v1 holds 1.5 and v2 holds 2.5 in lane 0 (binary32). -/
def fpX : Ctx := { yX with v := [(32, 0x3FC00000), (64, 0x40200000)] }

/-- 0xFFFFFFFF + 2, 7 − 2, 0xFFFFFFFF × 2 and its high half (R149). -/
theorem test_integer_arithmetic : v3 .add (iss 1 0 0 3 1 2 0 0) 31 yX = some 1 ∧ v3 .sub (iss 1 0 0 3 1 2 0 0) 0 yX = some 5 ∧
    v3 .mul (iss 1 0 0 3 1 2 0 0) 31 yX = some 0xFFFFFFFE ∧ v3 .mulhi (iss 1 0 0 3 1 2 0 0) 31 yX = some 1 := by decide +kernel
/-- Signed: −1 is the smaller of −1 and 2, and shifts right into itself; unsigned it is the larger (R149). -/
theorem test_signed_and_unsigned : v3 .min (iss 0 0 0 3 1 2 0 0) 31 yX = some 0xFFFFFFFF ∧ v3 .min (iss 1 0 0 3 1 2 0 0) 31 yX = some 2 ∧
    v3 .shr (iss 0 0 0 3 1 2 0 0) 31 yX = some 0xFFFFFFFF ∧ v3 .shr (iss 1 0 0 3 1 2 0 0) 31 yX = some 0x3FFFFFFF := by decide +kernel
/-- Seven has three ones and 29 leading zeros (R149). -/
theorem test_bit_counts : v3 .popc (iss 1 0 0 3 1 0 0 0) 0 yX = some 3 ∧ v3 .clz (iss 1 0 0 3 1 0 0 0) 0 yX = some 29 := by decide +kernel
/-- 1.5 + 2.5, 1.5 × 2.5, 2.5 ÷ 1.5 and the square root of 1.5, to nearest even (R228). -/
theorem test_float_arithmetic : v3 .add (iss 5 0 0 3 1 2 0 0) 0 fpX = some 0x40800000 ∧ v3 .mul (iss 5 0 0 3 1 2 0 0) 0 fpX = some 0x40700000 ∧
    v3 .vecDiv (iss 5 0 0 3 2 1 0 0) 0 fpX = some 0x3FD55555 ∧ v3 .vecSqrt (iss 5 0 0 3 1 0 0 0) 0 fpX = some 0x3F9CC471 := by decide +kernel
/-- Q1 holds lane 31 alone: lane 0 of v3 keeps its 0 (spec/04, predicates). -/
theorem test_predicate_keeps_other_lanes : v3 .mov (iss 1 1 0 3 1 0 0 0) 31 yX = some 0xFFFFFFFF ∧ v3 .mov (iss 1 1 0 3 1 0 0 0) 0 yX = some 0 := by
  decide +kernel
/-- 1.5 to a signed integer, to nearest even, is 2; the sign bit of 1.5 flips (R151, R748, R149). -/
theorem test_convert_and_negate : v3 .cvt (iss 5 0 0 3 1 0 0 0) 0 fpX = some 2 ∧ v3 .neg (iss 5 0 0 3 1 0 0 0) 0 fpX = some 0xBFC00000 := by decide +kernel
/-- A load of the scratchpad byte 0x2A; a store puts it at the next word (R153, R275). -/
theorem test_scratchpad : ((after (spelt .ld (mem 2 0 3 0 0 0 0 1 0)) mS).ctx 5 2).map (fun y => y.vreg 3 31) = some 0x2A ∧
    ((after (spelt .st (mem 2 0 64 0 0 0 0 1 4)) mS).tile 5).scratchByte 132 = 128 := by decide +kernel
/-- A branch of two instructions by every lane moves the PC by 16 (the format table of spec/04). -/
theorem test_branch : ((after (spelt .bra (raw (2 * 2 ^ 24))) mS).ctx 5 2).map (fun y => y.subs.map (fun u => u.pc)) = some [2 ^ 39 + 16] := by decide +kernel
/-- 16,383 is clamped, 16,384 is not (R17). -/
theorem test_period_clamp : (after (.stkPeriodWrite 16383) base).shadowOf pgStk Reg.stkPeriod = 16384 ∧
    bitAt ((after (.stkPeriodWrite 16383) base).rd pgStk Reg.intRaw) 7 = true ∧
    bitAt ((after (.stkPeriodWrite 16384) base).rd pgStk Reg.intRaw) 7 = false := by decide +kernel
/-- START in IDLE with no plan staged: code 0x3A (R477). -/
theorem test_start_refused : (after .stkStart base).rd pgStk Reg.errCode = 0x3A ∧ (after .stkStart base).stoke.startCmd = false := by decide +kernel
/-- A write of DEV_SCRATCH (R12). -/
theorem test_register_access : (after (.registerWrite (acc 0x58) false 0x12345678) onS).rd pgDev Reg.devScratch = 0x12345678 := by decide +kernel
/-- The pulse of a lit module is 20 µs, of a banked one 10 µs (R538). -/
theorem test_heartbeat_pulse : (after .hbTransmit base).out.head? = some (.pulse "PAIR_HB_TX" 20) ∧
    (after .hbTransmit (pairS 0 0 16 1)).out.head? = some (.pulse "PAIR_HB_TX" 10) := by decide +kernel
/-- CRC-32C of the nine digits is 0xE3069283, the check value of that CRC (R490). -/
theorem test_crc32c : Hash.crc32c [0x31, 0x32, 0x33, 0x34, 0x35, 0x36, 0x37, 0x38, 0x39] = 0xE3069283 := by decide +kernel

end Sys2Proof.Tests
end

section
/-! SUPPORT. Accesses to the register pages: what an error of a page leaves as it was, one-field words, and what an aligned
32-bit access does to an open page, to a closed page and to no page (spec/02). -/
namespace Sys2Proof.Machine

/-! ## Bits -/

theorem and_mod_two (x y : Nat) : (x &&& y) % 2 = x % 2 * (y % 2) := by
  rw [Nat.and_mod_two_pow (n := 1)]
  rcases Nat.mod_two_eq_zero_or_one x with hx | hx <;> rcases Nat.mod_two_eq_zero_or_one y with hy | hy <;> simp [hx, hy]

/-- The step of `testBit_sub_and`: without bit 0 the difference is that of the halves. -/
theorem sub_and_div_two (x y : Nat) : (x - (x &&& y)) / 2 = x / 2 - (x / 2 &&& y / 2) := by
  have hle : (x &&& y) % 2 ≤ x % 2 := by
    rw [and_mod_two]
    rcases Nat.mod_two_eq_zero_or_one y with hy | hy <;> simp [hy]
  have hand : x &&& y ≤ x := Nat.and_le_left
  rw [← Nat.and_div_two]
  omega

/-- Taking the written ones away from a number clears exactly those bits. -/
theorem testBit_sub_and (x y b : Nat) : (x - (x &&& y)).testBit b = (x.testBit b && !y.testBit b) := by
  induction b generalizing x y with
  | zero =>
    have hmod := and_mod_two x y
    have hand : x &&& y ≤ x := Nat.and_le_left
    rcases Nat.mod_two_eq_zero_or_one x with hx | hx <;> rcases Nat.mod_two_eq_zero_or_one y with hy | hy <;>
      simp only [hx, hy, Nat.testBit_zero] at hmod ⊢ <;> simp <;> omega
  | succ b ih => rw [Nat.testBit_succ, sub_and_div_two, ih, ← Nat.testBit_succ, ← Nat.testBit_succ]

theorem bitsAt_zero (x n : Nat) : bitsAt x 0 n = x % 2 ^ n := by simp [bitsAt]

/-! ## Errors -/

/-- The fields of a page that an error on it changes. -/
def errShown : List Fld := [Reg.errValid, Reg.errOverflow, Reg.errCode, Reg.errDetail, Reg.errStk, Reg.errCount]

/-- A field that no error capture writes keeps its value when an error is captured. -/
theorem rd_err (s : State) (p q : Page) (code detail : Nat) (g : Fld) (h : ∀ f ∈ errShown, regKey q g ≠ regKey p f) :
    (s.err p code detail).rd q g = s.rd q g := by
  simp only [errShown, List.forall_mem_cons] at h
  obtain ⟨hv, ho, hc, hd, hs, hn, -⟩ := h
  have hcount : (s.bump p Reg.errCount 1).rd q g = s.rd q g := by
    rw [bump_errCount, rd_wr_ne _ _ _ _ _ _ hn]
    unfold State.noteCount
    dsimp only
    split <;> rfl
  unfold State.err
  dsimp only
  split
  · rw [rd_wr_ne _ _ _ _ _ _ ho, hcount]
  · rw [rd_wrs_ne, hcount]
    simp only [List.forall_mem_cons]
    exact ⟨hv, hc, hd, hs, by simp⟩

/-- A field at another place of its page than the error fields is none of them, on any page. -/
theorem not_errShown (p q : Page) (g : Fld) (hg : g.bit < 32768) (h : ∀ f ∈ errShown, g.bit ≠ f.bit) :
    ∀ f ∈ errShown, regKey q g ≠ regKey p f := by
  have hsmall : ∀ f ∈ errShown, f.bit < 32768 := by decide
  exact fun f hf => regKey_ne_of_bit q p g f hg (hsmall f hf) (h f hf)

/-- What only raises errors, raised in the cycle of others, only shows them. -/
theorem sameCycle_shows (s0 s1 : State) (p : Page) (f : State → State) (h : ∀ s, OnlyShows s (f s)) :
    OnlyShows s1 (s0.sameCycle s1 p f) := by
  have hf : OnlyShows s1 (f (s1.wr p Reg.errValid 0)) := (wr_shows _ _ _ _).trans (h _)
  unfold State.sameCycle
  dsimp only
  split
  · exact h s1
  · split
    · exact hf.trans (wr_shows _ _ _ _)
    · split
      · exact hf.trans (wr_shows _ _ _ _)
      · exact hf.trans (wrs_shows _ _ _)

/-- A field that is not of the error capture keeps what it has through errors of one cycle. -/
theorem rd_sameCycle (s0 s1 : State) (p q : Page) (g : Fld) (f : State → State) (h : ∀ s, (f s).rd q g = s.rd q g)
    (hg : ∀ e ∈ errShown, regKey q g ≠ regKey p e) : (s0.sameCycle s1 p f).rd q g = s1.rd q g := by
  simp only [errShown, List.forall_mem_cons] at hg
  obtain ⟨hv, ho, hc, hd, -⟩ := hg
  have hf : (f (s1.wr p Reg.errValid 0)).rd q g = s1.rd q g := by rw [h, rd_wr_ne _ _ _ _ _ _ hv]
  unfold State.sameCycle
  dsimp only
  split
  · exact h s1
  · split
    · rw [rd_wr_ne _ _ _ _ _ _ hv, hf]
    · split
      · rw [rd_wr_ne _ _ _ _ _ _ ho, hf]
      · rw [rd_wrs_ne, hf]
        simp only [List.forall_mem_cons]
        exact ⟨hc, hd, ho, by simp⟩

theorem reservedErr_shows (s : State) (p : Page) (off v : Nat) : OnlyShows s (s.reservedErr p off v) := by
  unfold State.reservedErr
  split
  · exact .rfl' s
  · exact err_shows s _ _ _

theorem rd_reservedErr (s : State) (p q : Page) (off v : Nat) (g : Fld) (h : ∀ f ∈ errShown, regKey q g ≠ regKey p f) :
    (s.reservedErr p off v).rd q g = s.rd q g := by
  unfold State.reservedErr
  split
  · rfl
  · exact rd_err s p q _ _ g h

/-! ## Closed pages -/

/-- Whether a page is closed hangs on its FENCED and DARK and on the hobs that rest. -/
theorem closed_congr (s t : State) (p : Page) (hf : t.rd p Reg.statFenced = s.rd p Reg.statFenced)
    (hd : t.rd p Reg.statDark = s.rd p Reg.statDark) (hp : t.power = s.power) : t.closed p = s.closed p := by
  simp only [State.closed, State.shut, State.darkPage, State.restingPage, State.flag, hf, hd, hp]

theorem OnlyShows.power {s t : State} (h : OnlyShows s t) : t.power = s.power := by obtain ⟨_, _, _, _, _, rfl⟩ := h; rfl
theorem OnlyShows.mod {s t : State} (h : OnlyShows s t) : t.mod = s.mod := by obtain ⟨_, _, _, _, _, rfl⟩ := h; rfl
theorem OnlyShows.heldLo {s t : State} (h : OnlyShows s t) : t.heldLo = s.heldLo := by obtain ⟨_, _, _, _, _, rfl⟩ := h; rfl

/-- A page stays open when FENCED, DARK, the rails and the resting hobs stay as they are. -/
theorem Opens.congr {s t : State} {a : Access} {p : Page} {off : Nat} (h : Opens s a p off)
    (hf : t.rd p Reg.statFenced = s.rd p Reg.statFenced) (hd : t.rd p Reg.statDark = s.rd p Reg.statDark)
    (hp : t.power = s.power) (hm : t.mod = s.mod) : Opens t a p off where
  bar0 := h.bar0
  target := h.target
  aligned := h.aligned
  isOpen := (closed_congr s t p hf hd hp).trans h.isOpen
  powered := by rw [hm]; exact h.powered

theorem widthOk_four (off : Nat) (h : off % 4 = 0) : widthOk off 4 = true := by simp [widthOk, h]

/-! ## Pages of BAR0 -/

/-- The kind of page that a target names is none of the queue blocks. -/
def Target.NoQueue (t : Target) : Prop := ∀ p off, t = .page p off → p.kind ≠ .fq

theorem noQueue_page (p : Page) (off : Nat) (h : p.kind ≠ .fq) : (Target.page p off).NoQueue := by
  rintro q o ⟨⟩
  exact h

theorem noQueue_unassigned : Target.unassigned.NoQueue := by rintro q o ⟨⟩

theorem noQueue_tileTarget (n w o : Nat) : (tileTarget n w o).NoQueue := by
  unfold tileTarget
  split
  · exact noQueue_page (pgTil n) o nofun
  split
  · exact noQueue_page (pgSeq n (w - 1)) o nofun
  split
  · exact noQueue_page (pgMxa n) o nofun
  split
  · exact noQueue_page (pgVec n) o nofun
  split
  · exact noQueue_page (pgTlm n) o nofun
  split
  · exact noQueue_page (pgSmkc (0x100 + n)) o nofun
  · exact noQueue_unassigned

theorem noQueue_partTarget (n w o : Nat) : (partTarget n w o).NoQueue := by
  unfold partTarget
  split
  · exact noQueue_page (pgHrt n) o nofun
  split
  · exact noQueue_page (pgHrtx n) o nofun
  split
  · exact noQueue_page (pgSmkc (0x200 + n)) o nofun
  · exact noQueue_unassigned

theorem noQueue_linkTarget (p : Page) (smk a : Nat) (h : p.kind ≠ .fq) : (linkTarget p smk a).NoQueue := by
  unfold linkTarget
  split
  · exact noQueue_page _ _ h
  split
  · exact noQueue_page (pgSmkc smk) (a - 0x1000) nofun
  · exact noQueue_unassigned

theorem noQueue_rowTarget (base n first : Nat) (k : Kind) (a : Nat) (hk : k ≠ .fq) (t : Option Target)
    (ht : (t.getD .unassigned).NoQueue) : (((rowTarget base n first k a).orElse fun _ => t).getD .unassigned).NoQueue := by
  unfold rowTarget
  split
  · exact noQueue_page _ _ hk
  · exact ht

/-- No page of BAR0 is a queue block: those are in BAR2 (spec/17 R580). -/
theorem noQueue_bar0 (a : Nat) : (bar0 a).NoQueue := by
  have hdie : ∀ k ∈ [Kind.dev, .stk, .int, .sec, .lcy, .tnd, .trf, .thm, .pwr, .smk], k ≠ .fq := by decide
  unfold bar0
  dsimp only
  split
  · refine noQueue_page _ _ ?_
    dsimp only
    rw [List.getD_eq_getElem?_getD]
    rcases h : [Kind.dev, .stk, .int, .sec, .lcy, .tnd, .trf, .thm, .pwr, .smk][a / 0x1000]? with _ | k
    · simp
    · exact hdie k (List.mem_of_getElem? h)
  split
  · split <;> rintro p o ⟨⟩
  split
  · split <;> rintro p o ⟨⟩
  split
  · exact noQueue_tileTarget _ _ _
  split
  · exact noQueue_partTarget _ _ _
  split
  · exact noQueue_linkTarget _ _ _ (by simp [pgGdc])
  split
  · exact noQueue_linkTarget _ _ _ (by simp [pgCxp])
  split
  · exact noQueue_linkTarget _ _ _ (by simp [pgCxp])
  split
  · exact noQueue_linkTarget _ _ _ (by simp [pgKnk])
  split
  · rintro p o ⟨⟩
  · have hrow (base n first : Nat) (k : Kind) (hk : k ≠ .fq) : ((rowTarget base n first k a).getD .unassigned).NoQueue := by
      simpa using noQueue_rowTarget base n first k a hk none noQueue_unassigned
    exact noQueue_rowTarget _ _ _ _ _ (by simp) _ (noQueue_rowTarget _ _ _ _ _ (by simp) _
      (noQueue_rowTarget _ _ _ _ _ (by simp) _ (hrow _ _ _ _ (by simp))))

theorem Opens.kind_ne_fq {s : State} {a : Access} {p : Page} {off : Nat} (h : Opens s a p off) : p.kind ≠ .fq := by
  have ht := h.target
  rw [h.bar0] at ht
  exact noQueue_bar0 a.off.toNat p off ht

/-! ## Aligned 32-bit accesses -/

/-- With the rails on, an aligned 32-bit write is taken. -/
theorem access_write32 (s : State) (a : Access) (v : Nat) (hp : s.mod.pwrGood = true) (ha : a.off.toNat % 4 = 0) :
    s.access a false true v = (s.badTarget a false true).write32 a.tender a.bar2 a.off.toNat (v % 2 ^ 32) := by
  simp [State.access, accBytes, widthOk_four _ ha, hp, State.writeAccess, bitsAt_zero]

/-- With the rails on, an aligned 32-bit read is answered. -/
theorem access_read32 (s : State) (a : Access) (v : Nat) (hp : s.mod.pwrGood = true) (ha : a.off.toNat % 4 = 0) :
    s.access a false false v =
      ((s.read32 a.tender a.bar2 a.off.toNat).2.badTarget a false false).emit
        (.readData (s.read32 a.tender a.bar2 a.off.toNat).1 32 false) := by
  simp [State.access, accBytes, widthOk_four _ ha, hp, State.readAccess]

/-- A write of an open page writes its word. -/
theorem Opens.access_write {s : State} {a : Access} {p : Page} {off : Nat} (h : Opens s a p off) (v : Nat) :
    s.access a false true v = s.writeWord a.tender p off (v % 2 ^ 32) := by
  have hb : s.badTarget a false true = s := by simp [State.badTarget, h.target, h.isOpen]
  rw [access_write32 s a v h.powered h.aligned, hb]
  simp [State.write32, h.target, h.isOpen]

/-! ## Reads of an open page -/

theorem rd_foldl_clearRoc (l : List Fld) (s : State) (p q : Page) (g : Fld)
    (h : ∀ f ∈ l, f.acc = .roc → regKey q g ≠ regKey p f) :
    (l.foldl (fun (s : State) f => if f.acc = .roc then s.wr p f 0 else s) s).rd q g = s.rd q g := by
  induction l generalizing s with
  | nil => rfl
  | cons f l ih =>
    rw [List.forall_mem_cons] at h
    rw [List.foldl_cons, ih _ h.2]
    split
    · exact rd_wr_ne _ _ _ _ _ _ (h.1 ‹_›)
    · rfl

theorem foldl_clearRoc_shows (l : List Fld) (s : State) (p : Page) :
    OnlyShows s (l.foldl (fun (s : State) f => if f.acc = .roc then s.wr p f 0 else s) s) := by
  refine onlyShows_foldl _ (fun s f => ?_) l s
  split
  · exact wr_shows s _ _ _
  · exact .rfl' s

/-- A read leaves a field that it does not clear. -/
theorem rd_afterRead (s : State) (tender : Bool) (p q : Page) (off : Nat) (g : Fld)
    (h : ∀ f ∈ wordFields p.kind (off / 4), f.acc = .roc → regKey q g ≠ regKey p f) :
    (s.afterRead tender p off).rd q g = s.rd q g :=
  rd_foldl_clearRoc _ s p q g h

/-- No field that clears on a read lies at FENCED or DARK. -/
theorem roc_ne_fenced_dark (k : Kind) : ∀ f ∈ Reg.fieldsOf k, f.acc = .roc →
    f.bit < 32768 ∧ Reg.statFenced.bit ≠ f.bit ∧ Reg.statDark.bit ≠ f.bit := by
  cases k <;> decide +kernel

/-- A read leaves a page closed or open. -/
theorem closed_afterRead (s : State) (tender : Bool) (p q : Page) (off : Nat) :
    (s.afterRead tender p off).closed q = s.closed q := by
  have hroc : ∀ f ∈ wordFields p.kind (off / 4), f.acc = .roc →
      f.bit < 32768 ∧ Reg.statFenced.bit ≠ f.bit ∧ Reg.statDark.bit ≠ f.bit :=
    fun f hf => roc_ne_fenced_dark p.kind f (List.mem_filter.mp hf).1
  refine closed_congr _ _ _ (rd_afterRead _ _ _ _ _ _ fun f hf ha => ?_) (rd_afterRead _ _ _ _ _ _ fun f hf ha => ?_)
    (foldl_clearRoc_shows _ s p).power
  · obtain ⟨hsmall, hne, -⟩ := hroc f hf ha
    exact regKey_ne_of_bit _ _ _ _ (by decide) hsmall hne
  · obtain ⟨hsmall, -, hne⟩ := hroc f hf ha
    exact regKey_ne_of_bit _ _ _ _ (by decide) hsmall hne

/-- A read of an open page answers its word, and leaves what a read of it leaves. -/
theorem Opens.access_read {s : State} {a : Access} {p : Page} {off : Nat} (h : Opens s a p off) (v : Nat) :
    s.access a false false v = (s.afterRead a.tender p off).emit (.readData (s.readWord a.tender p off) 32 false) := by
  have hr : s.read32 a.tender a.bar2 a.off.toNat = (s.readWord a.tender p off, s.afterRead a.tender p off) := by
    simp [State.read32, h.target, h.isOpen]
  have hb : (s.afterRead a.tender p off).badTarget a false false = s.afterRead a.tender p off := by
    simp [State.badTarget, h.target, closed_afterRead, h.isOpen]
  rw [access_read32 s a v h.powered h.aligned, hr, hb]

/-! ## Words of one field -/

/-- A word below the shadow half holds the one field f, is not STK_CMD, and arms no flip. -/
def plainWord (k : Kind) (off : Nat) (f : Fld) : Bool :=
  decide (off < 0x800) && decide (wordFields k (off / 4) = [f]) && !(decide (k = .stk) && decide (off = 0x044)) &&
    (flipArm k).all (fun g => decide (Reg.regOff g ≠ off))

theorem armFlip_of_plain (s : State) (p : Page) (off v : Nat) (f : Fld) (h : plainWord p.kind off f = true) :
    s.armFlip p off v = s := by
  simp only [plainWord, Bool.and_eq_true] at h
  obtain ⟨-, hflip⟩ := h
  unfold State.armFlip
  cases hk : flipArm p.kind with
  | none => rfl
  | some g =>
    rw [hk] at hflip
    exact if_neg fun hc => (of_decide_eq_true (by simpa using hflip) : Reg.regOff g ≠ off) hc.1

/-- A write of a word of one field writes the field; a 1 written beside it is an error of the same cycle. -/
theorem writeWord_plain (s : State) (tender : Bool) (p : Page) (off v : Nat) (f : Fld) (h : plainWord p.kind off f = true) :
    s.writeWord tender p off v =
      s.sameCycle (s.writePart tender p (off / 4) v f) p (fun t => t.reservedErr p off v) := by
  have hflip := armFlip_of_plain (s.writePart tender p (off / 4) v f) p off v f h
  simp only [plainWord, Bool.and_eq_true, decide_eq_true_eq, Bool.not_eq_true', Bool.and_eq_false_iff, decide_eq_false_iff_not] at h
  obtain ⟨⟨⟨hlow, hw⟩, hcmd⟩, -⟩ := h
  have hcmd' : ¬(p.kind = .stk ∧ off = 0x044) := fun hc => hcmd.elim (fun h => h hc.1) (fun h => h hc.2)
  unfold State.writeWord
  rw [if_neg (by omega)]
  dsimp only
  rw [if_neg hcmd', hw, List.foldl_cons, List.foldl_nil, hflip]

/-- Beside its field a write of a one-field word can only show an error. -/
theorem writeWord_plain_shows (s : State) (tender : Bool) (p : Page) (off v : Nat) (f : Fld)
    (h : plainWord p.kind off f = true) : OnlyShows (s.writePart tender p (off / 4) v f) (s.writeWord tender p off v) := by
  rw [writeWord_plain s tender p off v f h]
  exact sameCycle_shows _ _ _ _ fun t => reservedErr_shows t p off v

theorem rd_writeWord_plain (s : State) (tender : Bool) (p q : Page) (off v : Nat) (f g : Fld)
    (h : plainWord p.kind off f = true) (hg : ∀ e ∈ errShown, regKey q g ≠ regKey p e) :
    (s.writeWord tender p off v).rd q g = (s.writePart tender p (off / 4) v f).rd q g := by
  rw [writeWord_plain s tender p off v f h]
  exact rd_sameCycle _ _ _ _ _ _ (fun t => rd_reservedErr t p q off v g hg) hg

/-- FENCED and DARK are not of the error capture. -/
theorem fenced_not_errShown (p q : Page) : ∀ e ∈ errShown, regKey q Reg.statFenced ≠ regKey p e :=
  not_errShown p q _ (by decide) (by decide)
theorem dark_not_errShown (p q : Page) : ∀ e ∈ errShown, regKey q Reg.statDark ≠ regKey p e :=
  not_errShown p q _ (by decide) (by decide)

/-- A part of a word that is no 64-bit pair is written as a field. -/
theorem writePart_field (s : State) (tender : Bool) (p : Page) (w v : Nat) (f : Fld) (h : f.width ≠ 64) :
    s.writePart tender p w v f = s.writeField tender p f (bitsAt v (fieldPart f w).2.1 (fieldPart f w).2.2) := by
  have hp : writablePair f = false := by simp [writablePair, h]
  simp [State.writePart, hp, h]

/-- A write of the low half of a writable pair is held (R59). -/
theorem writePart_lo (s : State) (tender : Bool) (p : Page) (w v : Nat) (f : Fld) (hp : writablePair f = true)
    (hw : f.bit = 32 * w) : s.writePart tender p w v f = s.holdLo p f v := by
  simp [State.writePart, hp, hw]

/-- A write of the high half of a writable pair commits both halves (R59). -/
theorem writePart_hi (s : State) (tender : Bool) (p : Page) (w v : Nat) (f : Fld) (hp : writablePair f = true)
    (hw : f.bit ≠ 32 * w) : s.writePart tender p w v f = s.commitPair tender p f v := by
  simp [State.writePart, hp, hw]

/-- The value of a readable word of one field, outside the header's views and the shadow half. -/
theorem wordAt_single (s : State) (p : Page) (off : Nat) (f : Fld) (hk : p.kind ≠ .fq) (hlow : off < 0x800) (hoff : 0xC < off)
    (hw : wordFields p.kind (off / 4) = [f]) :
    s.wordAt p off = bitsAt (s.readField p f) (fieldPart f (off / 4)).1 (fieldPart f (off / 4)).2.2 * 2 ^ (fieldPart f (off / 4)).2.1 := by
  have hj : joinWord p.kind (off / 4) (s.readField p) =
      bitsAt (s.readField p f) (fieldPart f (off / 4)).1 (fieldPart f (off / 4)).2.2 * 2 ^ (fieldPart f (off / 4)).2.1 := by
    simp [joinWord, hw]
  unfold State.wordAt
  dsimp only
  rw [if_neg hk, if_neg (by omega), if_neg (by omega), if_neg (by omega), if_neg (by omega), hj]

/-- A field that shows no other state reads as what it holds. -/
theorem readField_own (s : State) (p : Page) (f : Fld) (hacc : f.acc ≠ .wo) (hv : s.viewOf p f = none) :
    s.readField p f = s.rd p f := by
  simp [State.readField, hacc, hv]

/-- A word that is no high half of a pair is read live. -/
theorem readWord_live (s : State) (tender : Bool) (p : Page) (off : Nat) (h : hiWord p.kind (off / 4) = false) :
    s.readWord tender p off = s.wordAt p off := by
  simp [State.readWord, h]

/-- A high half is read as the requester's last read latched it (R58). -/
theorem readWord_latched (s : State) (tender : Bool) (p : Page) (off x : Nat) (h : hiWord p.kind (off / 4) = true)
    (hl : SMap.getD s.latches (2 * pageKey p + b2n tender) (0, 0) = (off / 4, x)) : s.readWord tender p off = x := by
  simp [State.readWord, h, hl]

/-- A read of a low half latches the live high half for its requester (R58). -/
theorem latches_afterRead_lo (s : State) (tender : Bool) (p : Page) (off : Nat) (h : loWord p.kind (off / 4) = true) :
    SMap.getD (s.afterRead tender p off).latches (2 * pageKey p + b2n tender) (0, 0) =
      (off / 4 + 1, s.wordAt p (4 * (off / 4) + 4)) := by
  simp [State.afterRead, h]

/-- A word of one field that clears on a read holds 0 after it. -/
theorem rd_afterRead_roc (s : State) (tender : Bool) (p : Page) (off : Nat) (f : Fld) (hw : wordFields p.kind (off / 4) = [f])
    (hacc : f.acc = .roc) : (s.afterRead tender p off).rd p f = 0 := by
  have h : (s.afterRead tender p off).rd p f = (s.wr p f 0).rd p f := by
    refine rd_of_regs _ _ ?_ p f
    simp [State.afterRead, hw, hacc]
  rw [h, rd_wr_same, Nat.zero_mod]

/-- A read puts nothing on an interface but its answer. -/
theorem out_afterRead (s : State) (tender : Bool) (p : Page) (off : Nat) : (s.afterRead tender p off).out = s.out := by
  have h (l : List Fld) (s : State) :
      (l.foldl (fun (s : State) f => if f.acc = .roc then s.wr p f 0 else s) s).out = s.out := by
    induction l generalizing s with
    | nil => rfl
    | cons f l ih =>
      rw [List.foldl_cons, ih]
      split <;> rfl
  exact h _ s

/-! ## The common header -/

/-- INT_RAW has its word for itself on every page with a header. -/
theorem plainWord_intRaw (k : Kind) : k ≠ .fq → plainWord k 0x010 Reg.intRaw = true := by
  cases k <;> decide +kernel

/-- ERR_COUNT has its word for itself on every page with a header, and is no half of a pair. -/
theorem wordFields_errCount (k : Kind) : k ≠ .fq → wordFields k 8 = [Reg.errCount] ∧ hiWord k 8 = false := by
  cases k <;> decide +kernel

theorem ctxView_errCount (x : Ctx) (c : Nat) : ctxView x c Reg.errCount = none := by
  simp [ctxView, Reg.errCount, Reg.fld, Reg.seqCtxEpoch, Reg.seqCtxDepth, Reg.seqCtxGroup, Reg.seqCtxFrag, Reg.seqCtxParked,
    Reg.seqCtxAtBar, Reg.seqCtxAtEvt, Reg.seqCtxValid, Reg.seqLive, Reg.seqPark]

/-- ERR_COUNT shows no other state, on any page. -/
theorem viewOf_errCount (s : State) (p : Page) : s.viewOf p Reg.errCount = none := by
  obtain ⟨k, i⟩ := p
  cases k with
  | seq => exact List.findSome?_eq_none_iff.mpr fun e _ => ctxView_errCount e.2 e.1
  | trf =>
    change s.trfView Reg.errCount = none
    unfold State.trfView
    split <;> rfl
  | _ => rfl

/-- The word of ERR_COUNT is the count. -/
theorem readWord_errCount (s : State) (tender : Bool) (p : Page) (hk : p.kind ≠ .fq) :
    s.readWord tender p 0x020 = s.rd p Reg.errCount % 2 ^ 32 := by
  obtain ⟨hw, hhi⟩ := wordFields_errCount p.kind hk
  rw [readWord_live s tender p 0x020 hhi, wordAt_single s p 0x020 Reg.errCount hk (by decide) (by decide) hw,
    readField_own s p _ (by decide) (viewOf_errCount s p)]
  simp [bitsAt, fieldPart, Reg.errCount, Reg.fld]

/-- A write to INT_RAW clears the causes written 1 (W1C). -/
theorem w1cField_intRaw (s : State) (p : Page) (v : Nat) :
    s.w1cField p Reg.intRaw v = s.wr p Reg.intRaw (s.rd p Reg.intRaw - (s.rd p Reg.intRaw &&& v)) := by
  unfold State.w1cField
  dsimp only
  rw [if_neg (fun h => absurd h.2 (by decide)), if_neg (fun h => absurd h.1 (by decide))]
/-! ## Each access code on an open page (R12, R58, R59, R60, R63) -/

section
variable {s : State} {a : Access}

/-- A write of DEV_SCRATCH takes effect at once. -/
theorem write_devScratch (h : Opens s a pgDev 0x058) (v : Nat) :
    (s.access a false true v).rd pgDev Reg.devScratch = v % 2 ^ 32 := by
  have hplain : plainWord pgDev.kind 0x058 Reg.devScratch = true := by decide +kernel
  have hpart : s.writePart a.tender pgDev (0x058 / 4) (v % 2 ^ 32) Reg.devScratch =
      s.wr pgDev Reg.devScratch (bitsAt (v % 2 ^ 32) 0 32) := writePart_field _ _ _ _ _ _ (by decide)
  rw [h.access_write, rd_writeWord_plain _ _ _ _ _ _ _ _ hplain (not_errShown _ _ _ (by decide) (by decide)), hpart,
    rd_wr_same, bitsAt_zero, Nat.mod_mod]
  exact Nat.mod_mod v _

/-- A write of TIL_CTRL.LOCK_POLL lands in the shadow, which PAGE_STAT shows; the value in effect stays. -/
theorem write_lockPoll {n : Nat} (h : Opens s a (pgTil n) 0x040) (v : Nat) :
    (s.access a false true v).shadowOf (pgTil n) Reg.tilCtrlLockPoll = v % 2 ^ 32 % 256 ∧
    (s.access a false true v).rd (pgTil n) Reg.tilCtrlLockPoll = s.rd (pgTil n) Reg.tilCtrlLockPoll ∧
    (s.access a false true v).flag (pgTil n) Reg.statShadowPend = true := by
  have hplain : plainWord (pgTil n).kind 0x040 Reg.tilCtrlLockPoll = true := by
    change plainWord .til 0x040 Reg.tilCtrlLockPoll = true
    decide +kernel
  have hpart : s.writePart a.tender (pgTil n) (0x040 / 4) (v % 2 ^ 32) Reg.tilCtrlLockPoll =
      s.setShadow (pgTil n) Reg.tilCtrlLockPoll (bitsAt (v % 2 ^ 32) 0 8) := writePart_field _ _ _ _ _ _ (by decide)
  have hshows := writeWord_plain_shows s a.tender (pgTil n) 0x040 (v % 2 ^ 32) _ hplain
  have hrd (g : Fld) (hg : g.bit < 32768) (hne : ∀ e ∈ errShown, g.bit ≠ e.bit) :=
    rd_writeWord_plain s a.tender (pgTil n) (pgTil n) 0x040 (v % 2 ^ 32) _ g hplain (not_errShown _ _ _ hg hne)
  rw [hpart] at hshows
  rw [h.access_write]
  refine ⟨?_, ?_, ?_⟩
  · unfold State.shadowOf
    rw [hshows.shadow]
    simp only [State.setShadow, State.wr_shadow, SMap.getD, SMap.find_ins_same, Option.getD_some, bitsAt_zero]
    exact Nat.mod_mod _ _
  · rw [hrd _ (by decide) (by decide), hpart]
    exact rd_wr_ne _ _ _ _ _ _ (regKey_ne_of_bit _ _ _ _ (by decide) (by decide) (by decide))
  · unfold State.flag
    rw [hrd _ (by decide) (by decide), hpart]
    have hone : (s.setShadow (pgTil n) Reg.tilCtrlLockPoll (bitsAt (v % 2 ^ 32) 0 8)).rd (pgTil n) Reg.statShadowPend = 1 :=
      rd_wr_same _ _ _ _
    rw [hone]
    rfl

/-- A write of INT_RAW clears the causes written 1, and no other. -/
theorem write_intRaw {p : Page} (h : Opens s a p 0x010) (v b : Nat) (hb : b < 32) :
    bitAt ((s.access a false true v).rd p Reg.intRaw) b = (bitAt (s.rd p Reg.intRaw) b && !bitAt (v % 2 ^ 32) b) := by
  have hplain := plainWord_intRaw p.kind h.kind_ne_fq
  have hpart : s.writePart a.tender p (0x010 / 4) (v % 2 ^ 32) Reg.intRaw =
      s.w1cField p Reg.intRaw (bitsAt (v % 2 ^ 32) 0 32) := writePart_field _ _ _ _ _ _ (by decide)
  have hwidth : Reg.intRaw.width = 32 := rfl
  rw [h.access_write, rd_writeWord_plain _ _ _ _ _ _ _ _ hplain (not_errShown _ _ _ (by decide) (by decide)), hpart,
    w1cField_intRaw, rd_wr_same, hwidth, bitAt_mod _ _ _ hb, bitsAt_zero, Nat.mod_mod]
  simp only [bitAt_eq_testBit, testBit_sub_and]

/-- A locked RWL field keeps its value (R63). -/
theorem rwlField_locked (s : State) (p : Page) (f : Fld) (v : Nat) (hl : s.flag p Reg.ctrlLock = true)
    (hf : ∀ e ∈ errShown, regKey p f ≠ regKey p e) : (s.rwlField p f v).rd p f = s.rd p f := by
  unfold State.rwlField
  split
  · rfl
  · rw [if_neg (by simp [hl])]
    split
    · rfl
    · exact rd_err _ _ _ _ _ _ hf

/-- A write of the high half of ING_BASE does not change it on a locked page. -/
theorem writeHi_ingBase_locked (h : Opens s a (pgCxp 0) (Reg.regOff Reg.cxpIngBase + 4))
    (hl : s.flag (pgCxp 0) Reg.ctrlLock = true) (v : Nat) :
    (s.access a false true v).rd (pgCxp 0) Reg.cxpIngBase = s.rd (pgCxp 0) Reg.cxpIngBase := by
  have hplain : plainWord (pgCxp 0).kind (Reg.regOff Reg.cxpIngBase + 4) Reg.cxpIngBase = true := by decide +kernel
  have hne := not_errShown (pgCxp 0) (pgCxp 0) Reg.cxpIngBase (by decide) (by decide)
  rw [h.access_write, rd_writeWord_plain _ _ _ _ _ _ _ _ hplain hne, writePart_hi _ _ _ _ _ _ (by decide) (by decide)]
  exact rwlField_locked _ _ _ _ hl hne

/-- A read of ERR_COUNT answers the count and clears it. -/
theorem read_errCount {p : Page} (h : Opens s a p 0x020) (v : Nat) :
    (s.access a false false v).rd p Reg.errCount = 0 ∧
    (s.access a false false v).out = s.out ++ [.readData (s.rd p Reg.errCount % 2 ^ 32) 32 false] := by
  rw [h.access_read, readWord_errCount s a.tender p h.kind_ne_fq, State.emit_out, out_afterRead]
  exact ⟨rd_afterRead_roc s a.tender p 0x020 _ (wordFields_errCount p.kind h.kind_ne_fq).1 rfl, rfl⟩

/-- The words of the pair STK_NUM. -/
theorem wordAt_stkNum_lo (s : State) : s.wordAt pgStk 0x054 = s.rd pgStk Reg.stkNum % 2 ^ 32 := by
  rw [wordAt_single s pgStk 0x054 Reg.stkNum (by decide) (by decide) (by decide) (by decide +kernel), readField_own _ _ _ (by decide) rfl]
  simp [bitsAt, fieldPart, Reg.stkNum, Reg.fld]

theorem wordAt_stkNum_hi (s : State) : s.wordAt pgStk 0x058 = s.rd pgStk Reg.stkNum / 2 ^ 32 % 2 ^ 32 := by
  rw [wordAt_single s pgStk 0x058 Reg.stkNum (by decide) (by decide) (by decide) (by decide +kernel), readField_own _ _ _ (by decide) rfl]
  simp [bitsAt, fieldPart, Reg.stkNum, Reg.fld]

/-- A read of the low half of STK_NUM answers it. -/
theorem readLo_stkNum (h : Opens s a pgStk 0x054) (v : Nat) :
    (s.access a false false v).out = s.out ++ [.readData (s.rd pgStk Reg.stkNum % 2 ^ 32) 32 false] := by
  rw [h.access_read, readWord_live s a.tender pgStk 0x054 (by decide +kernel), wordAt_stkNum_lo, State.emit_out, out_afterRead]

/-- The read of the low half of STK_NUM latches the high half for its requester. -/
theorem readLo_stkNum_latches (h : Opens s a pgStk 0x054) (v : Nat) :
    SMap.getD (s.access a false false v).latches (2 * pageKey pgStk + b2n a.tender) (0, 0) =
      (0x058 / 4, s.rd pgStk Reg.stkNum / 2 ^ 32 % 2 ^ 32) := by
  have hl := latches_afterRead_lo s a.tender pgStk 0x054 (by decide +kernel)
  rw [h.access_read, State.emit_latches, hl, ← wordAt_stkNum_hi]

/-- A latched high half of STK_NUM is what its requester reads. -/
theorem readHi_stkNum_latched {b : Access} (h : Opens s b pgStk 0x058) (v x : Nat)
    (hl : SMap.getD s.latches (2 * pageKey pgStk + b2n b.tender) (0, 0) = (0x058 / 4, x)) :
    (s.access b false false v).out = s.out ++ [.readData x 32 false] := by
  rw [h.access_read, readWord_latched s b.tender pgStk 0x058 x (by decide +kernel) hl, State.emit_out, out_afterRead]

end

/-- A read of the low half of STK_NUM leaves every open page open, also once the counter has moved on. -/
theorem Opens.after_read {s : State} {a b : Access} {p q : Page} {off off' : Nat} (ha : Opens s a p off) (hb : Opens s b q off')
    (v n : Nat) : Opens ((s.access a false false v).wr pgStk Reg.stkNum n) b q off' where
  bar0 := hb.bar0
  target := hb.target
  aligned := hb.aligned
  isOpen := by
    have hwr (t : State) : (t.wr pgStk Reg.stkNum n).closed q = t.closed q :=
      closed_congr _ _ _ (rd_wr_ne _ _ _ _ _ _ (regKey_ne_of_bit _ _ _ _ (by decide) (by decide) (by decide)))
        (rd_wr_ne _ _ _ _ _ _ (regKey_ne_of_bit _ _ _ _ (by decide) (by decide) (by decide))) rfl
    rw [ha.access_read, hwr]
    exact (closed_afterRead s a.tender p q off).trans hb.isOpen
  powered := by
    have hmod : (s.afterRead a.tender p off).mod = s.mod := (foldl_clearRoc_shows _ s p).mod
    rw [ha.access_read, State.wr_mod, State.emit_mod, hmod]
    exact hb.powered

/-! ## The pair STK_RESUME (R59) -/

section
variable {s : State} {a b : Access}

theorem plainWord_stkResume : plainWord pgStk.kind 0x064 Reg.stkResume = true ∧ plainWord pgStk.kind 0x068 Reg.stkResume = true := by
  decide +kernel

/-- After a write of the low half of STK_RESUME nothing shows but errors of a page: the half is held. -/
theorem writeLo_stkResume (h : Opens s a pgStk 0x064) (v : Nat) :
    OnlyShows (s.holdLo pgStk Reg.stkResume (v % 2 ^ 32)) (s.access a false true v) ∧
    ∀ q g, (∀ e ∈ errShown, regKey q g ≠ regKey pgStk e) → (s.access a false true v).rd q g = s.rd q g := by
  have hpart : s.writePart a.tender pgStk (0x064 / 4) (v % 2 ^ 32) Reg.stkResume = s.holdLo pgStk Reg.stkResume (v % 2 ^ 32) :=
    writePart_lo _ _ _ _ _ _ (by decide) (by decide)
  have hshows := writeWord_plain_shows s a.tender pgStk 0x064 (v % 2 ^ 32) _ plainWord_stkResume.1
  rw [hpart] at hshows
  rw [h.access_write]
  refine ⟨hshows, fun q g hg => ?_⟩
  rw [rd_writeWord_plain _ _ _ _ _ _ _ _ plainWord_stkResume.1 hg, hpart]
  rfl

/-- A write of the high half of STK_RESUME puts both halves into effect. -/
theorem writeHi_stkResume (h : Opens s b pgStk 0x068) (v lo : Nat) (hlo : lo < 2 ^ 32)
    (hheld : SMap.find s.heldLo (regKey pgStk Reg.stkResume) = some lo) :
    (s.access b false true v).rd pgStk Reg.stkResume = lo + 2 ^ 32 * (v % 2 ^ 32) := by
  have hpart : s.writePart b.tender pgStk (0x068 / 4) (v % 2 ^ 32) Reg.stkResume =
      s.commitPair b.tender pgStk Reg.stkResume (v % 2 ^ 32) := writePart_hi _ _ _ _ _ _ (by decide) (by decide)
  have hcommit : (s.commitPair b.tender pgStk Reg.stkResume (v % 2 ^ 32)).rd pgStk Reg.stkResume =
      (lo + 2 ^ 32 * (v % 2 ^ 32)) % 2 ^ 64 := by
    unfold State.commitPair
    rw [hheld]
    exact rd_wr_same _ _ _ _
  rw [h.access_write, rd_writeWord_plain _ _ _ _ _ _ _ _ plainWord_stkResume.2 (not_errShown _ _ _ (by decide) (by decide)),
    hpart, hcommit]
  omega

/-- A write of the low half of STK_RESUME, then one of the high half. -/
theorem writeLo_writeHi_stkResume (ha : Opens s a pgStk 0x064) (hb : Opens s b pgStk 0x068) (w v : Nat) :
    ((s.access a false true w).access b false true v).rd pgStk Reg.stkResume = w % 2 ^ 32 + 2 ^ 32 * (v % 2 ^ 32) := by
  obtain ⟨hshows, hrd⟩ := writeLo_stkResume ha w
  have hopen : Opens (s.access a false true w) b pgStk 0x068 :=
    hb.congr (hrd _ _ (fenced_not_errShown _ _)) (hrd _ _ (dark_not_errShown _ _)) hshows.power hshows.mod
  refine writeHi_stkResume hopen v _ (Nat.mod_lt _ (by decide)) ?_
  rw [hshows.heldLo]
  exact SMap.find_ins_same _ _ _

/-! ## The commands on an open page -/

theorem Opens.isPairWord {p : Page} {off : Nat} (h : Opens s a p off) (half : Kind → Nat → Bool)
    (hw : half p.kind (off % 0x800 / 4) = true) : isPairWord a half = true := by
  unfold Machine.isPairWord
  rw [h.target]
  exact hw

theorem exec_registerWrite (s : State) (a : Access) (wide : Bool) (v : BitVec 64) :
    exec (.registerWrite a wide v) s = .next (s.access a wide true v.toNat) := rfl

theorem exec_rocRead (s : State) (a : Access) (wide : Bool) : exec (.rocRead a wide) s = .next (s.access a wide false 0) := rfl

theorem exec_pairLoRead (s : State) (a : Access) (h : isPairWord a loWord = true) :
    exec (.pairLoRead a) s = .next (s.access a false false 0) := by
  change answer _ = _
  rw [if_pos h, answer]

theorem exec_pairLoWrite (s : State) (a : Access) (w : BitVec 32) (h : isPairWord a loWord = true) :
    exec (.pairLoWrite a w) s = .next (s.access a false true w.toNat) := by
  change answer _ = _
  rw [if_pos h, answer]

theorem exec_pairHiWrite (s : State) (a : Access) (w : BitVec 32) (h : isPairWord a hiWord = true) :
    exec (.pairHiWrite a w) s = .next (s.access a false true w.toNat) := by
  change answer _ = _
  rw [if_pos h, answer]

end

/-! ## Accesses that no register takes (R56, R57, R65, R66, R83, R746) -/

/-- Pages but DEV and INT keep their fields, and memory and the shadows stay. -/
def OnlyDevInt (s t : State) : Prop :=
  (∀ p f, p ≠ pgDev → p ≠ pgInt → f.bit < 32768 → t.rd p f = s.rd p f) ∧ t.mem = s.mem ∧ t.shadow = s.shadow

theorem OnlyDevInt.refl (s : State) : OnlyDevInt s s := ⟨fun _ _ _ _ _ => rfl, rfl, rfl⟩

theorem OnlyDevInt.trans {s t u : State} (h : OnlyDevInt s t) (g : OnlyDevInt t u) : OnlyDevInt s u := by
  obtain ⟨hrd, hmem, hshadow⟩ := h
  obtain ⟨grd, gmem, gshadow⟩ := g
  exact ⟨fun p f hd hi hf => (grd p f hd hi hf).trans (hrd p f hd hi hf), gmem.trans hmem, gshadow.trans hshadow⟩

theorem onlyDevInt_setCause (s : State) (b : Nat) : OnlyDevInt s (s.setCause pgDev b) := by
  have hshows := setCause_shows s pgDev b
  have hsmall : ∀ f ∈ intShown, f.bit < 32768 := by decide
  refine ⟨fun p f hd hi hf => ?_, hshows.mem, hshows.shadow⟩
  exact rd_setCause _ _ _ _ _ (regKey_ne_of_page _ _ _ _ hf (by decide) hd)
    fun g hg => regKey_ne_of_page _ _ _ _ hf (hsmall g hg) hi

theorem onlyDevInt_err (s : State) (code detail : Nat) : OnlyDevInt s (s.err pgDev code detail) :=
  ⟨fun p f hd _ hf => rd_err_ne s pgDev p code detail f hd hf, (err_shows s _ _ _).mem, (err_shows s _ _ _).shadow⟩

theorem onlyDevInt_badAddr (s : State) (a : Nat) : OnlyDevInt s (s.badAddr a) :=
  ⟨fun _ _ hd _ hf => rd_wr_ne _ _ _ _ _ _ (regKey_ne_of_page _ _ _ _ hf (by decide) hd), rfl, rfl⟩

theorem onlyDevInt_emit (s : State) (o : Output) : OnlyDevInt s (s.emit o) := ⟨fun _ _ _ _ _ => rfl, rfl, rfl⟩

/-- A field that is neither INT_RAW nor one of the INT page's that an interrupt changes keeps its value when a cause is set. -/
theorem rd_setCause_of_bit (s : State) (p q : Page) (b : Nat) (g : Fld) (hg : g.bit < 32768) (hr : g.bit ≠ Reg.intRaw.bit)
    (hi : ∀ f ∈ intShown, g.bit ≠ f.bit) : (s.setCause p b).rd q g = s.rd q g := by
  have hsmall : ∀ f ∈ intShown, f.bit < 32768 := by decide
  exact rd_setCause _ _ _ _ _ (regKey_ne_of_bit _ _ _ _ hg (by decide) hr)
    fun f hf => regKey_ne_of_bit _ _ _ _ hg (hsmall f hf) (hi f hf)

theorem rd_badAddr (s : State) (a : Nat) (q : Page) (g : Fld) (hg : g.bit < 32768) (h : g.bit ≠ Reg.devBadAddrOffset.bit) :
    (s.badAddr a).rd q g = s.rd q g :=
  rd_wr_ne _ _ _ _ _ _ (regKey_ne_of_bit _ _ _ _ hg (by decide) h)

theorem captured_badAddr (s : State) (a : Nat) : (s.badAddr a).rd pgDev Reg.devBadAddrOffset = a % 2 ^ 26 := rd_wr_same _ _ _ _

/-- A cause of the DEV page with its captured offset. -/
theorem cause_badAddr (s : State) (b a : Nat) (hb : b < 32) :
    OnlyDevInt s ((s.setCause pgDev b).badAddr a) ∧
    ((s.setCause pgDev b).badAddr a).rd pgDev Reg.devBadAddrOffset = a % 2 ^ 26 ∧
    bitAt (((s.setCause pgDev b).badAddr a).rd pgDev Reg.intRaw) b = true := by
  refine ⟨(onlyDevInt_setCause s b).trans (onlyDevInt_badAddr _ a), captured_badAddr _ a, ?_⟩
  rw [rd_badAddr _ _ _ _ (by decide) (by decide)]
  exact bit_setCause s pgDev b hb

/-- A read that no register takes is answered with 0, and a write is not answered. -/
def State.answered (s : State) (bits : Nat) (write : Bool) : State := if write then s else s.emit (.readData 0 bits false)

theorem onlyDevInt_answered (s : State) (bits : Nat) (write : Bool) : OnlyDevInt s (s.answered bits write) := by
  cases write
  · exact onlyDevInt_emit s _
  · exact .refl s

@[simp] theorem rd_answered (s : State) (bits : Nat) (write : Bool) (p : Page) (f : Fld) :
    (s.answered bits write).rd p f = s.rd p f := by
  cases write <;> rfl

theorem answered_zero (s : State) (bits : Nat) (write : Bool) (h : write = false) :
    (s.answered bits write).out.getLast? = some (.readData 0 bits false) := by
  subst h
  simp [State.answered]

/-- An access of a bad width to BAR0: BAD_WIDTH, the offset, and the answer. -/
theorem badWidth_bar0 (s : State) (a : Access) (n : Nat) (write : Bool) (h : a.bar2 = false) :
    s.badWidth a n write = ((s.setCause pgDev Reg.causeDevBadWidth).badAddr a.off.toNat).answered (8 * n) write := by
  simp [State.badWidth, State.answered, h]

/-- An access to an unassigned offset of BAR0: UNMAPPED, the offset, and the answer. -/
theorem access_unassigned (s : State) (a : Access) (write : Bool) (v : Nat) (h : a.bar2 = false) (hp : s.mod.pwrGood = true)
    (ha : a.off.toNat % 4 = 0) (ht : targetAt a.bar2 a.off.toNat = .unassigned) :
    s.access a false write v = ((s.setCause pgDev Reg.causeDevUnmapped).badAddr a.off.toNat).answered 32 write := by
  have hb (w : Bool) : s.badTarget a false w = (s.setCause pgDev Reg.causeDevUnmapped).badAddr a.off.toNat := by
    simp only [State.badTarget, ht]
    simp [State.unmappedAccess, h]
  cases write with
  | true =>
    rw [access_write32 s a v hp ha, hb]
    simp [State.write32, ht, State.answered]
  | false =>
    have hr : s.read32 a.tender a.bar2 a.off.toNat = (0, s) := by simp [State.read32, ht]
    rw [access_read32 s a v hp ha, hr, hb]
    rfl

/-- An access to a closed page first sets DARK_ACCESS when the page is dark (R66). -/
def State.darkNoted (s : State) (p : Page) : State := if s.darkPage p then s.setCause pgDev Reg.causeDevDarkAccess else s

theorem closedAccess_captured (s : State) (p : Page) (off a : Nat) (write : Bool) (h : write = true ∨ (off ≠ 0 ∧ off ≠ 0xC)) :
    s.closedAccess p off a false write = ((s.darkNoted p).err pgDev 0x05 off).badAddr a := by
  have hc : (!write && showsClosed off false) = false := by
    rcases h with rfl | ⟨h0, hC⟩
    · rfl
    · simp [showsClosed, h0, hC]
  simp [State.closedAccess, State.darkNoted, hc]

theorem onlyDevInt_darkNoted (s : State) (p : Page) : OnlyDevInt s (s.darkNoted p) := by
  unfold State.darkNoted
  split
  · exact onlyDevInt_setCause s _
  · exact .refl s

theorem darkNoted_shows (s : State) (p : Page) : OnlyShows s (s.darkNoted p) := by
  unfold State.darkNoted
  split
  · exact setCause_shows s _ _
  · exact .rfl' s

theorem rd_darkNoted (s : State) (p q : Page) (g : Fld) (hg : g.bit < 32768) (hr : g.bit ≠ Reg.intRaw.bit)
    (hi : ∀ f ∈ intShown, g.bit ≠ f.bit) : (s.darkNoted p).rd q g = s.rd q g := by
  unfold State.darkNoted
  split
  · exact rd_setCause_of_bit s _ _ _ g hg hr hi
  · rfl

/-- What an access to a closed page captures. -/
theorem closedCapture (s : State) (p : Page) (off a : Nat) :
    let t := ((s.darkNoted p).err pgDev 0x05 off).badAddr a
    OnlyDevInt s t ∧ t.rd pgDev Reg.devBadAddrOffset = a % 2 ^ 26 ∧
    (s.darkPage p = true → bitAt (t.rd pgDev Reg.intRaw) Reg.causeDevDarkAccess = true) ∧
    (s.flag pgDev Reg.errValid = false → t.rd pgDev Reg.errCode = 5 ∧ t.rd pgDev Reg.errDetail = off % 2 ^ 16) := by
  intro t
  refine ⟨((onlyDevInt_darkNoted s p).trans (onlyDevInt_err _ _ _)).trans (onlyDevInt_badAddr _ _), captured_badAddr _ a,
    fun hd => ?_, fun hv => ?_⟩
  · have hnoted : s.darkNoted p = s.setCause pgDev Reg.causeDevDarkAccess := if_pos hd
    rw [rd_badAddr _ _ _ _ (by decide) (by decide), rd_err _ _ _ _ _ _ (not_errShown _ _ _ (by decide) (by decide)), hnoted]
    exact bit_setCause s pgDev _ (by decide)
  · have hv' : (s.darkNoted p).flag pgDev Reg.errValid = false := by
      unfold State.flag
      rw [rd_darkNoted s p _ _ (by decide) (by decide) (by decide)]
      exact hv
    obtain ⟨-, hcode, hdetail⟩ := err_captures (s.darkNoted p) pgDev 0x05 off hv'
    rw [rd_badAddr _ _ _ _ (by decide) (by decide), rd_badAddr _ _ _ _ (by decide) (by decide)]
    exact ⟨hcode, hdetail⟩

/-- An access to a closed page leaves it closed. -/
theorem closed_closedCapture (s : State) (p q : Page) (off a : Nat) :
    (((s.darkNoted p).err pgDev 0x05 off).badAddr a).closed q = s.closed q := by
  have hrd (g : Fld) (hg : g.bit < 32768) (hr : g.bit ≠ Reg.intRaw.bit) (hi : ∀ f ∈ intShown, g.bit ≠ f.bit)
      (he : ∀ f ∈ errShown, g.bit ≠ f.bit) (ha : g.bit ≠ Reg.devBadAddrOffset.bit) :
      (((s.darkNoted p).err pgDev 0x05 off).badAddr a).rd q g = s.rd q g := by
    rw [rd_badAddr _ _ _ _ hg ha, rd_err _ _ _ _ _ _ (not_errShown _ _ _ hg he), rd_darkNoted _ _ _ _ hg hr hi]
  have hpower := ((darkNoted_shows s p).trans (err_shows _ pgDev 0x05 off)).power
  exact closed_congr _ _ _ (hrd _ (by decide) (by decide) (by decide) (by decide) (by decide))
    (hrd _ (by decide) (by decide) (by decide) (by decide) (by decide)) hpower

/-- An access to a closed page, other than a read of PAGE_ID or PAGE_STAT: the capture, and the answer. -/
theorem access_closed (s : State) (a : Access) (write : Bool) (v : Nat) (p : Page) (off : Nat) (hp : s.mod.pwrGood = true)
    (ha : a.off.toNat % 4 = 0) (ht : targetAt a.bar2 a.off.toNat = .page p off) (hc : s.closed p = true)
    (hoff : write = true ∨ (off ≠ 0 ∧ off ≠ 0xC)) :
    s.access a false write v = (((s.darkNoted p).err pgDev 0x05 off).badAddr a.off.toNat).answered 32 write := by
  have hb : s.badTarget a false write = ((s.darkNoted p).err pgDev 0x05 off).badAddr a.off.toNat := by
    rw [← closedAccess_captured s p off _ write hoff]
    simp [State.badTarget, ht, hc]
  cases write with
  | true =>
    rw [access_write32 s a v hp ha, hb]
    simp [State.write32, ht, closed_closedCapture, hc, State.answered]
  | false =>
    have hr : s.read32 a.tender a.bar2 a.off.toNat = (0, s) := by
      obtain ⟨h0, hC⟩ := hoff.resolve_left (by decide)
      simp [State.read32, ht, hc, showsClosed, h0, hC]
    rw [access_read32 s a v hp ha, hr, hb]
    rfl

/-- The access of a write to the legacy page. -/
def legacyAccess (off : BitVec 12) : Access := { tender := false, bar2 := false, off := 0x03F00000 + off.zeroExtend 32 }

theorem legacyAccess_off (off : BitVec 12) : (legacyAccess off).off.toNat = 0x03F00000 + off.toNat := by
  have hlt := off.isLt
  have hbase : (0x03F00000 : BitVec 32).toNat = 0x03F00000 := rfl
  simp only [legacyAccess, BitVec.toNat_add, BitVec.truncate_eq_setWidth, BitVec.toNat_setWidth, hbase]
  omega

/-- The CX-3 legacy page of BAR0 (R70). -/
theorem bar0_legacy (o : Nat) (h : o < 0x1000) : bar0 (0x03F00000 + o) = .legacy o := by
  unfold bar0
  dsimp only
  rw [if_neg (by omega), if_neg (by omega), if_neg (by omega), if_neg (by omega), if_neg (by omega), if_neg (by omega),
    if_neg (by omega), if_neg (by omega), if_neg (by omega), if_pos (by omega)]
  congr 1
  omega

/-- A write of the legacy page is ignored, with LEGACY_WRITE. -/
theorem access_legacyWrite (s : State) (off : BitVec 12) (v : Nat) (hp : s.mod.pwrGood = true) (ha : off.toNat % 4 = 0) :
    s.access (legacyAccess off) false true v = s.setCause pgDev Reg.causeDevLegacyWrite := by
  have ht : targetAt (legacyAccess off).bar2 (legacyAccess off).off.toNat = .legacy off.toNat := by
    rw [legacyAccess_off]
    exact bar0_legacy off.toNat off.isLt
  rw [access_write32 s _ v hp (by rw [legacyAccess_off]; omega)]
  simp [State.write32, State.badTarget, ht]

/-! ## The commands -/

theorem exec_badWidthAccess (s : State) (a : Access) (n : Nat) (write : Bool) (hw : widthOk a.off.toNat n = false)
    (hp : s.mod.pwrGood = true) : exec (.badWidthAccess a n write) s = .next (s.badWidth a n write) := by
  change answer _ = _
  rw [if_neg (by simp [hw, hp]), answer]

theorem exec_unmappedAccess (s : State) (a : Access) (wide write : Bool) (ht : targetAt a.bar2 a.off.toNat = .unassigned) :
    exec (.unmappedAccess a wide write) s = .next (s.access a wide write 0) := by
  change answer _ = _
  rw [if_pos ht, answer]

theorem exec_fencedPageAccess (s : State) (a : Access) (wide write : Bool) (p : Page) (off : Nat)
    (ht : targetAt a.bar2 a.off.toNat = .page p off) (hc : s.closed p = true) :
    exec (.fencedPageAccess a wide write) s = .next (s.access a wide write 0) := by
  change answer _ = _
  rw [if_pos (by simp [State.closedTarget, ht, hc]), answer]

theorem exec_darkPageAccess (s : State) (a : Access) (wide write : Bool) (p : Page) (off : Nat)
    (ht : targetAt a.bar2 a.off.toNat = .page p off) (hc : s.closed p = true) (hd : s.darkPage p = true) :
    exec (.darkPageAccess a wide write) s = .next (s.access a wide write 0) := by
  change answer _ = _
  rw [if_pos (by simp [State.closedTarget, ht, hc, hd]), answer]

theorem exec_legacyPageWrite (s : State) (off : BitVec 12) (v : BitVec 32) :
    exec (.legacyPageWrite off v) s = .next (s.access (legacyAccess off) false true v.toNat) := rfl

end Sys2Proof.Machine

/-! ## The statements -/

open Sys2Proof Sys2Proof.Machine

/-- Settles O40: each clause is the rule of its access code on the word it names. -/
theorem registerAccessesFollowTheirCodes : Obligations.RegisterAccessesFollowTheirCodes := by
  unfold Obligations.RegisterAccessesFollowTheirCodes
  intro s a v x
  have hx : (BitVec.ofNat 32 x).toNat % 2 ^ 32 = x := by simp [x]
  refine ⟨fun h => ?rw, fun n _ h => ?rws, fun p h => ?w1c, fun h hl => ?rwl, fun p h => ?roc, fun b h hb ht => ?loRead,
    fun b w h hb => ?pair⟩
  case rw => exact ⟨_, exec_registerWrite s a false v, write_devScratch h v.toNat⟩
  case rws => exact ⟨_, exec_registerWrite s a false v, write_lockPoll h v.toNat⟩
  case w1c => exact ⟨_, exec_registerWrite s a false v, write_intRaw h v.toNat⟩
  case rwl => exact ⟨_, exec_pairHiWrite s a _ (h.isPairWord hiWord (by decide +kernel)), writeHi_ingBase_locked h hl _⟩
  case roc => exact ⟨_, exec_rocRead s a false, read_errCount h 0⟩
  case loRead =>
    refine ⟨_, exec_pairLoRead s a (h.isPairWord loWord (by decide +kernel)), readLo_stkNum h 0, fun n => ?_⟩
    refine ⟨_, exec_rocRead _ b false, readHi_stkNum_latched (h.after_read hb 0 n) 0 _ ?_⟩
    rw [State.wr_latches, ← ht, readLo_stkNum_latches h 0]
  case pair =>
    refine ⟨_, exec_pairLoWrite s a w (h.isPairWord loWord (by decide +kernel)),
      (writeLo_stkResume h w.toNat).2 _ _ (not_errShown _ _ _ (by decide) (by decide)), ?_⟩
    refine ⟨_, exec_pairHiWrite _ b _ (hb.isPairWord hiWord (by decide +kernel)), ?_⟩
    have hboth := writeLo_writeHi_stkResume h hb w.toNat (BitVec.ofNat 32 x).toNat
    rwa [hx, Nat.mod_eq_of_lt w.isLt] at hboth

/-- Settles O41: each access is reduced to what it sets in the DEV page and the answer 0. -/
theorem badAccessesAreCaptured : Obligations.BadAccessesAreCaptured := by
  unfold Obligations.BadAccessesAreCaptured
  intro s a hbar hp others captured
  refine ⟨fun n hw w => ?width, fun w ha ht => ?unmapped, fun p off w ha ht hc hoff c hmem hdark => ?closed, fun off v ha => ?legacy⟩
  case width =>
    obtain ⟨hothers, hcap, hbit⟩ := cause_badAddr s Reg.causeDevBadWidth a.off.toNat (by decide)
    refine ⟨_, exec_badWidthAccess s a n w hw hp, ?_⟩
    rw [badWidth_bar0 s a n w hbar]
    exact ⟨hothers.trans (onlyDevInt_answered _ _ _), (rd_answered _ _ _ _ _).trans hcap, by rwa [rd_answered], answered_zero _ _ _⟩
  case unmapped =>
    rw [← hbar] at ht
    obtain ⟨hothers, hcap, hbit⟩ := cause_badAddr s Reg.causeDevUnmapped a.off.toNat (by decide)
    refine ⟨_, exec_unmappedAccess s a false w ht, ?_⟩
    rw [access_unassigned s a w 0 hbar hp ha ht]
    exact ⟨hothers.trans (onlyDevInt_answered _ _ _), (rd_answered _ _ _ _ _).trans hcap, by rwa [rd_answered], answered_zero _ _ _⟩
  case closed =>
    rw [← hbar] at ht
    have hexec : exec c s = .next (s.access a false w 0) := by
      simp only [List.mem_cons, List.not_mem_nil, or_false] at hmem
      rcases hmem with rfl | rfl
      · exact exec_fencedPageAccess s a false w p off ht hc
      · exact exec_darkPageAccess s a false w p off ht hc (hdark rfl)
    obtain ⟨hothers, hcap, hbit, herr⟩ := closedCapture s p off a.off.toNat
    refine ⟨_, hexec, ?_⟩
    rw [access_closed s a w 0 p off hp ha ht hc hoff]
    refine ⟨hothers.trans (onlyDevInt_answered _ _ _), (rd_answered _ _ _ _ _).trans hcap, ?_, ?_, answered_zero _ _ _⟩
    · rwa [rd_answered]
    · rwa [rd_answered, rd_answered]
  case legacy =>
    refine ⟨_, exec_legacyPageWrite s off v, ?_⟩
    rw [access_legacyWrite s off v.toNat hp ha]
    exact ⟨onlyDevInt_setCause s _, bit_setCause s pgDev _ (by decide)⟩

end

section
/-! SUPPORT. The interrupt registers: what arming, a source line that tries its vector, a written route and an unmasked
vector do (R75, R77 to R80). -/
namespace Sys2Proof.Machine

/-! ## The keys of the routes -/

theorem route_bit (n : Nat) : (Reg.intRouteVector n).bit = 2048 + 8 * n := Nat.mul_add 8 0x100 n

theorem route_ne_route (m n : Nat) (hm : m < 80) (hn : n < 80) (h : m ≠ n) :
    regKey pgInt (Reg.intRouteVector m) ≠ regKey pgInt (Reg.intRouteVector n) :=
  regKey_ne_of_bit _ _ _ _ (by rw [route_bit]; omega) (by rw [route_bit]; omega) (by rw [route_bit, route_bit]; omega)

/-- The routes lie behind every other register of the INT page. -/
theorem route_ne_of_bit (n : Nat) (g : Fld) (hn : n < 80) (hg : g.bit < 2048) :
    regKey pgInt (Reg.intRouteVector n) ≠ regKey pgInt g :=
  regKey_ne_of_bit _ _ _ _ (by rw [route_bit]; omega) (by omega) (by rw [route_bit]; omega)

/-! ## Armed vectors -/

@[simp] theorem bitAt_withoutBit_same (x b : Nat) : bitAt (withoutBit x b) b = false := by
  unfold withoutBit
  split
  · rename_i h
    have hle : 2 ^ b ≤ x := Nat.ge_two_pow_of_testBit (by rwa [← bitAt_eq_testBit])
    obtain ⟨y, rfl⟩ := Nat.exists_eq_add_of_le' hle
    simp only [bitAt, Nat.add_div_right y (Nat.two_pow_pos b), Nat.add_sub_cancel, decide_eq_true_eq, decide_eq_false_iff_not] at h ⊢
    omega
  · exact eq_false_of_ne_true ‹_›

theorem armed_arm (s : State) (v : Nat) (hv : v < 64) : (s.arm v).armed v = true := by
  unfold State.armed State.arm
  rw [rd_wr_same, show Reg.intArmed.width = 64 from rfl, bitAt_mod _ _ _ hv, bitAt_withBit_same]

theorem armed_disarm (s : State) (v : Nat) (hv : v < 64) : (s.disarm v).armed v = false := by
  unfold State.armed State.disarm
  rw [rd_wr_same, show Reg.intArmed.width = 64 from rfl, bitAt_mod _ _ _ hv, bitAt_withoutBit_same]

/-! ## What source lines and delivery hang on -/

theorem pageLine_congr (s t : State) (p : Page) (hf : t.rd p Reg.statFenced = s.rd p Reg.statFenced)
    (hd : t.rd p Reg.statDark = s.rd p Reg.statDark) (hr : t.rd p Reg.intRaw = s.rd p Reg.intRaw)
    (he : t.rd p Reg.intEn = s.rd p Reg.intEn) (hp : t.power = s.power) : t.pageLine p = s.pageLine p := by
  simp only [State.pageLine, State.shut, State.darkPage, State.restingPage, State.flag, hf, hd, hr, he, hp]

/-- A field at another place of its page than INT_ARMED keeps its value when a vector is armed or disarmed. -/
theorem rd_wr_armed (s : State) (x : Nat) (q : Page) (g : Fld) (hg : g.bit < 32768) (h : g.bit ≠ Reg.intArmed.bit) :
    (s.wr pgInt Reg.intArmed x).rd q g = s.rd q g :=
  rd_wr_ne _ _ _ _ _ _ (regKey_ne_of_bit _ _ _ _ hg (by decide) h)

theorem rd_route_wr_armed (s : State) (x n : Nat) (hn : n < 80) :
    (s.wr pgInt Reg.intArmed x).rd pgInt (Reg.intRouteVector n) = s.rd pgInt (Reg.intRouteVector n) :=
  rd_wr_ne _ _ _ _ _ _ (route_ne_of_bit n _ hn (by decide))

@[simp] theorem sourceLine_wr_armed (s : State) (x n : Nat) : (s.wr pgInt Reg.intArmed x).sourceLine n = s.sourceLine n := by
  have hline (p : Page) : (s.wr pgInt Reg.intArmed x).pageLine p = s.pageLine p :=
    pageLine_congr _ _ p (rd_wr_armed _ _ _ _ (by decide) (by decide)) (rd_wr_armed _ _ _ _ (by decide) (by decide))
      (rd_wr_armed _ _ _ _ (by decide) (by decide)) (rd_wr_armed _ _ _ _ (by decide) (by decide)) rfl
  rw [State.sourceLine, State.sourceLine, funext hline]

@[simp] theorem deliverable_wr_armed (s : State) (x : Nat) : (s.wr pgInt Reg.intArmed x).deliverable = s.deliverable := by
  unfold State.deliverable State.flag
  rw [rd_wr_armed _ _ _ _ (by decide) (by decide), State.wr_msixOn]

/-! ## A source line that tries its vector (R77) -/

theorem trySource_of_quiet (s : State) (n : Nat) (h : s.sourceLine n = false) : s.trySource n = s := by
  simp [State.trySource, h]

theorem trySource_of_disarmed (s : State) (n : Nat) (h : s.armed (s.rd pgInt (Reg.intRouteVector n)) = false) :
    s.trySource n = s := by
  simp [State.trySource, h]

/-- An asserted source sends a message on its vector, armed and not masked, and disarms it. -/
theorem trySource_of_asserted (s : State) (n v : Nat) (hr : s.rd pgInt (Reg.intRouteVector n) = v) (ha : s.armed v = true)
    (hd : s.deliverable = true) (hl : s.sourceLine n = true) (hm : s.vecMasked v = false) :
    s.trySource n = (s.disarm v).emit (.msix v) := by
  have hm' : (s.disarm v).vecMasked v = false := hm
  simp [State.trySource, State.message, hr, ha, hd, hl, hm']

theorem foldl_trySource_of_quiet (l : List Nat) (s : State) (h : ∀ n ∈ l, s.sourceLine n = false) :
    l.foldl State.trySource s = s := by
  induction l with
  | nil => rfl
  | cons n l ih =>
    rw [List.forall_mem_cons] at h
    rw [List.foldl_cons, trySource_of_quiet s n h.1, ih h.2]

theorem foldl_trySource_of_disarmed (l : List Nat) (s : State) (v : Nat)
    (hr : ∀ n ∈ l, s.rd pgInt (Reg.intRouteVector n) = v) (ha : s.armed v = false) : l.foldl State.trySource s = s := by
  induction l with
  | nil => rfl
  | cons n l ih =>
    rw [List.forall_mem_cons] at hr
    rw [List.foldl_cons, trySource_of_disarmed s n (by rw [hr.1, ha]), ih hr.2]

/-- Of the sources routed to an armed vector the first asserted one sends its message; after that the vector is disarmed. -/
theorem foldl_trySource_of_asserted (l : List Nat) (s : State) (v : Nat) (hl : ∀ n ∈ l, n < 80) (hv : v < 64)
    (hr : ∀ n ∈ l, s.rd pgInt (Reg.intRouteVector n) = v) (ha : s.armed v = true) (hd : s.deliverable = true)
    (hm : s.vecMasked v = false) (hline : ∃ n ∈ l, s.sourceLine n = true) :
    l.foldl State.trySource s = (s.disarm v).emit (.msix v) := by
  induction l with
  | nil => simp at hline
  | cons n l ih =>
    rw [List.forall_mem_cons] at hl hr
    rw [List.foldl_cons]
    cases hn : s.sourceLine n with
    | true =>
      rw [trySource_of_asserted s n v hr.1 ha hd hn hm]
      exact foldl_trySource_of_disarmed l _ v (fun m hmem => (rd_route_wr_armed s _ m (hl.2 m hmem)).trans (hr.2 m hmem))
        (armed_disarm s v hv)
    | false =>
      rw [trySource_of_quiet s n hn]
      exact ih hl.2 hr.2 (by simpa [hn] using hline)

/-! ## INT_ACK (R78) -/

/-- The sources routed to a vector. -/
def State.routedTo (s : State) (v : Nat) : List Nat :=
  (List.range 80).filter (fun n => s.rd pgInt (Reg.intRouteVector n) = v)

theorem mem_routedTo (s : State) (v n : Nat) : n ∈ s.routedTo v ↔ n < 80 ∧ s.rd pgInt (Reg.intRouteVector n) = v := by
  simp [State.routedTo]

theorem intAck_of_quiet (s : State) (v : Nat)
    (h : ∀ n, n < 80 → s.rd pgInt (Reg.intRouteVector n) = v → s.sourceLine n = false) : s.intAck v = s.arm v := by
  refine foldl_trySource_of_quiet (s.routedTo v) _ fun n hn => ?_
  obtain ⟨hlt, hr⟩ := (mem_routedTo s v n).mp hn
  exact (sourceLine_wr_armed s _ n).trans (h n hlt hr)

theorem intAck_of_asserted (s : State) (v n : Nat) (hv : v < 64) (hn : n < 80) (hr : s.rd pgInt (Reg.intRouteVector n) = v)
    (hl : s.sourceLine n = true) (hd : s.deliverable = true) (hm : s.vecMasked v = false) :
    s.intAck v = ((s.arm v).disarm v).emit (.msix v) := by
  refine foldl_trySource_of_asserted (s.routedTo v) _ v (fun m hmem => ((mem_routedTo s v m).mp hmem).1) hv (fun m hmem => ?_)
    (armed_arm s v hv) ((deliverable_wr_armed s _).trans hd) hm
    ⟨n, (mem_routedTo s v n).mpr ⟨hn, hr⟩, (sourceLine_wr_armed s _ n).trans hl⟩
  obtain ⟨hlt, hrm⟩ := (mem_routedTo s v m).mp hmem
  exact (rd_route_wr_armed s _ m hlt).trans hrm

/-! ## INT_ROUTE (R75) -/

/-- A route field is written: the route is stored, and its source tries the vector. -/
def State.routeWrite (s : State) (n v : Nat) : State := (s.routeOne n v).trySource n

theorem route_not_shown (n : Nat) (hn : n < 80) : ∀ f ∈ intShown, regKey pgInt (Reg.intRouteVector n) ≠ regKey pgInt f := by
  have hsmall : ∀ f ∈ intShown, f.bit < 2048 := by decide
  exact fun f hf => route_ne_of_bit n f hn (hsmall f hf)

/-- The stored route is the vector below 48, and 0 for one above. -/
theorem rd_routeWrite_same (s : State) (n v : Nat) (hn : n < 80) :
    (s.routeWrite n v).rd pgInt (Reg.intRouteVector n) = if v < 48 then v else 0 := by
  unfold State.routeWrite State.routeOne
  rw [rd_trySource _ _ _ _ (route_not_shown n hn)]
  split
  · rw [rd_wr_same]
    exact Nat.mod_eq_of_lt (show v < 2 ^ 6 by omega)
  · rw [rd_setCause _ _ _ _ _ (route_ne_of_bit n _ hn (by decide)) (route_not_shown n hn), rd_wr_same, Nat.zero_mod]

theorem rd_routeWrite_ne (s : State) (m n v : Nat) (hm : m < 80) (hn : n < 80) (h : m ≠ n) :
    (s.routeWrite n v).rd pgInt (Reg.intRouteVector m) = s.rd pgInt (Reg.intRouteVector m) := by
  have hkey := route_ne_route m n hm hn h
  unfold State.routeWrite State.routeOne
  rw [rd_trySource _ _ _ _ (route_not_shown m hm)]
  split
  · exact rd_wr_ne _ _ _ _ _ _ hkey
  · rw [rd_setCause _ _ _ _ _ (route_ne_of_bit m _ hm (by decide)) (route_not_shown m hm), rd_wr_ne _ _ _ _ _ _ hkey]

/-- A route write sets ROUTE_BAD for a vector of 48 or more, and never clears it. -/
theorem routeBad_routeWrite (s : State) (n v : Nat) (hn : n < 80) :
    bitAt ((s.routeWrite n v).rd pgInt Reg.intRaw) 0 = (bitAt (s.rd pgInt Reg.intRaw) 0 || decide (48 ≤ v)) := by
  unfold State.routeWrite State.routeOne
  rw [rd_trySource _ _ _ _ (intRaw_not_shown pgInt)]
  split
  · rw [rd_wr_ne _ _ _ _ _ _ (route_ne_of_bit n _ hn (by decide)).symm, decide_eq_false (by omega), Bool.or_false]
  · rw [decide_eq_true (show 48 ≤ v by omega), Bool.or_true]
    exact bit_setCause _ pgInt 0 (by decide)

/-- Routes of a list of sources of one register, each of its own vector. -/
def State.routeWrites (s : State) (b : Nat) (x : Nat → Nat) (l : List Nat) : State :=
  l.foldl (fun (s : State) j => s.routeWrite (b + j) (x j)) s

theorem rd_routeWrites_of_not_mem (b : Nat) (x : Nat → Nat) (l : List Nat) (s : State) (i : Nat) (hl : ∀ j ∈ l, b + j < 80)
    (hi : b + i < 80) (h : i ∉ l) :
    (s.routeWrites b x l).rd pgInt (Reg.intRouteVector (b + i)) = s.rd pgInt (Reg.intRouteVector (b + i)) := by
  induction l generalizing s with
  | nil => rfl
  | cons j l ih =>
    rw [List.forall_mem_cons] at hl
    rw [List.mem_cons, not_or] at h
    obtain ⟨hij, hmem⟩ := h
    exact (ih _ hl.2 hmem).trans (rd_routeWrite_ne s _ _ _ hi hl.1 (by omega))

theorem rd_routeWrites (b : Nat) (x : Nat → Nat) (l : List Nat) (s : State) (i : Nat) (hl : ∀ j ∈ l, b + j < 80)
    (hd : l.Nodup) (h : i ∈ l) :
    (s.routeWrites b x l).rd pgInt (Reg.intRouteVector (b + i)) = if x i < 48 then x i else 0 := by
  induction l generalizing s with
  | nil => simp at h
  | cons j l ih =>
    rw [List.forall_mem_cons] at hl
    obtain ⟨hj, hd⟩ := List.nodup_cons.mp hd
    rcases List.mem_cons.mp h with rfl | hmem
    · exact (rd_routeWrites_of_not_mem b x l _ i hl.2 hl.1 hj).trans (rd_routeWrite_same s _ _ hl.1)
    · exact ih _ hl.2 hd hmem

theorem routeBad_routeWrites (b : Nat) (x : Nat → Nat) (l : List Nat) (s : State) (hl : ∀ j ∈ l, b + j < 80) :
    bitAt ((s.routeWrites b x l).rd pgInt Reg.intRaw) 0 =
      (bitAt (s.rd pgInt Reg.intRaw) 0 || l.any (fun j => decide (48 ≤ x j))) := by
  induction l generalizing s with
  | nil => simp [State.routeWrites]
  | cons j l ih =>
    rw [List.forall_mem_cons] at hl
    have hcons : s.routeWrites b x (j :: l) = (s.routeWrite (b + j) (x j)).routeWrites b x l := rfl
    rw [hcons, ih _ hl.2, routeBad_routeWrite s _ _ hl.1, List.any_cons, Bool.or_assoc]

theorem find_route (n : Nat) (hn : n < 80) :
    (List.range 80).find? (fun m => Reg.intRouteVector n = Reg.intRouteVector m) = some n := by
  rw [List.find?_range_eq_some]
  refine ⟨decide_eq_true rfl, List.mem_range.mpr hn, fun j hj => ?_⟩
  have hkey := route_ne_route n j hn (by omega) (by omega)
  simpa using fun e => hkey (congrArg (regKey pgInt) e)

theorem writeField_route (s : State) (tender : Bool) (n v : Nat) (hn : n < 80) :
    s.writeField tender pgInt (Reg.intRouteVector n) v = s.routeWrite n v := by
  have hne (g : Fld) (hg : g.bit < 2048) : Reg.intRouteVector n ≠ g :=
    fun e => route_ne_of_bit n g hn hg (congrArg (regKey pgInt) e)
  change s.rwField pgInt (Reg.intRouteVector n) v = _
  unfold State.rwField State.rwWrite
  rw [if_neg fun h => hne Reg.intEn (by decide) h.2]
  change (if _ then _ else _) = _
  rw [if_neg (hne Reg.intCtrlEn (by decide)), find_route n hn]
  rfl

/-- The four routes of an INT_ROUTE register are the fields of its word (R86). -/
theorem wordFields_intRoute (k : Fin 20) :
    wordFields .int (64 + k.val) = (List.range 4).map (fun j => Reg.intRouteVector (4 * k.val + j)) := by
  revert k
  decide +kernel

theorem fieldPart_route (k j : Nat) (hj : j < 4) : fieldPart (Reg.intRouteVector (4 * k + j)) (64 + k) = (0, 8 * j, 6) := by
  simp only [fieldPart, Reg.intRouteVector, Prod.mk.injEq]
  omega

/-- A written INT_ROUTE register: its four routes, and an error for a reserved bit written 1. -/
theorem writeWord_intRoute (s : State) (tender : Bool) (k : Fin 20) (v : Nat) :
    s.writeWord tender pgInt (0x100 + 4 * k.val) v =
      s.sameCycle (s.routeWrites (4 * k.val) (fun j => bitsAt v (8 * j) 6) (List.range 4)) pgInt
        (fun t => t.reservedErr pgInt (0x100 + 4 * k.val) v) := by
  have hk := k.isLt
  have hword : (0x100 + 4 * k.val) / 4 = 64 + k.val := by omega
  have hpart (t : State) (j : Nat) (hj : j ∈ List.range 4) :
      t.writePart tender pgInt (64 + k.val) v (Reg.intRouteVector (4 * k.val + j)) =
        t.routeWrite (4 * k.val + j) (bitsAt v (8 * j) 6) := by
    have hj := List.mem_range.mp hj
    rw [writePart_field _ _ _ _ _ _ (by simp [Reg.intRouteVector]), fieldPart_route k.val j hj, writeField_route _ _ _ _ (by omega)]
  have hfold : (wordFields .int (64 + k.val)).foldl (fun (t : State) f => t.writePart tender pgInt (64 + k.val) v f) s =
      s.routeWrites (4 * k.val) (fun j => bitsAt v (8 * j) 6) (List.range 4) := by
    rw [wordFields_intRoute, List.foldl_map]
    exact List.foldl_rel (r := Eq) rfl fun j hj t u htu => by rw [htu, hpart u j hj]
  unfold State.writeWord
  rw [if_neg (by omega)]
  dsimp only
  rw [if_neg (fun h => absurd h.1 (by decide)), hword, show pgInt.kind = Kind.int from rfl, hfold]
  rfl

section
variable (s : State) (tender : Bool) (k : Fin 20) (v i : Nat)

theorem route_lt : ∀ j ∈ List.range 4, 4 * k.val + j < 80 := by
  intro j hj
  rw [List.mem_range] at hj
  omega

/-- Beside its routes a written INT_ROUTE register changes at most the error capture. -/
theorem rd_writeWord_intRoute (g : Fld) (hg : ∀ e ∈ errShown, regKey pgInt g ≠ regKey pgInt e) :
    (s.writeWord tender pgInt (0x100 + 4 * k.val) v).rd pgInt g =
      (s.routeWrites (4 * k.val) (fun j => bitsAt v (8 * j) 6) (List.range 4)).rd pgInt g := by
  rw [writeWord_intRoute]
  exact rd_sameCycle _ _ _ _ _ _ (fun t => rd_reservedErr t _ _ _ _ _ hg) hg

theorem rd_route_writeWord (hi : i < 4) :
    (s.writeWord tender pgInt (0x100 + 4 * k.val) v).rd pgInt (Reg.intRouteVector (4 * k.val + i)) =
      if bitsAt v (8 * i) 6 < 48 then bitsAt v (8 * i) 6 else 0 := by
  have hmem : i ∈ List.range 4 := List.mem_range.mpr hi
  have hsmall : ∀ e ∈ errShown, e.bit < 2048 := by decide
  rw [rd_writeWord_intRoute _ _ _ _ _ fun e he => route_ne_of_bit _ e (route_lt k i hmem) (hsmall e he)]
  exact rd_routeWrites _ _ _ s i (route_lt k) List.nodup_range hmem

theorem routeBad_writeWord (hi : i < 4) (hbad : 48 ≤ bitsAt v (8 * i) 6) :
    bitAt ((s.writeWord tender pgInt (0x100 + 4 * k.val) v).rd pgInt Reg.intRaw) 0 = true := by
  rw [rd_writeWord_intRoute _ _ _ _ _ (not_errShown _ _ _ (by decide) (by decide)), routeBad_routeWrites _ _ _ s (route_lt k),
    List.any_eq_true.mpr ⟨i, List.mem_range.mpr hi, decide_eq_true hbad⟩, Bool.or_true]

end

/-! ## INT_CTRL.EN (R80) -/

theorem rd_trySources (s : State) (q : Page) (g : Fld) (h : ∀ f ∈ intShown, regKey q g ≠ regKey pgInt f) :
    s.trySources.rd q g = s.rd q g := by
  have hl (l : List Nat) (s : State) : (l.foldl State.trySource s).rd q g = s.rd q g := by
    induction l generalizing s with
    | nil => rfl
    | cons n l ih => rw [List.foldl_cons, ih, rd_trySource _ _ _ _ h]
  exact hl _ s

theorem rd_intCtrl (s : State) (en : Bool) : (s.intCtrl en).rd pgInt Reg.intCtrlEn = b2n en := by
  have hsmall : ∀ f ∈ intShown, f.bit < 32768 ∧ Reg.intCtrlEn.bit ≠ f.bit := by decide
  have hkey : ∀ f ∈ intShown, regKey pgInt Reg.intCtrlEn ≠ regKey pgInt f :=
    fun f hf => regKey_ne_of_bit _ _ _ _ (by decide) (hsmall f hf).1 (hsmall f hf).2
  unfold State.intCtrl
  dsimp only
  cases en with
  | true => rw [if_pos rfl, rd_trySources _ _ _ hkey, rd_wr_same]; rfl
  | false => rw [if_neg (by decide), rd_wr_same]; rfl

theorem flag_intCtrl (s : State) (en : Bool) : (s.intCtrl en).flag pgInt Reg.intCtrlEn = en := by
  rw [State.flag, rd_intCtrl]
  cases en <;> rfl

theorem out_intCtrl_false (s : State) : (s.intCtrl false).out = s.out := rfl

/-! ## MSI-X masks (R79) -/

theorem OnlyShows.vecMasked {s t : State} (h : OnlyShows s t) (v : Nat) : t.vecMasked v = s.vecMasked v := by
  obtain ⟨_, _, _, _, _, rfl⟩ := h
  rfl

theorem flushPending_shows (s : State) : OnlyShows s s.flushPending := by
  unfold State.flushPending
  split
  · exact .rfl' s
  · refine onlyShows_foldl _ (fun s v => ?_) _ s
    split
    · exact .rfl' s
    · exact ⟨s.regs, _, _, s.smoke, s.firstAt, rfl⟩

/-- The table entry of a vector with its mask bit cleared. -/
def State.unmasked (s : State) (v : Nat) : State := { s with msixTable := SMap.setD s.msixTable (4 * v + 3) 1 0 }

theorem vecMasked_unmasked (s : State) (v : Nat) : (s.unmasked v).vecMasked v = s.msixMask := by
  have hbit : bitAt 0 0 = false := rfl
  simp [State.vecMasked, State.unmasked, hbit]

theorem tableWrite_unmask (s : State) (v : Nat) : s.tableWrite (4 * v + 3) 0 = (s.unmasked v).flushPending := by
  have hword : (4 * v + 3) % 4 = 3 := by omega
  rw [State.tableWrite, if_pos hword, State.unmasked]

/-- The one pending message, of a vector that is not masked, is sent. -/
theorem flushPending_single (s : State) (v : Nat) (hon : s.msixOn = true) (hm : s.vecMasked v = false)
    (hp : s.msixPend = [(v, true)]) : s.flushPending = ({ s with msixPend := [] }).emit (.msix v) := by
  simp [State.flushPending, hon, hp, hm, SMap.setD, SMap.del]

/-! ## The commands -/

theorem exec_intAck (s : State) (v : BitVec 6) : exec (.intAck v) s = .next (s.intAck v.toNat) := rfl

theorem exec_intRouteWrite (s : State) (k : Fin 20) (v : BitVec 32) :
    exec (.intRouteWrite k v) s = .next (s.writeWord false pgInt (0x100 + 4 * k.val) v.toNat) := rfl

theorem exec_intCtrlWrite (s : State) (en : Bool) : exec (.intCtrlWrite en) s = .next (s.intCtrl en) := rfl

theorem exec_msixUnmask (s : State) (v : Fin 64) : exec (.msixUnmask v) s = .next (s.tableWrite (4 * v.val + 3) 0) := rfl

end Sys2Proof.Machine

/-! ## The statement -/

open Sys2Proof Sys2Proof.Machine

/-- Settles O42: each clause is the equation of its command, read off the INT page and the outputs. -/
theorem interruptRegistersRouteAndRearm : Obligations.InterruptRegistersRouteAndRearm := by
  unfold Obligations.InterruptRegistersRouteAndRearm
  intro s
  refine ⟨fun v hquiet => ?ackQuiet, fun v n hn hr hl hd hm => ?ackAsserted, fun k v i hi =>
    ⟨_, exec_intRouteWrite s k v, rd_route_writeWord s false k _ i hi, routeBad_writeWord s false k _ i hi⟩,
    fun b => ⟨_, exec_intCtrlWrite s b, flag_intCtrl s b, ?ctrlOff⟩, fun v => ?unmask⟩
  case ackQuiet =>
    refine ⟨_, exec_intAck s v, ?_⟩
    rw [intAck_of_quiet s v.toNat hquiet]
    exact ⟨armed_arm s v.toNat v.isLt, rfl⟩
  case ackAsserted =>
    refine ⟨_, exec_intAck s v, ?_⟩
    rw [intAck_of_asserted s v.toNat n v.isLt hn hr hl hd hm]
    exact ⟨armed_disarm _ v.toNat v.isLt, rfl⟩
  case ctrlOff =>
    rintro rfl
    exact out_intCtrl_false s
  case unmask =>
    refine ⟨_, exec_msixUnmask s v, ?_⟩
    rw [tableWrite_unmask]
    refine ⟨((flushPending_shows _).vecMasked v).trans (vecMasked_unmasked s v), fun hon hmask hpend => ?_⟩
    rw [flushPending_single (s.unmasked v) v hon ((vecMasked_unmasked s v).trans hmask) hpend]
    exact ⟨rfl, rfl⟩

end
